-- ==== Sys2Proof/Word.lean ====
section
/-!
DEFINITION. The word types of the machine.
A general register is 64 bits, a vector register 2048 bits, a program counter 56 bits (R34).
Register numbers are the five-bit fields of the instruction formats (R54).
-/

namespace Sys2Proof

/-- A general or operand-extension register, a pointer, a system register: 64 bits (R34). -/
abbrev Word := BitVec 64

/-- One byte of memory. -/
abbrev Byte := BitVec 8

/-- A virtual address without its tag byte, and a program counter: 56 bits (R34, R97). -/
abbrev VAddr := BitVec 56

/-- One vector register: VLEN is 2048 bits (R120). -/
abbrev VReg := BitVec 2048

/-- The number of a `g` register (R54). -/
abbrev Reg := BitVec 5

/-- The number of a vector register (R54). -/
abbrev VRegNo := BitVec 5

/-- The number of an `ox` register, the low three bits of its field (R56). -/
abbrev OxReg := BitVec 3

/-- The number of a stream slot, the low four bits of its field (R56). -/
abbrev Slot := BitVec 4

end Sys2Proof
end

