-- ==== Sys2Proof/Config.lean ====
section
/-!
DEFINITION. What an implementation fixes and the free values.
A constant here has no body: nothing can be proved of its value, so a statement about it holds for every value.
The step gives each use of a free value a fresh index from a counter of the state, so two uses are unrelated.
-/

namespace Sys2Proof.Config

open Sys2Proof

/-- MAJOR of `DEV.IDENT`, per part (R10). (DESIGN CHOICE, log 86) -/
opaque major : BitVec 4

/-- MINOR of `DEV.IDENT`, a digit, per part (R10). (DESIGN CHOICE, log 86) -/
opaque minor : Fin 10

/-- Is the physical core at row `y` and column `x` of a die fused off (R2, R372)? (DESIGN CHOICE, log 11) -/
opaque fusedOff : Nat → Nat → Nat → Bool

/-- The router of its die at which a hearth unit is attached (R363): unit 0 the migration engine of die 0, 1 + d the storage queue engine of
die d. (DESIGN CHOICE, log 11) -/
opaque hearthRouter : Nat → Nat

/-- A fresh 64-bit value where the manual leaves a value open: use number `n`. (DESIGN CHOICE, log 5) -/
opaque freeWord : Nat → Word

/-- A fresh choice between two outcomes where the manual leaves it open: use number `n`. (DESIGN CHOICE, log 5) -/
opaque freeBit : Nat → Bool

/-- The ac that pass on a core in step `n` (R85: the manual gives bounds, not one time). (DESIGN CHOICE, log 6) -/
opaque acPassed : Nat → Nat

/-- The tk of global time that pass in step `n` at an adjustment of the rate (R85, R381). (DESIGN CHOICE, log 6) -/
opaque tkPassed : Nat → Int → Nat

/-- The signature of the measurement log and a nonce (R390): the device identity key never leaves the device. (DESIGN CHOICE, log 66) -/
opaque attestSignature : List Word → List Word → List Word

/-- The SHAKE256 digest of an image, as eight doublewords (R390). (DESIGN CHOICE, log 66) -/
opaque digest : List Word → List Word

/-- The verification of an image's signature against the fused key digest (R389). (DESIGN CHOICE, log 66) -/
opaque imageVerifies : List Word → Bool

/-- The number of errors, corrected (`true`) or not, at which a unit of a kind is reported (R7, R315, R380). (DESIGN CHOICE, log 88) -/
opaque errorThreshold : Nat → Bool → Nat

/-- Where in an SSD's queue memory an entry of a kind lies, in entries (R393, R395). (DESIGN CHOICE, log 73) -/
opaque queuePlace : Nat → Nat → Nat

/-- Does root port `id % 4` of die `id / 4` have an SSD (R392)? (DESIGN CHOICE, log 71) -/
opaque ssdPresent : Nat → Bool

end Sys2Proof.Config
end

