-- ==== Sys2Proof/Machine/Bits.lean ====
section
/-!
DEFINITION. Bit fields, sign extension, byte order and small table helpers.
Elements of a width that a register chooses at run time are natural numbers below 2^w (Wrap, SignExt of the notation chapter).
-/

namespace Sys2Proof.Machine

open Sys2Proof

/-- Wrap(x, w): an integer modulo 2^w as a natural number. -/
def wrapInt (x : Int) (w : Nat) : Nat := (x % ((2 : Int) ^ w)).toNat

/-- SignExt(x, w): the low `w` bits of `x` read as a two's-complement number. -/
def signExt (x w : Nat) : Int :=
  let y := x % 2 ^ w
  if w = 0 then 0 else if y < 2 ^ (w - 1) then (y : Int) else (y : Int) - (2 : Int) ^ w

/-- Bits [lo+n-1:lo] of a natural number. -/
def bitsOf (x lo n : Nat) : Nat := (x >>> lo) % 2 ^ n

/-- Bit `i` of a natural number. -/
def bitOf (x i : Nat) : Bool := x.testBit i

/-- A word with bits [lo+n-1:lo] replaced. -/
def setBits (x lo n v : Nat) : Nat :=
  x - (bitsOf x lo n) <<< lo + (v % 2 ^ n) <<< lo

/-- Field [lo+n-1:lo] of a register. -/
def fieldOf {w : Nat} (x : BitVec w) (lo n : Nat) : Nat := bitsOf x.toNat lo n

/-- A register with field [lo+n-1:lo] replaced. -/
def setField {w : Nat} (x : BitVec w) (lo n v : Nat) : BitVec w := BitVec.ofNat w (setBits x.toNat lo n v)

/-- The `n` bytes of a value, lowest first (R21: little-endian). -/
def bytesLE : Nat → Nat → List Byte
  | 0, _ => []
  | n + 1, v => BitVec.ofNat 8 v :: bytesLE n (v / 256)

/-- The value of bytes, lowest first (R21). -/
def fromBytesLE : List Byte → Nat
  | [] => 0
  | b :: bs => b.toNat + 256 * fromBytesLE bs

/-- `n` elements of `w` bits cut out of a number, lowest first. -/
def chunks (w : Nat) : Nat → Nat → List Nat
  | 0, _ => []
  | n + 1, v => v % 2 ^ w :: chunks w n (v / 2 ^ w)

/-- The number whose `w`-bit elements, lowest first, are the list. -/
def joinChunks (w : Nat) : List Nat → Nat
  | [] => 0
  | x :: xs => x % 2 ^ w + 2 ^ w * joinChunks w xs

/-- The smaller of two integers. -/
def minInt (x y : Int) : Int := if x ≤ y then x else y

/-- The larger of two integers. -/
def maxInt (x y : Int) : Int := if x ≤ y then y else x

/-- ⌊log2 x⌋ of a positive number. -/
def log2 (x : Nat) : Nat := Nat.log2 x

/-- The leading zero bits of `x` in `n` bits; `n` when `x` is 0 (R71). -/
def leadingZeros (n x : Nat) : Nat := if x = 0 then n else n - 1 - Nat.log2 x

/-- The trailing zero bits of `x` in `n` bits; `n` when `x` is 0 (R71). -/
def trailingZeros : Nat → Nat → Nat
  | 0, _ => 0
  | n + 1, x => if x % 2 = 1 then 0 else 1 + trailingZeros n (x / 2)

/-- The number of one bits of `x` in `n` bits (R71). -/
def popCount : Nat → Nat → Nat
  | 0, _ => 0
  | n + 1, x => x % 2 + popCount n (x / 2)

/-- ⌊√x⌋, one bit of the root a turn from bit `k - 1` down, starting from the root `r` found so far. -/
def sqrtFrom : Nat → Nat → Nat → Nat
  | 0, r, _ => r
  | k + 1, r, x => if (r + 2 ^ k) * (r + 2 ^ k) ≤ x then sqrtFrom k (r + 2 ^ k) x else sqrtFrom k r x

/-- ⌊√x⌋. -/
def natSqrt (x : Nat) : Nat := sqrtFrom (Nat.log2 x / 2 + 1) 0 x

/-- The entry of a table with keys in rising order; an unlisted key has the value `dflt`. -/
def tabGet {α : Type} (dflt : α) : List (Nat × α) → Nat → α
  | [], _ => dflt
  | (k, v) :: rest, i => if k = i then v else tabGet dflt rest i

/-- A table with the entry of one key replaced, inserted in order, or removed when it is the value an unlisted key has. -/
def tabSet {α : Type} [DecidableEq α] (dflt : α) : List (Nat × α) → Nat → α → List (Nat × α)
  | [], i, x => if x = dflt then [] else [(i, x)]
  | (k, v) :: rest, i, x =>
    if i < k then (if x = dflt then (k, v) :: rest else (i, x) :: (k, v) :: rest)
    else if i = k then (if x = dflt then rest else (i, x) :: rest)
    else (k, v) :: tabSet dflt rest i x

/-- The canonical form of a table: keys strictly rising from `lo`, and no entry equal to what an unlisted key has. -/
def tabWfFrom {α : Type} [DecidableEq α] (dflt : α) : Nat → List (Nat × α) → Bool
  | _, [] => true
  | lo, (k, v) :: rest => decide (lo ≤ k) && decide (v ≠ dflt) && tabWfFrom dflt (k + 1) rest

/-- The canonical form of a table. -/
def tabWf {α : Type} [DecidableEq α] (dflt : α) (l : List (Nat × α)) : Bool := tabWfFrom dflt 0 l

/-- The entry of a table, if it has one. -/
def tabFind {α : Type} : List (Nat × α) → Nat → Option α
  | [], _ => none
  | (k, v) :: rest, i => if k = i then some v else tabFind rest i

/-- A table with an entry inserted in order or replaced. -/
def tabPut {α : Type} : List (Nat × α) → Nat → α → List (Nat × α)
  | [], i, x => [(i, x)]
  | (k, v) :: rest, i, x =>
    if i < k then (i, x) :: (k, v) :: rest else if i = k then (i, x) :: rest else (k, v) :: tabPut rest i x

/-- A table without the entry of a key. -/
def tabDel {α : Type} (l : List (Nat × α)) (i : Nat) : List (Nat × α) := l.filter (fun p => p.1 != i)

/-- An entry put into a cache of `cap` entries as its newest; the oldest is dropped when it overflows. (DESIGN CHOICE, log 9) -/
def cachePut {α : Type} (cap : Nat) (l : List (Nat × α)) (k : Nat) (v : α) : List (Nat × α) :=
  let t := tabDel l k ++ [(k, v)]
  if cap < t.length then t.drop 1 else t

/-- Replace element `i` of a list; a list that is too short stays as it is. -/
def listSet {α : Type} : List α → Nat → α → List α
  | [], _, _ => []
  | _ :: xs, 0, y => y :: xs
  | x :: xs, i + 1, y => x :: listSet xs i y

/-- Insert a number into a rising list without repeats. -/
def insertNat : Nat → List Nat → List Nat
  | x, [] => [x]
  | x, y :: ys => if x < y then x :: y :: ys else if x = y then y :: ys else y :: insertNat x ys

/-- TIME after some ticks: it never decreases, so it stops at its greatest value (R85, R381). -/
def timeAfter (t : Word) (ticks : Nat) : Word := BitVec.ofNat 64 (min (2 ^ 64 - 1) (t.toNat + ticks))

end Sys2Proof.Machine
end

