-- ==== Sys2Proof/Machine/Float.lean ====
section
/-!
DEFINITION. The float formats, exact values and the one rounding (R94 to R96), and the float operations of R138 to R150.
An operation is computed exactly, as a fraction times a power of two, and rounded once.
-/

namespace Sys2Proof.Machine

open Sys2Proof

/-- The sticky flags in the places of FSTAT[6:0] (R37). -/
abbrev Flags := BitVec 7

/-- NX: inexact. -/
def flagNX : Flags := 1
/-- UF: tiny and inexact. -/
def flagUF : Flags := 2
/-- OF: overflow. -/
def flagOF : Flags := 4
/-- DZ: division by zero. -/
def flagDZ : Flags := 8
/-- NV: invalid operation. -/
def flagNV : Flags := 16
/-- WOVF: a window conversion overflowed. -/
def flagWOVF : Flags := 32
/-- BFLT: a billet selector corruption was decoded. -/
def flagBFLT : Flags := 64

/-- The rounding modes of FRM.RM (R36, R96). -/
inductive RMode where
  | rne
  | rtz
  | rdn
  | rup
deriving DecidableEq, Repr

/-- The mode an RM field names (R36). -/
def rmodeOf (n : Nat) : RMode :=
  match n % 4 with
  | 0 => .rne
  | 1 => .rtz
  | 2 => .rdn
  | _ => .rup

/-- A float format: the widths of its exponent and fraction fields (R94). -/
structure FFmt where
  ebits : Nat
  fbits : Nat
deriving DecidableEq, Repr

/-- F16 (R94). -/
def fmtF16 : FFmt := { ebits := 5, fbits := 10 }
/-- BF16 (R94). -/
def fmtBF16 : FFmt := { ebits := 8, fbits := 7 }
/-- F32 (R94). -/
def fmtF32 : FFmt := { ebits := 8, fbits := 23 }
/-- F64 (R94). -/
def fmtF64 : FFmt := { ebits := 11, fbits := 52 }

/-- The width of the format in bits. -/
def FFmt.width (f : FFmt) : Nat := 1 + f.ebits + f.fbits
/-- The exponent bias (R94). -/
def FFmt.bias (f : FFmt) : Nat := 2 ^ (f.ebits - 1) - 1
/-- The canonical quiet NaN, sign 0 (R94, R95). -/
def FFmt.nan (f : FFmt) : Nat := (2 ^ f.ebits - 1) * 2 ^ f.fbits + 2 ^ (f.fbits - 1)
/-- The infinity of a sign. -/
def FFmt.inf (f : FFmt) (neg : Bool) : Nat := (if neg then 2 ^ (f.ebits + f.fbits) else 0) + (2 ^ f.ebits - 1) * 2 ^ f.fbits
/-- The largest finite magnitude with a sign (R94). -/
def FFmt.maxFinite (f : FFmt) (neg : Bool) : Nat := (if neg then 2 ^ (f.ebits + f.fbits) else 0) + (2 ^ f.ebits - 1) * 2 ^ f.fbits - 1
/-- The zero of a sign. -/
def FFmt.zero (f : FFmt) (neg : Bool) : Nat := if neg then 2 ^ (f.ebits + f.fbits) else 0
/-- The exponent of the smallest subnormal: 1 - bias - fbits (R94). -/
def FFmt.minExp (f : FFmt) : Int := 1 - (f.bias : Int) - (f.fbits : Int)

/-- What a float's bits stand for (R94): a finite value is (-1)^neg * m * 2^e. -/
inductive FVal where
  | nan (signalling : Bool)
  | inf (neg : Bool)
  | fin (neg : Bool) (m : Nat) (e : Int)
deriving DecidableEq, Repr

/-- The value of a float's bits (R94, R95). -/
def FFmt.unpack (f : FFmt) (x : Nat) : FVal :=
  let neg := bitOf x (f.ebits + f.fbits)
  let ex := bitsOf x f.fbits f.ebits
  let fr := bitsOf x 0 f.fbits
  if ex = 2 ^ f.ebits - 1 then
    if fr = 0 then .inf neg else .nan (!bitOf x (f.fbits - 1))
  else if ex = 0 then .fin neg fr f.minExp
  else .fin neg (2 ^ f.fbits + fr) (f.minExp + ((ex : Int) - 1))

/-- True of a NaN. -/
def FVal.isNan : FVal → Bool
  | .nan _ => true
  | _ => false

/-- True of a signalling NaN (R95). -/
def FVal.isSnan : FVal → Bool
  | .nan s => s
  | _ => false

/-- The sign of a value; a NaN has none. -/
def FVal.isNeg : FVal → Bool
  | .nan _ => false
  | .inf n => n
  | .fin n _ _ => n

/-- True of a zero. -/
def FVal.isZero : FVal → Bool
  | .fin _ m _ => m == 0
  | _ => false

/-- x * 2^k as a fraction: numerator and denominator. -/
def scaleFrac (num den : Nat) (k : Int) : Nat × Nat :=
  if 0 ≤ k then (num <<< k.toNat, den) else (num, den <<< (-k).toNat)

/-- num/den * 2^e rounded to a multiple of 2^lsb in a mode: the multiple and whether it differs (R96). -/
def roundAt (mode : RMode) (neg : Bool) (num den : Nat) (e lsb : Int) : Nat × Bool :=
  let fr := scaleFrac num den (e - lsb)
  let q := fr.1 / fr.2
  let r := fr.1 % fr.2
  let up : Bool :=
    match mode with
    | .rne => decide (fr.2 < 2 * r) || (decide (2 * r = fr.2) && decide (q % 2 = 1))
    | .rtz => false
    | .rdn => neg && decide (0 < r)
    | .rup => !neg && decide (0 < r)
  (if up then q + 1 else q, decide (0 < r))

/-- ⌊log2 (num/den * 2^e)⌋ of a positive fraction. -/
def fracLog2 (num den : Nat) (e : Int) : Int :=
  let l : Int := (Nat.log2 num : Int) - (Nat.log2 den : Int)
  let fr := scaleFrac num den (-l)
  (if fr.2 ≤ fr.1 then l else l - 1) + e

/-- The overflow result of a mode and a sign (R96). -/
def FFmt.overflow (f : FFmt) (mode : RMode) (neg : Bool) : Nat :=
  match mode, neg with
  | .rne, n => f.inf n
  | .rtz, n => f.maxFinite n
  | .rdn, false => f.maxFinite false
  | .rdn, true => f.inf true
  | .rup, false => f.inf false
  | .rup, true => f.maxFinite true

/-- Round(x, fmt, mode) of R96 for x = ±num/den * 2^e; a zero magnitude keeps the sign given. -/
def FFmt.round (f : FFmt) (mode : RMode) (neg : Bool) (num den : Nat) (e : Int) : Nat × Flags :=
  if num = 0 then (f.zero neg, 0) else
  let ex := fracLog2 num den e
  let free := roundAt mode neg num den e (ex - f.fbits)
  let exFree := if free.1 = 2 ^ (f.fbits + 1) then ex + 1 else ex
  if (f.bias : Int) < exFree then (f.overflow mode neg, flagOF ||| flagNX) else
  let lsb := maxInt (ex - f.fbits) f.minExp
  let q := roundAt mode neg num den e lsb
  let bits := (lsb - f.minExp).toNat * 2 ^ f.fbits + q.1
  let tiny := decide (exFree < 1 - (f.bias : Int))
  ((if neg then 2 ^ (f.ebits + f.fbits) else 0) + bits,
    if q.2 then (if tiny then flagUF ||| flagNX else flagNX) else 0)

/-- Round of the integer multiple n * 2^e; an exact zero is +0 (R96). -/
def FFmt.roundInt (f : FFmt) (mode : RMode) (n : Int) (e : Int) : Nat × Flags :=
  f.round mode (decide (n < 0)) n.natAbs 1 e

/-- A signed magnitude as an integer. -/
def signedMag (neg : Bool) (m : Nat) : Int := if neg then -(m : Int) else (m : Int)

/-- NV when one of the operands is a signalling NaN (R95). -/
def snanFlag (xs : List FVal) : Flags := if xs.any FVal.isSnan then flagNV else 0

/-- The exact sum of two finite values: an integer and its exponent. -/
def exactAdd (n1 : Int) (e1 : Int) (n2 : Int) (e2 : Int) : Int × Int :=
  let e := minInt e1 e2
  (n1 * (2 : Int) ^ (e1 - e).toNat + n2 * (2 : Int) ^ (e2 - e).toNat, e)

/-- The sign of an exact zero sum (R138): like signs keep theirs, unlike signs give +0, and -0 in RDN. -/
def zeroSumNeg (mode : RMode) (s1 s2 : Bool) : Bool := if s1 = s2 then s1 else mode == .rdn

/-- The sum of two values, rounded once (R138). -/
def addVal (f : FFmt) (mode : RMode) (x y : FVal) : Nat × Flags :=
  match x, y with
  | .nan _, _ => (f.nan, snanFlag [x, y])
  | _, .nan _ => (f.nan, snanFlag [x, y])
  | .inf a, .inf b => if a = b then (f.inf a, 0) else (f.nan, flagNV)
  | .inf a, .fin _ _ _ => (f.inf a, 0)
  | .fin _ _ _, .inf b => (f.inf b, 0)
  | .fin s1 m1 e1, .fin s2 m2 e2 =>
    let r := exactAdd (signedMag s1 m1) e1 (signedMag s2 m2) e2
    if r.1 = 0 then (f.zero (zeroSumNeg mode s1 s2), 0) else f.roundInt mode r.1 r.2

/-- The value with its sign changed. -/
def FVal.negate : FVal → FVal
  | .nan s => .nan s
  | .inf n => .inf (!n)
  | .fin n m e => .fin (!n) m e

/-- `vfadd` (R138). -/
def fAdd (f : FFmt) (mode : RMode) (x y : Nat) : Nat × Flags := addVal f mode (f.unpack x) (f.unpack y)

/-- `vfsub` (R138). -/
def fSub (f : FFmt) (mode : RMode) (x y : Nat) : Nat × Flags := addVal f mode (f.unpack x) (f.unpack y).negate

/-- The exact product, or none for 0·∞ (R138). -/
def mulVal (x y : FVal) : Option FVal :=
  match x, y with
  | .nan s, _ => some (.nan s)
  | _, .nan s => some (.nan s)
  | .inf a, .inf b => some (.inf (a != b))
  | .inf a, .fin s m _ => if m = 0 then none else some (.inf (a != s))
  | .fin s m _, .inf b => if m = 0 then none else some (.inf (s != b))
  | .fin s1 m1 e1, .fin s2 m2 e2 => some (.fin (s1 != s2) (m1 * m2) (e1 + e2))

/-- `vfmul` (R138). -/
def fMul (f : FFmt) (mode : RMode) (x y : Nat) : Nat × Flags :=
  let u := f.unpack x
  let v := f.unpack y
  if u.isNan || v.isNan then (f.nan, snanFlag [u, v]) else
  match mulVal u v with
  | some (.fin s m e) => f.round mode s m 1 e
  | some (.inf s) => (f.inf s, 0)
  | _ => (f.nan, flagNV)

/-- x·y + d with one rounding (R138); 0·∞ sets NV whatever d holds. -/
def fmaVal (f : FFmt) (mode : RMode) (u v d : FVal) : Nat × Flags :=
  if u.isNan || v.isNan then (f.nan, snanFlag [u, v, d]) else
  match mulVal u v with
  | none => (f.nan, flagNV)
  | some p => if d.isNan then (f.nan, snanFlag [d]) else addVal f mode p d

/-- `vfmacc` (R138). -/
def fMacc (f : FFmt) (mode : RMode) (x y d : Nat) : Nat × Flags :=
  fmaVal f mode (f.unpack x) (f.unpack y) (f.unpack d)

/-- `vfnmacc`: d - x·y (R138). -/
def fNmacc (f : FFmt) (mode : RMode) (x y d : Nat) : Nat × Flags :=
  fmaVal f mode (f.unpack x).negate (f.unpack y) (f.unpack d)

/-- `vfdiv` (R138). -/
def fDiv (f : FFmt) (mode : RMode) (x y : Nat) : Nat × Flags :=
  let u := f.unpack x
  let v := f.unpack y
  match u, v with
  | .nan _, _ => (f.nan, snanFlag [u, v])
  | _, .nan _ => (f.nan, snanFlag [u, v])
  | .inf _, .inf _ => (f.nan, flagNV)
  | .inf a, .fin s _ _ => (f.inf (a != s), 0)
  | .fin s _ _, .inf b => (f.zero (s != b), 0)
  | .fin s1 m1 e1, .fin s2 m2 e2 =>
    if m2 = 0 then (if m1 = 0 then (f.nan, flagNV) else (f.inf (s1 != s2), flagDZ))
    else f.round mode (s1 != s2) m1 m2 (e1 - e2)

/-- `vfsqrt` (R138): the root is taken with enough bits that its last bit lies below every rounding position, and a remainder sets that bit. -/
def fSqrt (f : FFmt) (mode : RMode) (x : Nat) : Nat × Flags :=
  match f.unpack x with
  | .nan s => (f.nan, if s then flagNV else 0)
  | .inf n => if n then (f.nan, flagNV) else (f.inf false, 0)
  | .fin n m e =>
    if m = 0 then (f.zero n, 0)
    else if n then (f.nan, flagNV)
    else
      let k : Nat := 2 * (f.fbits + 4)
      let e2 : Int := if e % 2 = 0 then e else e - 1
      let m2 : Nat := (if e % 2 = 0 then m else 2 * m) <<< k
      let r := natSqrt m2
      let sticky := if r * r = m2 then 0 else 1
      f.round mode false (2 * r + sticky) 1 ((e2 - k) / 2 - 1)

/-- x < y as numbers; infinities are beyond every finite value. Neither is a NaN. -/
def ltVal (x y : FVal) : Bool :=
  match x, y with
  | .inf a, .inf b => a && !b
  | .inf a, _ => a
  | _, .inf b => !b
  | .fin s1 m1 e1, .fin s2 m2 e2 => decide ((exactAdd (signedMag s1 m1) e1 (-(signedMag s2 m2)) e2).1 < 0)
  | _, _ => false

/-- x = y as numbers: -0 equals +0. Neither is a NaN. -/
def eqVal (x y : FVal) : Bool :=
  match x, y with
  | .inf a, .inf b => a == b
  | .fin s1 m1 e1, .fin s2 m2 e2 => decide ((exactAdd (signedMag s1 m1) e1 (-(signedMag s2 m2)) e2).1 = 0)
  | _, _ => false

/-- `vmfeq` (R142): NV only for a signalling NaN. -/
def fEq (f : FFmt) (x y : Nat) : Bool × Flags :=
  let u := f.unpack x
  let v := f.unpack y
  if u.isNan || v.isNan then (false, snanFlag [u, v]) else (eqVal u v, 0)

/-- `vmflt` (R142): NV for any NaN. -/
def fLt (f : FFmt) (x y : Nat) : Bool × Flags :=
  let u := f.unpack x
  let v := f.unpack y
  if u.isNan || v.isNan then (false, flagNV) else (ltVal u v, 0)

/-- `vmfle` (R142): NV for any NaN. -/
def fLe (f : FFmt) (x y : Nat) : Bool × Flags :=
  let u := f.unpack x
  let v := f.unpack y
  if u.isNan || v.isNan then (false, flagNV) else (ltVal u v || eqVal u v, 0)

/-- x below y in the order of `vfmin` and `vfmax`, where -0 is below +0 (R139). -/
def belowVal (x y : FVal) : Bool := ltVal x y || (x.isZero && y.isZero && x.isNeg && !y.isNeg)

/-- `vfmin` and `vfmax` (R139). -/
def fMinMax (f : FFmt) (isMax : Bool) (x y : Nat) : Nat × Flags :=
  let u := f.unpack x
  let v := f.unpack y
  let fl := snanFlag [u, v]
  if u.isNan && v.isNan then (f.nan, fl)
  else if u.isNan then (y, fl)
  else if v.isNan then (x, fl)
  else if isMax then (if belowVal u v then y else x, 0)
  else (if belowVal v u then y else x, 0)

/-- `vfsgnj` and `vfsgnjn` (R138): the sign of y, or its complement, over the magnitude of x. -/
def fSgnj (n : Nat) (invert : Bool) (x y : Nat) : Nat :=
  x % 2 ^ (n - 1) + (if bitOf y (n - 1) != invert then 2 ^ (n - 1) else 0)

/-- True when a finite value has no fractional part. -/
def isIntegral (m : Nat) (e : Int) : Bool := if 0 ≤ e then true else m % 2 ^ (-e).toNat == 0

/-- The class word of `vfclass` (R140). -/
def fClass (f : FFmt) (x : Nat) : Nat :=
  let neg := if bitOf x (f.ebits + f.fbits) then 0x80 else 0
  let mag := x % 2 ^ (f.ebits + f.fbits)
  match f.unpack x with
  | .nan s => neg + (if s then 6 else 5)
  | .inf _ => neg + 4
  | .fin _ m e =>
    let cls := if m = 0 then 1 else if mag < 2 ^ f.fbits then 2 else 3
    neg + (if isIntegral m e then 0x40 else 0) + (if mag = f.maxFinite false then 0x20 else 0) + cls

/-- A float to an integer in a mode, between `lo` and `hi` (R150). -/
def fToInt (f : FFmt) (mode : RMode) (lo hi : Int) (x : Nat) : Int × Flags :=
  match f.unpack x with
  | .nan _ => (hi, flagNV)
  | .inf n => if n then (lo, flagNV) else (hi, flagNV)
  | .fin n m e =>
    let r := roundAt mode n m 1 e 0
    let v := signedMag n r.1
    if hi < v then (hi, flagNV) else if v < lo then (lo, flagNV) else (v, if r.2 then flagNX else 0)

/-- Is every value of one float format a value of another? -/
def FFmt.fits (src dst : FFmt) : Bool := decide (src.ebits ≤ dst.ebits) && decide (src.fbits ≤ dst.fbits)

/-- A float of one format as a float of another, rounded once (R149, R290). A widening is exact, so its zero keeps its sign; a zero that is
rounded is +0 whatever its sign was, for no rule of the conversions gives one (R96). -/
def fToF (src dst : FFmt) (mode : RMode) (x : Nat) : Nat × Flags :=
  match src.unpack x with
  | .nan s => (dst.nan, if s then flagNV else 0)
  | .inf n => (dst.inf n, 0)
  | .fin n m e => if m = 0 && !src.fits dst then (0, 0) else dst.round mode n m 1 e

/-- The float format of a vector element of width `n` (R137). -/
def fmtOfWidth (n : Nat) : FFmt := if n = 16 then fmtBF16 else if n = 32 then fmtF32 else fmtF64

end Sys2Proof.Machine
end

