-- ==== Sys2Proof/Machine/Billet.lean ====
section
/-!
DEFINITION. Billets, format records, the window and the quench (R97 to R119).
A billet element decodes to a grid integer q and an exponent X. A window element is a 144-bit integer with a poison bit.
-/

namespace Sys2Proof.Machine

open Sys2Proof

/-- The format code of a pointer (R97). -/
def ptrCode (p : Word) : Nat := fieldOf p 59 5
/-- The block-length code of a pointer (R97). -/
def ptrBlc (p : Word) : Nat := fieldOf p 56 3
/-- The address of a pointer (R97). -/
def ptrAddr (p : Word) : Nat := fieldOf p 0 56
/-- The elements per billet of a block-length code (R97). -/
def blenOf (blc : Nat) : Nat := 16 * 2 ^ blc

/-- A format record's four doublewords, as read (R98). -/
structure FmtRecord where
  dw0 : Word
  dw1 : Word
  dw2 : Word
  dw3 : Word
deriving DecidableEq, Repr

/-- The families a valid record names (R98). -/
inductive Family where
  | dense
  | billet8
  | billet4
deriving DecidableEq, Repr

/-- LGX: the level grid exponent, signed (R98). -/
def FmtRecord.lgx (r : FmtRecord) : Int := signExt (fieldOf r.dw0 16 8) 8
/-- MASK: the selector-enable mask (R98). -/
def FmtRecord.mask (r : FmtRecord) : Nat := fieldOf r.dw0 12 4
/-- ETYPE: the dense element type code (R98). -/
def FmtRecord.etype (r : FmtRecord) : Nat := fieldOf r.dw0 8 4
/-- LTAB: the level-table address, 0 for none (R98). -/
def FmtRecord.ltab (r : FmtRecord) : Nat := fieldOf r.dw1 0 56

/-- The reserved bits of a record are zero (R98). -/
def FmtRecord.reservedZero (r : FmtRecord) : Bool :=
  fieldOf r.dw0 24 40 == 0 && fieldOf r.dw0 2 6 == 0 && fieldOf r.dw1 56 8 == 0 && r.dw2 == 0 && r.dw3 == 0

/-- The family of a valid record, none for an invalid one (R99). -/
def FmtRecord.family (r : FmtRecord) : Option Family :=
  if !r.reservedZero then none else
  let billetOk (align : Nat) : Bool :=
    decide (8 ≤ r.etype) && decide (r.etype ≤ 10) && r.mask != 0 &&
      (!bitOf r.mask 3 || (r.ltab != 0 && r.ltab % align == 0))
  match fieldOf r.dw0 0 2 with
  | 0 => if r.etype ≤ 11 && r.mask == 0 && fieldOf r.dw0 16 8 == 0 && r.ltab == 0 then some .dense else none
  | 1 => if billetOk 512 then some .billet8 else none
  | 2 => if billetOk 32 then some .billet4 else none
  | _ => none

/-- The bits of one element code of a family: 8 or 4 (R107, R110). -/
def Family.codeBits : Family → Nat
  | .billet4 => 4
  | _ => 8

/-- P: the payload bytes of a billet of `blen` elements (R112). -/
def Family.payload (f : Family) (blen : Nat) : Nat := blen * f.codeBits / 8

/-- The storage address of logical payload byte `l` (R113); `p` is the billet's payload size. -/
def storeOf (p l : Nat) : Nat := l / (32 * p) * (32 * p + 64) + 64 + l % (32 * p)

/-- The storage address of the header of the billet that holds logical byte `l` (R113). -/
def headerOf (p l : Nat) : Nat := l / (32 * p) * (32 * p + 64) + 2 * (l % (32 * p) / p)

/-- The selector of a header whose (SEL, CHK) pair is a codeword and whose reserved bits are zero (R103, R104). -/
def headerSel (h : Nat) : Option Nat :=
  if bitsOf h 13 3 ≠ 0 then none else
  match bitsOf h 8 2, bitsOf h 10 3 with
  | 0, 0 => some 0
  | 1, 3 => some 1
  | 2, 5 => some 2
  | 3, 6 => some 3
  | _, _ => none

/-- The header of a selector and a scale exponent (R104). -/
def headerWord (sel s : Nat) : Nat :=
  (match sel with
    | 0 => 0x0000
    | 1 => 0x0D00
    | 2 => 0x1600
    | _ => 0x1B00) + s % 256

/-- A header is a selector corruption under the record (R105). -/
def headerCorrupt (h : Nat) (rec : FmtRecord) : Bool :=
  match headerSel h with
  | none => true
  | some s => s == 3 && rec.ltab == 0

/-- GridExp(s, rec) of R107 and R110. -/
def gridExp (fam : Family) (s : Nat) (rec : FmtRecord) : Int :=
  match fam, s with
  | .billet4, 0 => 0
  | .billet4, 1 => -1
  | .billet4, 2 => -3
  | _, 0 => 0
  | _, 1 => -9
  | _, 2 => -11
  | _, _ => rec.lgx

/-- The magnitude of an F8 code (R108). -/
def f8Mag (c : Nat) : Nat :=
  let e := bitsOf c 3 4
  let m := bitsOf c 0 3
  if e = 0 then m else (8 + m) * 2 ^ (e - 1)

/-- The magnitude of an M8 code (R109). -/
def m8Mag (c : Nat) : Nat :=
  let c7 := c % 128
  if c7 = 0 then 0 else
  let k := leadingZeros 7 c7
  if k = 6 then 1 else
  let r := 6 - k
  let e := bitsOf c7 (r - 1) 1
  let w := r - 1
  let f := bitsOf c7 0 w
  2 ^ (11 + e - 2 * k) * (2 ^ w + f) / 2 ^ w

/-- The magnitude of an F4 code (R110). -/
def f4Mag (c : Nat) : Nat :=
  let e := bitsOf c 1 2
  let m := bitsOf c 0 1
  if e = 0 then m else (2 + m) * 2 ^ (e - 1)

/-- The magnitude of an M4 code (R110). -/
def m4Mag (c : Nat) : Nat :=
  match c % 8 with
  | 0 => 0
  | 1 => 1
  | 2 => 2
  | 3 => 4
  | 4 => 8
  | 5 => 12
  | 6 => 16
  | _ => 24

/-- A level-table entry, 0 past the end of the list (R100). -/
def levelAt (table : List Int) (j : Nat) : Int := table.getD j 0

/-- GridValue(s, c, rec) of R107 to R110; `table` is the level table. -/
def gridValue (fam : Family) (s c : Nat) (table : List Int) : Int :=
  match fam, s with
  | .billet4, 0 => signExt c 4
  | .billet4, 1 => signedMag (bitOf c 3) (f4Mag c)
  | .billet4, 2 => signedMag (bitOf c 3) (m4Mag c)
  | _, 0 => signExt c 8
  | _, 1 => signedMag (bitOf c 7) (f8Mag c)
  | _, 2 => signedMag (bitOf c 7) (m8Mag c)
  | _, _ => levelAt table c

/-- Decode(h, c, rec) of R106: the grid integer and its exponent, or none for poison. -/
def billetDecode (fam : Family) (h c : Nat) (rec : FmtRecord) (table : List Int) : Option (Int × Int) :=
  match headerSel h with
  | none => none
  | some s =>
    if s = 3 && rec.ltab = 0 then none
    else if h % 256 = 255 then none
    else some (gridValue fam s c table, (h % 256 : Nat) - (127 : Int) + gridExp fam s rec)

/-- A decoded element as `vbdec` and `vldb` write it at width 32 (R151): F32 with flags, NaN for poison. -/
def decodedF32 (mode : RMode) (r : Option (Int × Int)) : Nat × Flags :=
  match r with
  | none => (fmtF32.nan, 0)
  | some (q, x) => fmtF32.roundInt mode q x

/-- A decoded element in grid form (R151). -/
def decodedGrid (r : Option (Int × Int)) : Nat :=
  match r with
  | none => 2 ^ 63
  | some (q, x) => wrapInt x 16 * 2 ^ 32 + wrapInt q 32

/-- A window element: a 144-bit integer and a poison bit (R114). -/
structure WinElem where
  a : BitVec 144
  poison : Bool
deriving DecidableEq, Repr

/-- The zero window element. -/
def WinElem.zero : WinElem := { a := 0, poison := false }

/-- The 32-byte memory image of a window element (R114). -/
def WinElem.image (w : WinElem) : List Byte :=
  bytesLE 18 w.a.toNat ++ [if w.poison then 1 else 0] ++ List.replicate 13 0

/-- The window element of a 32-byte image; bits the image leaves zero are not looked at (R114). -/
def winOfImage (bs : List Byte) : WinElem :=
  { a := BitVec.ofNat 144 (fromBytesLE (bs.take 18)), poison := (bs.getD 18 0).getLsbD 0 }

/-- ⌊p * 2^k⌋ (R115). -/
def floorScale (p : Int) (k : Int) : Int := if 0 ≤ k then p * (2 : Int) ^ k.toNat else p / (2 : Int) ^ (-k).toNat

/-- WindowAdd of R115. (DEDUCED, log 84) -/
def windowAdd (w : WinElem) (c : Int) (cpoison : Bool) : WinElem :=
  { a := w.a + BitVec.ofInt 144 c, poison := w.poison || cpoison }

/-- Contribution of R115 for the sum `p` of products at exponent `x`, under window base `base`. -/
def contribution (p : Int) (x base : Int) : Int := floorScale p (x - base)

/-- A[143:128] are 16 copies of A[127]: no window overflow (R116). -/
def windowFits (a : BitVec 144) : Bool :=
  let t := fieldOf a 127 17
  t == 0 || t == 2 ^ 17 - 1

/-- WindowOut of R116. -/
def windowOut (f : FFmt) (mode : RMode) (w : WinElem) (base : Int) : Nat × Flags :=
  if w.poison then (f.nan, 0)
  else if !windowFits w.a then (f.nan, flagWOVF)
  else f.roundInt mode w.a.toInt base

/-- An input of the quench (R118): an exact value n * 2^e, a bad value, or a window overflow. -/
inductive QIn where
  | val (n : Int) (e : Int)
  | bad
  | overflow
deriving DecidableEq, Repr

/-- A float as a quench input (R118). -/
def qinOfFloat (f : FFmt) (x : Nat) : QIn :=
  match f.unpack x with
  | .fin s m e => .val (signedMag s m) e
  | _ => .bad

/-- A window element as a quench input (R116, R118). -/
def qinOfWindow (w : WinElem) (base : Int) : QIn :=
  if w.poison then .bad else if !windowFits w.a then .overflow else .val w.a.toInt base

/-- Qmax of a selector (R111). -/
def qMax (fam : Family) (s : Nat) (table : List Int) : Nat :=
  match fam, s with
  | .billet4, 0 => 7
  | .billet4, 1 => 12
  | .billet4, 2 => 24
  | _, 0 => 127
  | _, 1 => 245760
  | _, 2 => 8064
  | _, _ => table.foldl (fun m t => Nat.max m t.natAbs) 0

/-- The magnitude of a magnitude code in the I, F and M encodings (R107 to R110). -/
def magOf (fam : Family) (s c : Nat) : Nat :=
  match fam, s with
  | .billet4, 1 => f4Mag c
  | .billet4, 2 => m4Mag c
  | .billet8, 1 => f8Mag c
  | .billet8, 2 => m8Mag c
  | _, _ => c

/-- One turn of the search for the nearest magnitude code: `y` is the target in grid units times `step`.
A smaller distance wins, and of two equal ones the even code (R119). -/
def betterCode (fam : Family) (s step y : Nat) (best c : Nat) : Nat :=
  let dist (k : Nat) : Nat := (((magOf fam s k * step : Nat) : Int) - (y : Int)).natAbs
  if dist c < dist best then c
  else if dist c = dist best && c % 2 = 0 && best % 2 = 1 then c
  else best

/-- The largest magnitude code of an I, F or M encoding (R111). -/
def topCode : Family → Nat
  | .billet4 => 7
  | _ => 127

/-- The code of a sign and a magnitude code; a zero has sign 0 (R119). -/
def signedCode (fam : Family) (s : Nat) (neg : Bool) (c : Nat) : Nat :=
  let n := 2 ^ fam.codeBits
  if c = 0 then 0 else if !neg then c else if s = 0 then n - c else n / 2 + c

/-- Nearest(y, s) for the I, F and M encodings (R119): `y` in units of which the grid step has `step`. -/
def nearestMag (fam : Family) (s step : Nat) (y : Int) : Nat :=
  signedCode fam s (decide (y < 0)) ((List.range (topCode fam + 1)).foldl (betterCode fam s step y.natAbs) 0)

/-- One turn of the search for the nearest level entry; of two equal ones the lower index (R119). -/
def betterLevel (table : List Int) (step : Nat) (y : Int) (best j : Nat) : Nat :=
  let dist (k : Nat) : Nat := (levelAt table k * step - y).natAbs
  if dist j < dist best then j else best

/-- Nearest(y, s) of R119. -/
def nearestCode (fam : Family) (s step : Nat) (y : Int) (table : List Int) : Nat :=
  if s = 3 then (List.range table.length).foldl (betterLevel table step y) 0
  else nearestMag fam s step y

/-- ZeroCode(s) of R119. -/
def zeroCode (s : Nat) (table : List Int) : Nat :=
  if s = 3 then (List.range table.length).foldl (betterLevel table 1 0) 0 else 0

/-- The value of one quench input in units of 2^unit; only exact values come here. -/
def qinUnits (unit : Int) : QIn → Int
  | .val n e => n * (2 : Int) ^ (e - unit).toNat
  | _ => 0

/-- The exponent of a quench input. -/
def qinExp : QIn → Int
  | .val n e => if n = 0 then 0 else e
  | _ => 0

/-- One selector's candidate of the quench: its scale, codes and exact squared error in units of 2^(2*unit) (R118). -/
structure QCand where
  s : Nat
  scale : Nat
  codes : List Nat
  err : Nat
deriving DecidableEq, Repr

/-- The candidate of selector `s` (R118). -/
def quenchCand (fam : Family) (rec : FmtRecord) (table : List Int) (unit : Int) (xs : List Int) (s : Nat) : QCand :=
  let m := xs.foldl (fun a x => Nat.max a x.natAbs) 0
  let g := gridExp fam s rec
  let step (sc : Nat) : Nat := 2 ^ ((sc : Int) - 127 + g - unit).toNat
  let scale := ((List.range 255).find? (fun sc => decide (m ≤ step sc * qMax fam s table))).getD 254
  let codes := xs.map (fun x => nearestCode fam s (step scale) x table)
  let errs := (xs.zip codes).map (fun p => (p.1 - gridValue fam s p.2 table * (step scale : Int)).natAbs)
  { s := s, scale := scale, codes := codes, err := errs.foldl (fun a d => a + d * d) 0 }

/-- The quench of R118: the header, the element codes and whether WOVF is set. `cands` rises. -/
def quench (fam : Family) (rec : FmtRecord) (table : List Int) (cands : List Nat) (xs : List QIn) : Nat × List Nat × Flags :=
  let least := cands.headD 0
  let ovf := xs.any (fun x => x == .overflow)
  if ovf || xs.any (fun x => x == .bad) then
    (headerWord least 255, xs.map (fun _ => 0), if ovf then flagWOVF else 0)
  else if xs.all (fun x => qinUnits 0 (match x with | .val n _ => .val n 0 | y => y) == 0) then
    (headerWord least 0, xs.map (fun _ => zeroCode least table), 0)
  else
    let unit := (xs.map qinExp).foldl minInt ((cands.map (fun s => gridExp fam s rec - 127)).foldl minInt 0)
    let ys := xs.map (qinUnits unit)
    let best := cands.foldl (fun (b : Option QCand) s =>
      let c := quenchCand fam rec table unit ys s
      match b with
      | none => some c
      | some o => if c.err < o.err then some c else some o) none
    match best with
    | none => (headerWord least 0, xs.map (fun _ => 0), 0)
    | some c => (headerWord c.s c.scale, c.codes, 0)

/-- The selectors a MASK enables, rising (R98). -/
def maskSels (mask : Nat) : List Nat := (List.range 4).filter (fun s => bitOf mask s)

/-- The payload bytes of element codes (R107, R110). -/
def packCodes (fam : Family) (codes : List Nat) : List Byte :=
  bytesLE (codes.length * fam.codeBits / 8) (joinChunks fam.codeBits codes)

/-- The address of a level-table entry (R100). -/
def levelAddr (rec : FmtRecord) (c : Nat) : Nat := (rec.ltab + 2 * c) % 2 ^ 56

/-- The codes of a level table that a quench over some candidates reads: all, where a level billet is among them (R118, R162). -/
def quenchCodes (fam : Family) (cands : List Nat) : List Nat := if cands.contains 3 then List.range (2 ^ fam.codeBits) else []

/-- Does a billet with this header decode through the level table (R106)? One with S = 255 is poison whatever its codes. -/
def usesLevels (rec : FmtRecord) (h : Nat) : Bool := headerSel h == some 3 && rec.ltab != 0 && h % 256 != 255

end Sys2Proof.Machine
end

