-- ==== Sys2Proof/Syntax.lean ====
section
/-!
DEFINITION. The instructions.
`Instr` has one constructor for every row of the opcode table: 272 rows with an encoding (R54 to R69) and 138 event rows.
An event row has no word: an agent of the device (an engine, a walker, a router, the service processor, the host) performs it.
-/

namespace Sys2Proof

/-- The scopes of fences, atomics and maintenance operations (R67). -/
inductive Scope where
  | core
  | cluster
  | die
  | package
  | system
deriving DecidableEq, Repr

/-- The ordering of an `amo` (R66). -/
inductive Order where
  | none
  | acq
  | rel
  | ar
deriving DecidableEq, Repr

/-- The operand form of a vector instruction (R68). -/
inductive Kind where
  | vv
  | vx
  | vi
deriving DecidableEq, Repr

/-- The rounding code of a conversion (R68). -/
inductive VRound where
  | frm
  | rne
  | rtz
  | rdn
  | rup
deriving DecidableEq, Repr

/-- The selector choice of `vqst` (R155). -/
inductive QSel where
  | mask
  | forceI
  | forceF
  | forceM
  | forceL
deriving DecidableEq, Repr


/-- The instructions: one constructor for every row of the opcode table.
The rows with an encoding carry the fields of their word.
The event rows carry what the agent that performs them brings along. -/
inductive Instr where
  /-- ADD (R71): Adds two general registers at 64 bits. -/
  | add (d a b : Reg)
  /-- SLL (R71): Shifts left by a register count at 64 bits. -/
  | sll (d a b : Reg)
  /-- SLT (R71): Writes 1 when the first register is less than the second, signed. -/
  | slt (d a b : Reg)
  /-- SLTN (R71): Writes 1 when the first register is less than the second, unsigned. -/
  | sltn (d a b : Reg)
  /-- XOR (R71): Bitwise exclusive or at 64 bits. -/
  | xor (d a b : Reg)
  /-- SRL (R71): Logical right shift at 64 bits. -/
  | srl (d a b : Reg)
  /-- OR (R71): Bitwise or at 64 bits. -/
  | or (d a b : Reg)
  /-- AND (R71): Bitwise and at 64 bits. -/
  | and (d a b : Reg)
  /-- SUB (R71): Subtracts two general registers at 64 bits. -/
  | sub (d a b : Reg)
  /-- MIN (R71): Signed minimum at 64 bits. -/
  | min (d a b : Reg)
  /-- MAX (R71): Signed maximum at 64 bits. -/
  | max (d a b : Reg)
  /-- MINN (R71): Unsigned minimum at 64 bits. -/
  | minn (d a b : Reg)
  /-- MAXN (R71): Unsigned maximum at 64 bits. -/
  | maxn (d a b : Reg)
  /-- SRA (R71): Arithmetic right shift at 64 bits. -/
  | sra (d a b : Reg)
  /-- MUL (R71): Low 64 bits of a product. -/
  | mul (d a b : Reg)
  /-- MULH (R71): High half of a signed product. -/
  | mulh (d a b : Reg)
  /-- MULHN (R71): High half of an unsigned product. -/
  | mulhn (d a b : Reg)
  /-- DIV (R72): Signed division toward zero with defined corner results. -/
  | div (d a b : Reg)
  /-- DIVN (R72): Unsigned division with defined corner results. -/
  | divn (d a b : Reg)
  /-- REM (R72): Signed remainder. -/
  | rem (d a b : Reg)
  /-- REMN (R72): Unsigned remainder. -/
  | remn (d a b : Reg)
  /-- CLZ (R71): Counts leading zero bits. -/
  | clz (d a : Reg)
  /-- CTZ (R71): Counts trailing zero bits. -/
  | ctz (d a : Reg)
  /-- CPOP (R71): Counts one bits. -/
  | cpop (d a : Reg)
  /-- ADD_W (R71): Adds at 32 bits and sign-extends. -/
  | addW (d a b : Reg)
  /-- SLL_W (R71): Left shift at 32 bits. -/
  | sllW (d a b : Reg)
  /-- SLT_W (R71): Signed compare of the low 32 bits. -/
  | sltW (d a b : Reg)
  /-- SLTN_W (R71): Unsigned compare of the low 32 bits. -/
  | sltnW (d a b : Reg)
  /-- XOR_W (R71): Exclusive or at 32 bits, sign-extended. -/
  | xorW (d a b : Reg)
  /-- SRL_W (R71): Logical right shift at 32 bits. -/
  | srlW (d a b : Reg)
  /-- OR_W (R71): Or at 32 bits, sign-extended. -/
  | orW (d a b : Reg)
  /-- AND_W (R71): And at 32 bits, sign-extended. -/
  | andW (d a b : Reg)
  /-- SUB_W (R71): Subtracts at 32 bits and sign-extends. -/
  | subW (d a b : Reg)
  /-- MIN_W (R71): Signed minimum at 32 bits. -/
  | minW (d a b : Reg)
  /-- MAX_W (R71): Signed maximum at 32 bits. -/
  | maxW (d a b : Reg)
  /-- MINN_W (R71): Unsigned minimum at 32 bits. -/
  | minnW (d a b : Reg)
  /-- MAXN_W (R71): Unsigned maximum at 32 bits. -/
  | maxnW (d a b : Reg)
  /-- SRA_W (R71): Arithmetic right shift at 32 bits. -/
  | sraW (d a b : Reg)
  /-- MUL_W (R71): Product at 32 bits, sign-extended. -/
  | mulW (d a b : Reg)
  /-- MULH_W (R71): High half of a signed 32-bit product. -/
  | mulhW (d a b : Reg)
  /-- MULHN_W (R71): High half of an unsigned 32-bit product. -/
  | mulhnW (d a b : Reg)
  /-- DIV_W (R72): Signed division at 32 bits. -/
  | divW (d a b : Reg)
  /-- DIVN_W (R72): Unsigned division at 32 bits. -/
  | divnW (d a b : Reg)
  /-- REM_W (R72): Signed remainder at 32 bits. -/
  | remW (d a b : Reg)
  /-- REMN_W (R72): Unsigned remainder at 32 bits. -/
  | remnW (d a b : Reg)
  /-- CLZ_W (R71): Leading zeros of the low 32 bits. -/
  | clzW (d a : Reg)
  /-- CTZ_W (R71): Trailing zeros of the low 32 bits. -/
  | ctzW (d a : Reg)
  /-- CPOP_W (R71): One bits of the low 32 bits. -/
  | cpopW (d a : Reg)
  /-- ADDI (R73): Adds a sign-extended 12-bit immediate. -/
  | addi (d a : Reg) (i : BitVec 12)
  /-- SLLI (R73): Left shift by an immediate count. -/
  | slli (d a : Reg) (c : BitVec 6)
  /-- SLTI (R73): Signed compare with an immediate. -/
  | slti (d a : Reg) (i : BitVec 12)
  /-- SLTNI (R73): Unsigned compare with a sign-extended immediate. -/
  | sltni (d a : Reg) (i : BitVec 12)
  /-- XORI (R73): Exclusive or with an immediate. -/
  | xori (d a : Reg) (i : BitVec 12)
  /-- SRLI (R73): Logical right shift by an immediate count. -/
  | srli (d a : Reg) (c : BitVec 6)
  /-- SRAI (R73): Arithmetic right shift by an immediate count. -/
  | srai (d a : Reg) (c : BitVec 6)
  /-- ORI (R73): Or with an immediate. -/
  | ori (d a : Reg) (i : BitVec 12)
  /-- ANDI (R73): And with an immediate. -/
  | andi (d a : Reg) (i : BitVec 12)
  /-- LDHI (R74): Loads a sign-extended 20-bit immediate shifted by 12. -/
  | ldhi (d : Reg) (i : BitVec 20)
  /-- PCADD (R74): Adds a shifted immediate to the PC into a plain pointer. -/
  | pcadd (d : Reg) (i : BitVec 20)
  /-- LDB (R75): Loads a sign-extended byte. -/
  | ldb (d a : Reg) (i : BitVec 12)
  /-- LDH (R75): Loads a sign-extended halfword. -/
  | ldh (d a : Reg) (i : BitVec 12)
  /-- LDW (R75): Loads a sign-extended word. -/
  | ldw (d a : Reg) (i : BitVec 12)
  /-- LDD (R75): Loads a doubleword. -/
  | ldd (d a : Reg) (i : BitVec 12)
  /-- LDBN (R75): Loads a zero-extended byte. -/
  | ldbn (d a : Reg) (i : BitVec 12)
  /-- LDHN (R75): Loads a zero-extended halfword. -/
  | ldhn (d a : Reg) (i : BitVec 12)
  /-- LDWN (R75): Loads a zero-extended word. -/
  | ldwn (d a : Reg) (i : BitVec 12)
  /-- STB (R75): Stores a byte. -/
  | stb (b a : Reg) (i : BitVec 12)
  /-- STH (R75): Stores a halfword. -/
  | sth (b a : Reg) (i : BitVec 12)
  /-- STW (R75): Stores a word. -/
  | stw (b a : Reg) (i : BitVec 12)
  /-- STD (R75): Stores a doubleword. -/
  | std (b a : Reg) (i : BitVec 12)
  /-- BEQ (R79): Branches when two registers are equal. -/
  | beq (a b : Reg) (o : BitVec 12)
  /-- BNE (R79): Branches when two registers differ. -/
  | bne (a b : Reg) (o : BitVec 12)
  /-- BLT (R79): Branches on signed less than. -/
  | blt (a b : Reg) (o : BitVec 12)
  /-- BGE (R79): Branches on signed greater or equal. -/
  | bge (a b : Reg) (o : BitVec 12)
  /-- BLTN (R79): Branches on unsigned less than. -/
  | bltn (a b : Reg) (o : BitVec 12)
  /-- BGEN (R79): Branches on unsigned greater or equal. -/
  | bgen (a b : Reg) (o : BitVec 12)
  /-- JAL (R80): Jumps PC-relative and writes the link. -/
  | jal (d : Reg) (o : BitVec 20)
  /-- JALR (R80): Jumps to a register plus offset and writes the link. -/
  | jalr (d a : Reg) (i : BitVec 12)
  /-- PADD (R81): Adds to a fat pointer's address, keeping its tags, with a range check. -/
  | padd (d a b : Reg)
  /-- PADDI (R81): Adds an immediate to a fat pointer's address. -/
  | paddi (d a : Reg) (i : BitVec 12)
  /-- PTAG (R81): Sets a pointer's tag byte from an immediate. -/
  | ptag (d a : Reg) (t : BitVec 8)
  /-- PSET (R81): Copies the tag byte of one pointer onto another's address. -/
  | pset (d a b : Reg)
  /-- PCHK (R82): Returns the domain's rights over an address range. -/
  | pchk (d a b : Reg)
  /-- OXSET (R83): Writes an operand-extension register from a general register. -/
  | oxset (d : OxReg) (a : Reg)
  /-- OXGET (R83): Reads an operand-extension register into a general register. -/
  | oxget (d : Reg) (a : OxReg)
  /-- OXLD (R83): Loads an operand-extension register from memory. -/
  | oxld (d : OxReg) (a : Reg) (i : BitVec 12)
  /-- SRD (R84): Reads a system register. -/
  | srd (d : Reg) (n : BitVec 12)
  /-- SWR (R84): Writes a system register, with its side effects such as invalidating the record cache. -/
  | swr (a : Reg) (n : BitVec 12)
  /-- TRAP (R86): Raises the trap instruction trap with the immediate. -/
  | trap (i : BitVec 12)
  /-- FENCE_ACQ (R89): Acquire fence at a scope. -/
  | fenceAcq (s : Scope)
  /-- FENCE_REL (R89): Release fence at a scope, writing back words homed beyond it. -/
  | fenceRel (s : Scope)
  /-- FENCE_AR (R89): Acquire and release fence at a scope. -/
  | fenceAr (s : Scope)
  /-- FENCE_FMT (R90): Orders stores to format records before later record reads. -/
  | fenceFmt
  /-- FENCE_I (R90): Orders the core's stores before its later instruction fetches. -/
  | fenceI
  /-- TINVAL (R91): Removes cached translations of a page within a scope. -/
  | tinval (s : Scope) (a : Reg)
  /-- PURGE (R91): Writes back or discards every copy of a page within a scope. -/
  | purge (s : Scope) (discard : Bool) (a : Reg)
  /-- ICINV (R91): Invalidates a page in instruction caches within a scope. -/
  | icinv (s : Scope) (a : Reg)
  /-- ERET (R45): Returns from a trap handler. -/
  | eret
  /-- HALT (R87): Stops issue in every context of the core and reports. -/
  | halt
  /-- YIELD (R88): When armed, saves the tile task for a partition switch. -/
  | yield
  /-- AMO_ADD (R237): Atomic add at the home. -/
  | amoAdd (w : Bool) (o : Order) (s : Scope) (d a b : Reg)
  /-- AMO_MIN (R237): Atomic signed minimum. -/
  | amoMin (w : Bool) (o : Order) (s : Scope) (d a b : Reg)
  /-- AMO_MAX (R237): Atomic signed maximum. -/
  | amoMax (w : Bool) (o : Order) (s : Scope) (d a b : Reg)
  /-- AMO_MINN (R237): Atomic unsigned minimum. -/
  | amoMinn (w : Bool) (o : Order) (s : Scope) (d a b : Reg)
  /-- AMO_MAXN (R237): Atomic unsigned maximum. -/
  | amoMaxn (w : Bool) (o : Order) (s : Scope) (d a b : Reg)
  /-- AMO_AND (R237): Atomic and. -/
  | amoAnd (w : Bool) (o : Order) (s : Scope) (d a b : Reg)
  /-- AMO_OR (R237): Atomic or. -/
  | amoOr (w : Bool) (o : Order) (s : Scope) (d a b : Reg)
  /-- AMO_XOR (R237): Atomic exclusive or. -/
  | amoXor (w : Bool) (o : Order) (s : Scope) (d a b : Reg)
  /-- AMO_SWAP (R237): Atomic swap. -/
  | amoSwap (w : Bool) (o : Order) (s : Scope) (d a b : Reg)
  /-- AMO_CAS (R237): Atomic compare and swap against ox0. -/
  | amoCas (w : Bool) (o : Order) (s : Scope) (d a b : Reg)
  /-- AMOUPD_ADD (R238): Update-only add, possibly held as a partial. -/
  | amoupdAdd (w : Bool) (a b : Reg)
  /-- AMOUPD_MIN (R238): Update-only signed minimum. -/
  | amoupdMin (w : Bool) (a b : Reg)
  /-- AMOUPD_MAX (R238): Update-only signed maximum. -/
  | amoupdMax (w : Bool) (a b : Reg)
  /-- AMOUPD_AND (R238): Update-only and. -/
  | amoupdAnd (w : Bool) (a b : Reg)
  /-- AMOUPD_OR (R238): Update-only or. -/
  | amoupdOr (w : Bool) (a b : Reg)
  /-- AMOUPD_XOR (R238): Update-only exclusive or. -/
  | amoupdXor (w : Bool) (a b : Reg)
  /-- STV (R239): Releases, stores a doubleword and increments the line's version, waking satisfied waiters. -/
  | stv (s : Scope) (a b : Reg)
  /-- LDV (R239): Waits until a line's version reaches a value, then loads and acquires. -/
  | ldv (s : Scope) (d a b : Reg)
  /-- VERS (R239): Reads a line's version. -/
  | vers (d a : Reg)
  /-- RECLAIM (R239): Sets a line's version to zero. -/
  | reclaim (a : Reg)
  /-- WAITT (R265): Waiting load of an event-unit word with an absolute time limit. -/
  | waitt (d a b : Reg)
  /-- SIGWAIT (R266): Waits until a signal object falls to a threshold, then acquires. -/
  | sigwait (d a b : Reg)
  /-- SIGDEC (R267): Releases and decrements a signal object at its home, answering met monitors. -/
  | sigdec (a b : Reg)
  /-- HSTART (R40): Starts a helper in the lowest free slot. -/
  | hstart (d a b : Reg)
  /-- HEXIT (R41): Makes the executing helper exited with a value. -/
  | hexit (a : Reg)
  /-- HJOIN (R41): Waits for a helper to exit and takes its value. -/
  | hjoin (d : Reg) (n : BitVec 12)
  /-- TNEXT (R346): Asks the dispenser for the next tile and waits for the answer. -/
  | tnext (d : Reg)
  /-- TDONE (R347): Releases and closes the open tile, or with token 0 ends the task. -/
  | tdone (a : Reg)
  /-- SCHRD (R348): Reads a committed schedule register at the dispenser. -/
  | schrd (d : Reg) (n : BitVec 12)
  /-- SCHSTAGE (R348): Writes a staged schedule register. -/
  | schstage (a : Reg) (n : BitVec 12)
  /-- SCHCOMMIT (R348): Checks the staged schedule and commits it. -/
  | schcommit (d : Reg)
  /-- SEND (R246): Sends up to eight doublewords to a receive ring of a core. -/
  | send (a : Reg) (v : VRegNo)
  /-- RECV (R247): Waits for and takes the oldest message of a receive ring. -/
  | recv (d : Reg) (n : BitVec 3) (v : VRegNo)
  /-- IPOP (R242): Removes the context's oldest inbox entry, acquiring its reported writes. -/
  | ipop (d e : Reg)
  /-- IPEEK (R242): Reads the oldest inbox entry without removing it. -/
  | ipeek (d e : Reg)
  /-- URET (R244): Returns from a user-level interrupt handler. -/
  | uret
  /-- SOPEN (R175): Checks a stream descriptor and opens a stream in a slot. -/
  | sopen (s : Slot) (k : BitVec 5)
  /-- SREAD (R176): Delivers elements of a load stream into a vector register. -/
  | sread (s : Slot) (v : VRegNo) (g : Reg)
  /-- SWRITE (R177): Writes vector elements as elements of a store stream. -/
  | swrite (s : Slot) (v : VRegNo) (g : Reg)
  /-- SWAIT (R178): Waits for a stream's sink and returns its result. -/
  | swait (s : Slot) (g : Reg)
  /-- SRECALL (R179): Recalls a reduce stream to its core. -/
  | srecall (s : Slot)
  /-- SQUERY (R181): Reads a doubleword of a stream's context image or its status. -/
  | squery (s : Slot) (g : Reg) (n : BitVec 5)
  /-- SRESUME (R180): Resumes a recalled stream. -/
  | sresume (s : Slot)
  /-- SCLOSE (R182): Closes a stream and frees its slot. -/
  | sclose (s : Slot)
  /-- ECOPY (R283): Issues an engine copy, optionally quenching, decoding or computing a CRC. -/
  | ecopy (a b : Reg)
  /-- EGATHER (R286): Issues an engine gather through an index array. -/
  | egather (a b : Reg)
  /-- ESCATTER (R286): Issues an engine scatter through an index array. -/
  | escatter (a b : Reg)
  /-- EREDUCE (R287): Issues an engine reduction into a destination. -/
  | ereduce (a b : Reg)
  /-- ECONV (R290): Issues an engine conversion between float types or out of window images. -/
  | econv (a b : Reg)
  /-- ESTAT (R294): Reads the status of the core's engine operations. -/
  | estat (d : Reg)
  /-- MPUSH (R200): Pushes a 64-byte command image into the matrix queue. -/
  | mpush (v : VRegNo)
  /-- MSTAT (R201): Reads the matrix unit's status, acquiring retired scratchpad writes. -/
  | mstat (d : Reg)
  /-- RPUT (R203): Publishes tiles into a matrix ring. -/
  | rput (a : Reg) (n : BitVec 3)
  /-- SETVL (R123): Sets VCFG from a register and VL from the requested count. -/
  | setvl (d a b : Reg)
  /-- SETVLI (R123): Sets VCFG from an immediate and VL from the requested count. -/
  | setvli (d a : Reg) (c : BitVec 6)
  /-- VLD (R157): Unit-stride vector load. -/
  | vld (m : Bool) (d : VRegNo) (a : Reg)
  /-- VLDS (R157): Strided vector load. -/
  | vlds (m : Bool) (d : VRegNo) (a b : Reg)
  /-- VLDX (R157): Indexed vector load. -/
  | vldx (m : Bool) (d : VRegNo) (a : Reg) (b : VRegNo)
  /-- VLDFF (R131): First-fault vector load that truncates VL at the first faulting later element. -/
  | vldff (m : Bool) (d : VRegNo) (a : Reg)
  /-- VLDB (R160): Loads and decodes billets into F32 or grid form. -/
  | vldb (m : Bool) (r : VRound) (d : VRegNo) (a : Reg)
  /-- VST (R157): Unit-stride vector store. -/
  | vst (m : Bool) (d : VRegNo) (a : Reg)
  /-- VSTS (R157): Strided vector store. -/
  | vsts (m : Bool) (d : VRegNo) (a b : Reg)
  /-- VSTX (R157): Indexed vector store. -/
  | vstx (m : Bool) (d : VRegNo) (a : Reg) (b : VRegNo)
  /-- VQST (R162): Quenches vector elements into billets and stores them. -/
  | vqst (s : QSel) (d : VRegNo) (a : Reg)
  /-- VADD (R135): Vector integer add. -/
  | vadd (m : Bool) (k : Kind) (d a : VRegNo) (b : BitVec 5)
  /-- VSUB (R135): Vector integer subtract. -/
  | vsub (m : Bool) (k : Kind) (d a : VRegNo) (b : BitVec 5)
  /-- VAND (R135): Vector and. -/
  | vand (m : Bool) (k : Kind) (d a : VRegNo) (b : BitVec 5)
  /-- VOR (R135): Vector or. -/
  | vor (m : Bool) (k : Kind) (d a : VRegNo) (b : BitVec 5)
  /-- VXOR (R135): Vector exclusive or. -/
  | vxor (m : Bool) (k : Kind) (d a : VRegNo) (b : BitVec 5)
  /-- VSLL (R135): Vector left shift. -/
  | vsll (m : Bool) (k : Kind) (d a : VRegNo) (b : BitVec 5)
  /-- VSRL (R135): Vector logical right shift. -/
  | vsrl (m : Bool) (k : Kind) (d a : VRegNo) (b : BitVec 5)
  /-- VSRA (R135): Vector arithmetic right shift. -/
  | vsra (m : Bool) (k : Kind) (d a : VRegNo) (b : BitVec 5)
  /-- VMIN (R135): Vector signed minimum. -/
  | vmin (m : Bool) (k : Kind) (d a : VRegNo) (b : BitVec 5)
  /-- VMAX (R135): Vector signed maximum. -/
  | vmax (m : Bool) (k : Kind) (d a : VRegNo) (b : BitVec 5)
  /-- VMINN (R135): Vector unsigned minimum. -/
  | vminn (m : Bool) (k : Kind) (d a : VRegNo) (b : BitVec 5)
  /-- VMAXN (R135): Vector unsigned maximum. -/
  | vmaxn (m : Bool) (k : Kind) (d a : VRegNo) (b : BitVec 5)
  /-- VMUL (R135): Vector multiply, low half. -/
  | vmul (m : Bool) (k : Kind) (d a : VRegNo) (b : BitVec 5)
  /-- VMULH (R135): Vector signed multiply, high half. -/
  | vmulh (m : Bool) (k : Kind) (d a : VRegNo) (b : BitVec 5)
  /-- VMULHN (R135): Vector unsigned multiply, high half. -/
  | vmulhn (m : Bool) (k : Kind) (d a : VRegNo) (b : BitVec 5)
  /-- VMACC (R135): Vector multiply-accumulate. -/
  | vmacc (m : Bool) (k : Kind) (d a : VRegNo) (b : BitVec 5)
  /-- VSADD (R135): Vector signed saturating add. -/
  | vsadd (m : Bool) (k : Kind) (d a : VRegNo) (b : BitVec 5)
  /-- VSADDN (R135): Vector unsigned saturating add. -/
  | vsaddn (m : Bool) (k : Kind) (d a : VRegNo) (b : BitVec 5)
  /-- VSSUB (R135): Vector signed saturating subtract. -/
  | vssub (m : Bool) (k : Kind) (d a : VRegNo) (b : BitVec 5)
  /-- VSSUBN (R135): Vector unsigned saturating subtract. -/
  | vssubn (m : Bool) (k : Kind) (d a : VRegNo) (b : BitVec 5)
  /-- VWADD (R136): Widening vector add. -/
  | vwadd (m : Bool) (k : Kind) (d a : VRegNo) (b : BitVec 5)
  /-- VWMUL (R136): Widening vector multiply. -/
  | vwmul (m : Bool) (k : Kind) (d a : VRegNo) (b : BitVec 5)
  /-- VWMACC (R136): Widening vector multiply-accumulate. -/
  | vwmacc (m : Bool) (k : Kind) (d a : VRegNo) (b : BitVec 5)
  /-- VNCLIP (R136): Narrowing rounding shift with signed saturation. -/
  | vnclip (m : Bool) (k : Kind) (d a : VRegNo) (b : BitVec 5)
  /-- VFADD (R138): Vector float add. -/
  | vfadd (m : Bool) (k : Kind) (d a : VRegNo) (b : BitVec 5)
  /-- VFSUB (R138): Vector float subtract. -/
  | vfsub (m : Bool) (k : Kind) (d a : VRegNo) (b : BitVec 5)
  /-- VFMUL (R138): Vector float multiply. -/
  | vfmul (m : Bool) (k : Kind) (d a : VRegNo) (b : BitVec 5)
  /-- VFDIV (R138): Vector float divide. -/
  | vfdiv (m : Bool) (k : Kind) (d a : VRegNo) (b : BitVec 5)
  /-- VFMIN (R139): Vector float minimum. -/
  | vfmin (m : Bool) (k : Kind) (d a : VRegNo) (b : BitVec 5)
  /-- VFMAX (R139): Vector float maximum. -/
  | vfmax (m : Bool) (k : Kind) (d a : VRegNo) (b : BitVec 5)
  /-- VFMACC (R138): Fused vector multiply-add with one rounding. -/
  | vfmacc (m : Bool) (k : Kind) (d a : VRegNo) (b : BitVec 5)
  /-- VFNMACC (R138): Fused vector multiply-subtract from the destination. -/
  | vfnmacc (m : Bool) (k : Kind) (d a : VRegNo) (b : BitVec 5)
  /-- VFSQRT (R138): Vector float square root. -/
  | vfsqrt (m : Bool) (d a : VRegNo)
  /-- VFSGNJ (R138): Copies the sign of the second operand. -/
  | vfsgnj (m : Bool) (k : Kind) (d a : VRegNo) (b : BitVec 5)
  /-- VFSGNJN (R138): Copies the inverted sign of the second operand. -/
  | vfsgnjn (m : Bool) (k : Kind) (d a : VRegNo) (b : BitVec 5)
  /-- VFCLASS (R140): Writes a class word per element. -/
  | vfclass (m : Bool) (d a : VRegNo)
  /-- VMSEQ (R142): Mask of equal elements. -/
  | vmseq (m : Bool) (k : Kind) (d a : VRegNo) (b : BitVec 5)
  /-- VMSNE (R142): Mask of unequal elements. -/
  | vmsne (m : Bool) (k : Kind) (d a : VRegNo) (b : BitVec 5)
  /-- VMSLT (R142): Mask of signed less than. -/
  | vmslt (m : Bool) (k : Kind) (d a : VRegNo) (b : BitVec 5)
  /-- VMSLE (R142): Mask of signed less or equal. -/
  | vmsle (m : Bool) (k : Kind) (d a : VRegNo) (b : BitVec 5)
  /-- VMSLTN (R142): Mask of unsigned less than. -/
  | vmsltn (m : Bool) (k : Kind) (d a : VRegNo) (b : BitVec 5)
  /-- VMSLEN (R142): Mask of unsigned less or equal. -/
  | vmslen (m : Bool) (k : Kind) (d a : VRegNo) (b : BitVec 5)
  /-- VMFEQ (R142): Mask of float equality. -/
  | vmfeq (m : Bool) (k : Kind) (d a : VRegNo) (b : BitVec 5)
  /-- VMFLT (R142): Mask of float less than. -/
  | vmflt (m : Bool) (k : Kind) (d a : VRegNo) (b : BitVec 5)
  /-- VMFLE (R142): Mask of float less or equal. -/
  | vmfle (m : Bool) (k : Kind) (d a : VRegNo) (b : BitVec 5)
  /-- VMAND (R143): Mask and. -/
  | vmand (d a b : VRegNo)
  /-- VMOR (R143): Mask or. -/
  | vmor (d a b : VRegNo)
  /-- VMXOR (R143): Mask exclusive or. -/
  | vmxor (d a b : VRegNo)
  /-- VMANDN (R143): Mask and-not. -/
  | vmandn (d a b : VRegNo)
  /-- VMPOP (R143): Counts set mask bits into a general register. -/
  | vmpop (m : Bool) (d : Reg) (a : VRegNo)
  /-- VMV (R144): Moves a vector, scalar or immediate into a vector. -/
  | vmv (m : Bool) (k : Kind) (d a : VRegNo) (b : BitVec 5)
  /-- VSLIDEUP (R144): Slides elements up by an offset. -/
  | vslideup (m : Bool) (k : Kind) (d a : VRegNo) (b : BitVec 5)
  /-- VSLIDEDN (R144): Slides elements down by an offset. -/
  | vslidedn (m : Bool) (k : Kind) (d a : VRegNo) (b : BitVec 5)
  /-- VGATHER (R144): Gathers elements by index. -/
  | vgather (m : Bool) (k : Kind) (d a : VRegNo) (b : BitVec 5)
  /-- VCOMPRESS (R145): Packs the elements selected by a mask. -/
  | vcompress (d a b : VRegNo)
  /-- VTRN (R146): Transposes a row-major matrix held in a vector. -/
  | vtrn (m : Bool) (k : Kind) (d a : VRegNo) (b : BitVec 5)
  /-- VXTRACT (R147): Extracts one element into a general register. -/
  | vxtract (k : Kind) (d : Reg) (a : VRegNo) (b : BitVec 5)
  /-- VINSERT (R147): Inserts a general register into one element. -/
  | vinsert (k : Kind) (d : VRegNo) (a : Reg) (b : BitVec 5)
  /-- VMERGE (R144): Merges two operands under the v0 mask. -/
  | vmerge (k : Kind) (d a : VRegNo) (b : BitVec 5)
  /-- VREDSUM (R148): Integer sum reduction. -/
  | vredsum (m : Bool) (d a b : VRegNo)
  /-- VREDMIN (R148): Signed minimum reduction. -/
  | vredmin (m : Bool) (d a b : VRegNo)
  /-- VREDMAX (R148): Signed maximum reduction. -/
  | vredmax (m : Bool) (d a b : VRegNo)
  /-- VREDMINN (R148): Unsigned minimum reduction. -/
  | vredminn (m : Bool) (d a b : VRegNo)
  /-- VREDMAXN (R148): Unsigned maximum reduction. -/
  | vredmaxn (m : Bool) (d a b : VRegNo)
  /-- VREDAND (R148): And reduction. -/
  | vredand (m : Bool) (d a b : VRegNo)
  /-- VREDOR (R148): Or reduction. -/
  | vredor (m : Bool) (d a b : VRegNo)
  /-- VREDXOR (R148): Exclusive-or reduction. -/
  | vredxor (m : Bool) (d a b : VRegNo)
  /-- VFREDSUM (R148): Ordered float sum reduction, one rounding per element. -/
  | vfredsum (m : Bool) (d a b : VRegNo)
  /-- VWREDSUM (R148): Widening integer sum reduction. -/
  | vwredsum (m : Bool) (d a b : VRegNo)
  /-- VCVTFI (R150): Float to signed integer conversion. -/
  | vcvtfi (m : Bool) (r : VRound) (d a : VRegNo)
  /-- VCVTFN (R150): Float to unsigned integer conversion. -/
  | vcvtfn (m : Bool) (r : VRound) (d a : VRegNo)
  /-- VCVTIF (R149): Signed integer to float conversion. -/
  | vcvtif (m : Bool) (r : VRound) (d a : VRegNo)
  /-- VCVTNF (R149): Unsigned integer to float conversion. -/
  | vcvtnf (m : Bool) (r : VRound) (d a : VRegNo)
  /-- VCVTFW (R149): Widening float conversion. -/
  | vcvtfw (m : Bool) (r : VRound) (d a : VRegNo)
  /-- VCVTFS (R149): Narrowing float conversion. -/
  | vcvtfs (m : Bool) (r : VRound) (d a : VRegNo)
  /-- VBDEC (R151): Decodes register-held billets to F32 or grid form. -/
  | vbdec (m : Bool) (r : VRound) (d a : VRegNo)
  /-- ADDI_SHORT (R58): Two-address add immediate, 16-bit form. -/
  | addiShort (d : Reg) (i : BitVec 5)
  /-- ADD_SHORT (R58): Two-address add, 16-bit form. -/
  | addShort (d a : Reg)
  /-- SUB_SHORT (R58): Two-address subtract, 16-bit form. -/
  | subShort (d a : Reg)
  /-- AND_SHORT (R58): Two-address and, 16-bit form. -/
  | andShort (d a : Reg)
  /-- OR_SHORT (R58): Two-address or, 16-bit form. -/
  | orShort (d a : Reg)
  /-- XOR_SHORT (R58): Two-address exclusive or, 16-bit form. -/
  | xorShort (d a : Reg)
  /-- SLL_SHORT (R58): Two-address left shift, 16-bit form. -/
  | sllShort (d a : Reg)
  /-- SRL_SHORT (R58): Two-address logical right shift, 16-bit form. -/
  | srlShort (d a : Reg)
  /-- SRA_SHORT (R58): Two-address arithmetic right shift, 16-bit form. -/
  | sraShort (d a : Reg)
  /-- SLT_SHORT (R58): Two-address signed compare, 16-bit form. -/
  | sltShort (d a : Reg)
  /-- SLTN_SHORT (R58): Two-address unsigned compare, 16-bit form. -/
  | sltnShort (d a : Reg)
  /-- MIN_SHORT (R58): Two-address signed minimum, 16-bit form. -/
  | minShort (d a : Reg)
  /-- MAX_SHORT (R58): Two-address signed maximum, 16-bit form. -/
  | maxShort (d a : Reg)
  /-- MINN_SHORT (R58): Two-address unsigned minimum, 16-bit form. -/
  | minnShort (d a : Reg)
  /-- MAXN_SHORT (R58): Two-address unsigned maximum, 16-bit form. -/
  | maxnShort (d a : Reg)
  /-- MUL_SHORT (R58): Two-address multiply, 16-bit form. -/
  | mulShort (d a : Reg)
  /-- ADD_W_SHORT (R58): Two-address 32-bit add, 16-bit form. -/
  | addWShort (d a : Reg)
  /-- SUB_W_SHORT (R58): Two-address 32-bit subtract, 16-bit form. -/
  | subWShort (d a : Reg)
  /-- SLLI_SHORT (R58): Two-address left shift by immediate, 16-bit form. -/
  | slliShort (d : Reg) (c : BitVec 5)
  /-- SRLI_SHORT (R58): Two-address logical right shift by immediate, 16-bit form. -/
  | srliShort (d : Reg) (c : BitVec 5)
  /-- SRAI_SHORT (R58): Two-address arithmetic right shift by immediate, 16-bit form. -/
  | sraiShort (d : Reg) (c : BitVec 5)
  /-- ANDI_SHORT (R58): Two-address and immediate, 16-bit form. -/
  | andiShort (d : Reg) (i : BitVec 5)
  /-- ORI_SHORT (R58): Two-address or immediate, 16-bit form. -/
  | oriShort (d : Reg) (i : BitVec 5)
  /-- XORI_SHORT (R58): Two-address exclusive or immediate, 16-bit form. -/
  | xoriShort (d : Reg) (i : BitVec 5)
  /-- SLTI_SHORT (R58): Two-address signed compare immediate, 16-bit form. -/
  | sltiShort (d : Reg) (i : BitVec 5)
  /-- SLTNI_SHORT (R58): Two-address unsigned compare immediate, 16-bit form. -/
  | sltniShort (d : Reg) (i : BitVec 5)
  /-- PADDI_SHORT (R58): Two-address pointer add immediate, 16-bit form. -/
  | paddiShort (d : Reg) (i : BitVec 5)
  /-- BEQ_SHORT (R58): Branch when a register equals zero, 16-bit form. -/
  | beqShort (d : Reg) (o : BitVec 5)
  /-- BNE_SHORT (R58): Branch when a register differs from zero, 16-bit form. -/
  | bneShort (d : Reg) (o : BitVec 5)
  /-- BLT_SHORT (R58): Branch when a register is negative, 16-bit form. -/
  | bltShort (d : Reg) (o : BitVec 5)
  /-- BGE_SHORT (R58): Branch when a register is not negative, 16-bit form. -/
  | bgeShort (d : Reg) (o : BitVec 5)
  /-- JAL_SHORT (R58): PC-relative jump without link, 16-bit form. -/
  | jalShort (o : BitVec 10)
  /-- ULI_ENTRY (R244): A user-level interrupt is taken at the next instruction boundary when an inbox entry is present. -/
  | uliEntry
  /-- TRAP_MESSAGE_REPLY_RESUME (R48): A chain member's RESUME reply makes the waiting context ready at the given PC. -/
  | trapMessageReplyResume
  /-- TRAP_MESSAGE_REPLY_PASS (R48): A chain member's PASS sends the trap message to the next member. -/
  | trapMessageReplyPass
  /-- MZERO (R214): Zeroes an accumulator tile and sets its window base. -/
  | mzero
  /-- MMA (R215): Runs K steps of ring-fed matrix multiply into an accumulator. -/
  | mma
  /-- MMAB (R216): Runs K steps with B read from memory. -/
  | mmab
  /-- MMA_STEP (R205): A K step begins once its tiles are present or delivered on the bus, and its contributions are applied. -/
  | mmaStep
  /-- MRLOAD (R217): Loads one tile from memory into a ring. -/
  | mrload
  /-- MQST (R218): Quenches an accumulator tile into billets in memory. -/
  | mqst
  /-- MCVT (R219): Converts an accumulator tile into floats in the scratchpad. -/
  | mcvt
  /-- MSTW (R220): Stores the raw window images of a tile. -/
  | mstw
  /-- MLDW (R220): Loads raw window images into a tile. -/
  | mldw
  /-- MSPEC (R221): Copies a tile into its shadow and sets SPEC. -/
  | mspec
  /-- MCOMMIT (R221): Copies the shadow into the live tile and clears SPEC. -/
  | mcommit
  /-- MDISCARD (R221): Clears SPEC and keeps the live tile. -/
  | mdiscard
  /-- MFENCE (R222): Waits until earlier commands' memory accesses are complete. -/
  | mfence
  /-- MSIGNAL (R223): Decrements a signal and/or posts a signal event after earlier writes. -/
  | msignal
  /-- MATRIX_COMMAND_RETIRE (R199): A command retires, pops its tiles, posts its events and ORs its flags. -/
  | matrixCommandRetire
  /-- ENGINE_UNIT (R277): The engine applies one unit of an operation at its homes. -/
  | engineUnit
  /-- ENGINE_COMPLETION (R291): An engine operation completes, ORs its flags, decrements its signal and posts its entry. -/
  | engineCompletion
  /-- STREAM_CONTEXT_ARRIVE (R186): A stream context arriving on the hop channel is taken at its site. -/
  | streamContextArrive
  /-- STREAM_ELEMENT_PASS (R251): A site or the stream unit passes an element once its line is present and folds it. -/
  | streamElementPass
  /-- PROGRESS_MARK (R186): The owner core applies a progress mark and releases passed hold entries. -/
  | progressMark
  /-- STREAM_RECALL_ARRIVE (R188): A recall reaches a site, which returns the context or keeps the recall. -/
  | streamRecallArrive
  /-- STREAM_CONTEXT_RETURN (R188): The recalled context arrives at the core and the slot becomes RECALLED. -/
  | streamContextReturn
  /-- STREAM_SINK (R183): A stream passes its last element, writes its result and becomes SUNK. -/
  | streamSink
  /-- HOME_MISS (R308): A home slice serves a request that misses, walking and fetching or parking it. -/
  | homeMiss
  /-- HOME_QUERY (R306): A walk slice answers a home-cache miss with the leaf's fields. -/
  | homeQuery
  /-- MEMORY_RESPONSE (R307): Data or an answer for a waiting access arrives and retires it. -/
  | memoryResponse
  /-- PLB_REFILL (R236): A PLB entry refills from the segment table and the waiting access proceeds. -/
  | plbRefill
  /-- WRITE_BACK_ARRIVAL (R309): A write-back packet is accepted into a free acceptance slot and merged at the home. -/
  | writeBackArrival
  /-- WAKE (R312): A walker re-walks on a wake, answering parked requests or re-arming. -/
  | wake
  /-- WATCH_REWALK (R312): A walker without a watch slot re-walks the page every 4096 mc. -/
  | watchRewalk
  /-- FAULT_MESSAGE (R310): A fault message is combined at a router or reaches the page's root. -/
  | faultMessage
  /-- FREPLY_RETRY (R313): A RETRY reply runs down the combining tree and makes walkers re-walk. -/
  | freplyRetry
  /-- FREPLY_ERROR (R313): An ERROR reply refuses every parked request for the page. -/
  | freplyError
  /-- STORAGE_WAIT_NOTICE (R397): A core receiving a storage-wait notice swaps out the waiting tile task. -/
  | storageWaitNotice
  /-- MESSAGE_ARRIVAL (R370): A message is placed in its ring, held in the reorder buffer, or refused. -/
  | messageArrival
  /-- MESSAGE_RETRY (R246): A refused message in the retry slot is offered again. -/
  | messageRetry
  /-- BARRIER_CFG_WRITE (R256): Writes a barrier's CFG, clearing BRK and the count and releasing waiters broken. -/
  | barrierCfgWrite
  /-- ARRIVE_LOAD (R257): Arrives at a barrier and waits for its completion. -/
  | arriveLoad
  /-- ARRIVE_STORE (R257): Arrives at a barrier without waiting. -/
  | arriveStore
  /-- WAIT_LOAD (R257): Waits for the completion of the context's barrier generation. -/
  | waitLoad
  /-- BARRIER_EVENT_MESSAGE (R257): A child's event message reaches its parent event unit. -/
  | barrierEventMessage
  /-- BARRIER_RELEASE_MESSAGE (R257): A release message completes the barrier at a unit and releases its waiters. -/
  | barrierReleaseMessage
  /-- LOCK_LOAD (R261): Acquires a mutex or waits in its queue. -/
  | lockLoad
  /-- TRY_LOAD (R261): Tries once to acquire a mutex. -/
  | tryLoad
  /-- LOCK_STORE (R261): Frees a mutex and passes it to the head of the queue. -/
  | lockStore
  /-- EVT_STORE (R262): Sets an event with a payload and releases its waiters. -/
  | evtStore
  /-- EVT_LOAD (R262): Waits until an event is set. -/
  | evtLoad
  /-- ESTAT_STORE (R262): Clears an event. -/
  | estatStore
  /-- WAITT_TIMEOUT (R265): A waitt reaching its limit returns timed out. -/
  | waittTimeout
  /-- POWER_GATE (R268): A core clock-gated for PG·1024 tk is power-gated with state retained. -/
  | powerGate
  /-- RESIDENCY_REPORT (R269): A core gated for RES·1024 tk posts a residency report. -/
  | residencyReport
  /-- JOB_DEADLINE (R270): TIME passing JOB.DL halts and dumps the partition. -/
  | jobDeadline
  /-- RECORD_HEAD_CHECK (R337): A record reaching the head of its queue is read and checked, and rejected if it fails. -/
  | recordHeadCheck
  /-- HEAD_AGEING (R341): An eligible undispatched head's AGE increases every 4096 mc. -/
  | headAgeing
  /-- LAUNCH_DISPATCH (R343): An eligible head record is dispatched and tasks start on every core. -/
  | launchDispatch
  /-- PARTITION_CLAIM (R340): A claim for a partition reaches its lead die's dispatch unit. -/
  | partitionClaim
  /-- DISPENSER_TNEXT (R349): The dispenser serves a tnext request with NextTile. -/
  | dispenserTnext
  /-- DISPENSER_COMMIT (R348): The dispenser applies or rejects a staged schedule. -/
  | dispenserCommit
  /-- DISPENSER_TDONE (R350): The dispenser closes a token and completes the launch when all are closed. -/
  | dispenserTdone
  /-- DISPENSER_SCHRD (R348): The dispenser answers a schedule register read. -/
  | dispenserSchrd
  /-- TASK_END (R351): After drains a task's end completes, freeing the core or handing it to a swapped task. -/
  | taskEnd
  /-- SWITCH_DEADLINE (R357): TIME reaching the armed switch time stops and saves every unyielded task. -/
  | switchDeadline
  /-- LINK_FLIT_ERROR (R377): A UCIe flit failing its CRC is replayed from the first unacknowledged flit. -/
  | linkFlitError
  /-- LINK_RETRAIN_END (R378): A retraining attempt ends, restoring the link or failing it after three attempts. -/
  | linkRetrainEnd
  /-- LINKSTAT_READ (R379): Reads LINKSTAT and clears its counters. -/
  | linkstatRead
  /-- THERMAL_TRIP (R383): Passing the trip temperature stops the die's arithmetic clock and reports. -/
  | thermalTrip
  /-- PWRCTL_VF (R382): A PWRCTL store changes the voltage and frequency point. -/
  | pwrctlVf
  /-- PWRCTL_EN (R382): A PWRCTL store powers the compute chiplet on or off. -/
  | pwrctlEn
  /-- PWRCTL_TRIP_CLEAR (R382): A PWRCTL store clears the sticky TRIP bit. -/
  | pwrctlTripClear
  /-- VF_CLOCK_HOLD_END (R382): The arithmetic clock held for a VF change restarts. -/
  | vfClockHoldEnd
  /-- WR_QUIESCE (R409): WRCMD step 1 starts quiescing the target die. -/
  | wrQuiesce
  /-- WR_WRITE_BACK (R409): WRCMD step 2 writes back the die's slices. -/
  | wrWriteBack
  /-- WR_RESET (R409): WRCMD step 3 resets the die except its HBM4E. -/
  | wrReset
  /-- WR_RETRAIN (R409): WRCMD step 4 retrains the die's links. -/
  | wrRetrain
  /-- WR_DISCOVER (R409): WRCMD step 5 runs discovery on the die. -/
  | wrDiscover
  /-- WR_ADMIT (R409): WRCMD step 0 delivers the code image and ends HOME-RESET answers. -/
  | wrAdmit
  /-- WR_STEP_DONE (R409): A warm-reset step finishes and RES becomes done or failed. -/
  | wrStepDone
  /-- ELOGBASE_WRITE (R391): Sets the error log ring, resetting HEAD and TAIL and copying internal entries. -/
  | elogbaseWrite
  /-- NQSTAT_READ (R301): Reads NQSTAT, clearing DROPS. -/
  | nqstatRead
  /-- NQSTAT_WRITE (R301): Writes NQSTAT, clearing OVF by write-one. -/
  | nqstatWrite
  /-- MGMT_RESTART_CORE (R433): Restarts a halted core at the given PC. -/
  | mgmtRestartCore
  /-- MGMT_WARM_RESET (R385): Checks and carries out a warm reset of a die. -/
  | mgmtWarmReset
  /-- MGMT_POWER (R388): Writes a die's VF or EN, or restarts its clock after a trip. -/
  | mgmtPower
  /-- MGMT_GATING (R268): Writes WAITPOL of named clusters. -/
  | mgmtGating
  /-- MGMT_RETIRE_SLICE (R315): Retires an L2 slice to a replacement. -/
  | mgmtRetireSlice
  /-- MGMT_RETRAIN_LINK (R378): Returns a failed link to service by retraining. -/
  | mgmtRetrainLink
  /-- MGMT_SWITCH (R357): Arms a partition switch at time T. -/
  | mgmtSwitch
  /-- MGMT_RESUME (R358): Resumes a switched-out partition. -/
  | mgmtResume
  /-- MGMT_HALT_PARTITION (R359): Halts a partition. -/
  | mgmtHaltPartition
  /-- MGMT_RELEASE_HALT (R359): Releases a halted partition, discarding its launch. -/
  | mgmtReleaseHalt
  /-- MGMT_ATTEST (R390): Returns the measurement log signed with a nonce. -/
  | mgmtAttest
  /-- MGMT_DRAIN_LOG (R391): Drains the package error log. -/
  | mgmtDrainLog
  /-- COLD_BOOT (R389): The service processor ROM starts and waits for the Puori image. -/
  | coldBoot
  /-- PUORI_IMAGE (R389): A received Puori image is verified, measured and started, releasing corner cores. -/
  | puoriImage
  /-- PTP_MESSAGE (R381): A PTP message adjusts the rate of TIME on all dies. -/
  | ptpMessage
  /-- SSD_ENABLE (R393): Setting EN brings an SSD controller up. -/
  | ssdEnable
  /-- SSD_DISABLE (R393): Clearing EN drains and resets an SSD controller. -/
  | ssdDisable
  /-- NVME_COMPLETION (R399): An NVMe completion entry completes a bring-up step, a fault Read or a request. -/
  | nvmeCompletion
  /-- SQE_FAULT_MESSAGE (R399): A fault on a storage-backed leaf reaches the storage queue engine and starts service. -/
  | sqeFaultMessage
  /-- FFSBASE_WRITE (R398): Sets the free-frame stack and TOP to 0. -/
  | ffsbaseWrite
  /-- FFS_PUSH (R398): Pushes a frame onto the free-frame stack, serving faults waiting for one. -/
  | ffsPush
  /-- FFSSTAT_READ (R398): Reads FFSSTAT, clearing REJ. -/
  | ffsstatRead
  /-- FFSSTAT_WRITE (R398): Writes FFSSTAT, clearing LOWN by write-one. -/
  | ffsstatWrite
  /-- SRQBASE_WRITE (R401): Sets the storage request ring and resets HEAD and TAIL. -/
  | srqbaseWrite
  /-- SRQ_TAIL_WRITE (R401): Advances TAIL of the storage request ring. -/
  | srqTailWrite
  /-- SRQ_FLUSH (R401): The engine takes a Flush descriptor and submits it. -/
  | srqFlush
  /-- SRQ_WRITE (R401): The engine takes a Write descriptor, reads its buffer and submits it. -/
  | srqWrite
  /-- SRQ_READ (R401): The engine takes a Read descriptor and submits it. -/
  | srqRead
  /-- SSD_COMMAND_TIMEOUT (R402): A command not completed in 2 s fails the SSD. -/
  | ssdCommandTimeout
  /-- PCIE_LINK_DOWN (R402): Loss of the PCIe link fails the SSD. -/
  | pcieLinkDown
  /-- FABRIC_ENQUEUE (R416): An enqueue message adds launch records to a queue or is refused. -/
  | fabricEnqueue
  /-- FABRIC_DECREMENT (R420): An arriving 0x03 decrements a signal at its home as a release. -/
  | fabricDecrement
  /-- FABRIC_WATCH (R421): An arriving 0x04 arms a watch monitor on a signal. -/
  | fabricWatch
  /-- FABRIC_BARRIER_EVENT (R424): A 0x05 barrier event reaches the rank-0 module. -/
  | fabricBarrierEvent
  /-- FABRIC_BARRIER_RELEASE (R424): A 0x06 barrier release completes the fabric leg. -/
  | fabricBarrierRelease
  /-- FABRIC_RELEASE_REQUEST (R419): A 0x08 request returns a device page to a host. -/
  | fabricReleaseRequest
  /-- RELEASE_WRITE_DONE (R419): The RMA write of a released page is acknowledged and the leaf is made valid. -/
  | releaseWriteDone
  /-- FABRIC_GRANT (R418): A 0x87 grant lets the migration engine read the page. -/
  | fabricGrant
  /-- MIGRATION_FAULT (R418): A fault on a migratable host-owned page reaches die 0's migration engine. -/
  | migrationFault
  /-- MIGRATION_FILL_DONE (R418): The page's RMA read completes and the leaf is made a device leaf. -/
  | migrationFillDone
  /-- MIGRATION_GRANT_TIMEOUT (R418): No grant within 1 s answers the fault as ERROR. -/
  | migrationGrantTimeout
  /-- FABRIC_DECREMENT_FAILED (R421): An arriving 0x83 reports a device decrement that failed. -/
  | fabricDecrementFailed
  /-- REMOTE_READ_RESPONSE (R420): An RMA read response for a pinned-page miss answers the waiting access. -/
  | remoteReadResponse
  /-- RMA_READ (R411): A remote RMA read of device memory is served. -/
  | rmaRead
  /-- RMA_WRITE (R423): A remote RMA write is performed at its home. -/
  | rmaWrite
  /-- UET_ATOMIC (R411): A received UET atomic is answered unsupported and logged. -/
  | uetAtomic
  /-- CONNECTION_FAIL (R411): A failed UET connection ends its operations with FABRIC-FAIL. -/
  | connectionFail
  /-- RING_CONFIG_WRITE (R202): A store to a matrix ring descriptor sets it and resets HEAD, TAIL and FILL. -/
  | ringConfigWrite
  /-- MSG_RING_CONFIG_WRITE (R245): A store to a receive-ring descriptor resets it and discards held messages. -/
  | msgRingConfigWrite
  /-- REGISTER_WRITE (R301): Writes a register that has no behaviour of its own. -/
  | registerWrite
  /-- RESUME_TEMPERATURE (R382): The die's hearth sensor falls below the resume temperature and HOT clears. -/
  | resumeTemperature
  /-- PORT_STATE_CHANGE (R412): An Ultra Ethernet port's link comes up, goes down or fails, changing UEP STATE. -/
  | portStateChange
  /-- RMA_WRITE_ACKNOWLEDGEMENT (R420): The remote endpoint acknowledges an RMA write of a pinned-page write-back or of an operation. -/
  | rmaWriteAcknowledgement
  /-- CSTS_RDY_CHANGE (R393): An SSD controller's CSTS.RDY reaches the value that bring-up or stopping waits for. -/
  | cstsRdyChange
  /-- CAP_TO_EXPIRY (R393): The controller's CAP.TO limit runs out during reset or ready waiting, failing the SSD with ERRC 2 or 3. -/
  | capToExpiry
deriving DecidableEq, Repr

end Sys2Proof
end

