-- ==== Sys2Proof/Machine/State.lean ====
section
/-!
DEFINITION. The state of the package: every piece of state the manual gives the machine, as plain data.
Lists of units are sparse: an unlisted core, cluster, die, queue or partition is as reset leaves it.
-/

namespace Sys2Proof.Machine

open Sys2Proof

/-- Why a step stops. No rule of the manual stops the machine, so nothing raises a fault:
an encoding executes or takes the trap (R61), an access that cannot be served takes a trap or an error reply. -/
inductive Fault where
  /-- Raised by nobody. Safe: no meaning and no step answers with it. -/
  | none
deriving DecidableEq, Repr

/-- Why an instruction has no meaning. -/
inductive Refusal where
  /-- Raised by an arm of exec that has no meaning yet. Safe: the step answers with no state. -/
  | notModelled (mnemonic : String)
deriving DecidableEq, Repr

/-- What an agent brings along to its event row: the numbers of the unit it acts on and the data it carries.
Each event's meaning says which of the fields it reads. (DESIGN CHOICE, log 2) -/
structure Ev where
  core : Nat
  ctx : Nat
  unit : Nat
  die : Nat
  addr : Nat
  val : Word
  aux : Nat
  flag : Bool
  data : List Word
deriving DecidableEq, Repr

/-- An event that carries nothing. -/
def Ev.empty : Ev :=
  { core := 0, ctx := 0, unit := 0, die := 0, addr := 0, val := 0, aux := 0, flag := false, data := [] }

/-- A soft error, where it strikes (R7, R9, R249, R274, R374, R380). A number `k` counts entries of a table or of the agenda.
(DESIGN CHOICE, log 88) -/
inductive Flaw where
  /-- A correctable error in a unit of R391: its kind, its die and its number. -/
  | corrected (unit die num : Nat)
  /-- An uncorrectable error in a word of an L1. -/
  | l1Word (core word : Nat)
  /-- The same in a word of a line of an instruction cache. -/
  | fetchWord (core line word : Nat)
  /-- The same in a word of a scratchpad. -/
  | spadWord (core word : Nat)
  /-- The same in a PLB entry. -/
  | plbEntry (core k : Nat)
  /-- The same in the format-record cache. -/
  | formatEntry (core key : Nat)
  /-- The same in an inbox entry. -/
  | inboxEntry (core k : Nat)
  /-- The same in the architected state of a context. -/
  | context (core ctx : Nat)
  /-- The same in a word of a line of a home slice. -/
  | sliceWord (slice line word : Nat)
  /-- The same in a word of HBM4E. -/
  | memWord (pa : Nat)
  /-- The same in the state of a barrier. -/
  | barrier (cluster b : Nat)
  /-- The same in the state of a mutex. -/
  | mutex (cluster m : Nat)
  /-- The same in the state of an event. -/
  | event (cluster e : Nat)
  /-- The same in the header of a packet on the mesh: the packet of a move of the agenda. -/
  | header (k : Nat)
  /-- The same in the data of such a packet. -/
  | data (k : Nat)
deriving DecidableEq, Repr

/-- Whose turn it is: the next issue of a core, an agent's event row, an eviction that a cache makes on its own (R232), a soft error,
or a choice that brings another of the remaining moves to the front. (DESIGN CHOICE, logs 1, 90) -/
inductive Move where
  | turn (core : Nat)
  | event (i : Instr) (e : Ev)
  | pick (k : Nat)
  | evictLine (core line : Nat)
  | evictHome (slice line : Nat)
  | flaw (f : Flaw)
deriving DecidableEq, Repr

/-- What a waiting context waits for (R43). -/
inductive Why where
  /-- A PLB refill for an address (R236). -/
  | plb (va : Nat)
  /-- The answer of a home query for a page (R306). -/
  | query (page : Nat)
  /-- Words of host memory for a later element of a first-fault load, which only truncates the load when they do not come (R131). -/
  | probe (va : Nat)
  /-- Data or an answer from the home of an address; `storage` is set once a storage-wait notice arrived (R307, R310, R397). -/
  | mem (va : Nat) (storage : Bool)
  /-- The answer of a die register block (R301). -/
  | register (pa : Nat)
  /-- The version of a line to reach a number (R239). -/
  | version (va n : Nat)
  /-- A signal to fall to a threshold (R266). -/
  | signal (va : Nat) (thr : Word)
  /-- An event-unit word, with a limit when the instruction is a `waitt` (R252, R265). -/
  | window (off : Nat) (limit : Option Word)
  /-- A message in a ring (R247). -/
  | ring (n : Nat)
  /-- A stream's sink (R178). -/
  | sink (slot : Nat)
  /-- A recalled stream context, or the acknowledgement of a close (R179, R182). -/
  | stream (slot : Nat)
  /-- A helper's exit (R41). -/
  | helper (n : Nat)
  /-- A reply to a forwarded trap (R47). -/
  | trapReply
  /-- An answer of the dispenser (R346, R348). -/
  | dispenser
  /-- A busy unit: not ready until something of the core frees (R43). -/
  | busy
deriving DecidableEq, Repr

/-- A waiting context's condition: what it waits for and the bits of its waiting instruction (R50). -/
structure Waiting where
  why : Why
  ir : BitVec 32
deriving DecidableEq, Repr

/-- The life of a context: no context, one with a PC, or a helper that has exited with a value (R39). -/
inductive Life where
  | free
  | live
  | exited (value : Word)
deriving DecidableEq, Repr

/-- A trap message of R47, held while its context waits for a reply. -/
structure TrapMsg where
  pos : Nat
  cause : Nat
  detail : Nat
  pc : VAddr
  word : BitVec 32
  addr : Word
deriving DecidableEq, Repr

/-- A valid word of an L1 line (R232). -/
structure L1Word where
  val : BitVec 32
  dirty : Bool
  poison : Bool
deriving DecidableEq, Repr

/-- A context: everything R34 lists as its own. `placed` counts the elements that a vector store in progress has placed, `unplaced` are
those it has still to place, and `hand` its instruction bits (R164, R166); `got` are the words that fills delivered for the read it waits
to complete (R332), and `lost` the lines that a first-fault load asked for in vain (R131). -/
structure Ctx where
  life : Life
  placed : Nat
  wait : Option Waiting
  pc : VAddr
  g : Vector Word 32
  ox : Vector Word 8
  v : Vector VReg 32
  vl : Word
  vcfg : Word
  frm : Word
  fstat : Word
  stat : Word
  trapPc : Word
  trapWord : Word
  trapCause : Word
  trapAddr : Word
  trapScr0 : Word
  trapScr1 : Word
  bkptPc : Word
  uliVec : Word
  uliStat : Word
  shadow : Vector Word 8
  fwd : Option TrapMsg
  heldReply : Option Word
  got : List (Nat × L1Word)
  unplaced : List (Nat × List Byte)
  hand : BitVec 32
  lost : List Nat
deriving DecidableEq, Repr

/-- An update-only partial: its op, its width in bytes and its value (R238). -/
structure Partial where
  op : Nat
  width : Nat
  val : Word
deriving DecidableEq, Repr

/-- An entry of the alias hold buffer (R166, R192): the bytes of one line held for one slot, and the contexts that stored them.
`index` is the highest element touched, none when it is unbounded (R191). -/
structure HoldEntry where
  slot : Nat
  line : Nat
  ctxs : List Nat
  index : Option Nat
  bytes : List (Nat × Byte)
deriving DecidableEq, Repr

/-- A PLB entry: the rights of the domain over one segment, in 64 KiB units (R236, R302). -/
structure PlbEntry where
  first : Nat
  last : Nat
  rights : Nat
deriving DecidableEq, Repr

/-- A page-table leaf as found: its two words, the PA it was read at, and its level (R303). -/
structure Leaf where
  w0 : Word
  w1 : Word
  pa : Nat
  level : Nat
deriving DecidableEq, Repr

/-- A line held in a home slice: data, a poison bit and a dirty bit per word, and the version (R239, R300). -/
structure L2Line where
  data : BitVec 512
  poison : BitVec 16
  dirty : BitVec 16
  ver : BitVec 32
  verDirty : Bool
deriving DecidableEq, Repr

/-- A line held in an instruction cache, with a valid bit per word (R249). -/
structure ICLine where
  data : BitVec 512
  poison : BitVec 16
  valid : BitVec 16
deriving DecidableEq, Repr

/-- A request parked at a home slice: the requester code of R310, who waits, for which address and words, the address of the
access itself, and for an asynchronous agent the event it takes up again when it is answered. `stale` is set when an invalidation of
the requesting cache came after the request: what is filled for it is invalid at once (R332). -/
structure Req where
  kind : Nat
  core : Nat
  ctx : Nat
  va : Nat
  ea : Nat
  words : List Nat
  again : Option (Instr × Ev)
  stale : Bool
deriving DecidableEq, Repr

/-- The states of a stream slot (R169). -/
inductive SlotState where
  | free
  | locl
  | floated
  | recalled
  | sunk
deriving DecidableEq, Repr

/-- What a stream context carries that advances: progress index, partial, poison, park bit and site (R187). -/
structure StreamPos where
  prog : Nat
  acc : BitVec 144
  pois : Bool
  park : Bool
  site : Nat
deriving DecidableEq, Repr

/-- A stream slot: its state, its captured descriptor (R170) and whether its context was at service level, the core's copy of its
position (R181) and PROG as the context left the core, the position of a floated context at its site, whether that context is on the
hop channel, the forwarding records of sites it left (R186), a recall or close under way and the site that keeps it (R188, R251),
its flags, its error and its result. `idxv` is the index entry of the element that the core's image names (R187), `hop` the line of the
last element while a site has still to read the index of the next one (R186), and `res` is 1 while a result write waits for the
acknowledgement of host memory and 2 once that has failed (R183, R422). -/
structure Stream where
  state : SlotState
  kind : Nat
  ctxn : Nat
  svc : Bool
  desc : Vector Word 6
  fmt : FmtRecord
  known : StreamPos
  left : Nat
  live : StreamPos
  transit : Bool
  forwards : List (Nat × Nat)
  recalling : Bool
  closing : Bool
  kept : Option Nat
  flags : Flags
  err : Nat
  errAddr : Word
  result : Word
  idxv : Nat
  hop : Option Nat
  res : Nat
deriving DecidableEq, Repr

/-- A matrix ring (R202). -/
structure MxRing where
  cap : Nat
  tsize : Nat
  base : Nat
  head : Nat
  tail : Nat
  fill : Nat
deriving DecidableEq, Repr

/-- Window elements of a tile by element number 32i + j, with the tile's window base; an unlisted element is zero (R207). -/
structure Tile where
  els : List (Nat × WinElem)
  w : BitVec 16
deriving DecidableEq, Repr

/-- An accumulator: its live tile, its shadow and its SPEC bit (R207). -/
structure Acc where
  live : Tile
  shadow : Tile
  spec : Bool
deriving DecidableEq, Repr

/-- A command in the matrix queue (R199, R200): its image, the pushing context, the FRM.RM captured, and whether that context was at
service level. -/
structure MxCmd where
  image : List Word
  ctx : Nat
  rm : Nat
  svc : Bool
deriving DecidableEq, Repr

/-- What a started matrix command waits for (R201 STATE). -/
inductive MxWait where
  | none
  | tile
  | fault
deriving DecidableEq, Repr

/-- The matrix unit of a core (R199 to R208). `sig` is 1 while the executing `msignal` waits for the answer to its decrement and 2 once the
answer is a refusal (R223, R421); `ending` is the error and the address with which the executing command is about to retire (R209). -/
structure Matrix where
  queue : List MxCmd
  started : Bool
  kprog : Nat
  wait : MxWait
  slot : Nat
  sig : Nat
  ending : Option (Nat × Word)
  group : Word
  recA : FmtRecord
  recB : FmtRecord
  flags : Flags
  rings : Vector MxRing 8
  accs : Vector Acc 4
  lerr : Nat
  lv : Bool
  ltag : Nat
deriving DecidableEq, Repr

/-- The data operations of the cluster engine (R278). -/
inductive EngKind where
  | copy
  | gather
  | scatter
  | reduce
  | conv
deriving DecidableEq, Repr

/-- An engine operation in flight (R277): its captured registers, records and element types, the level-table entries it has read, whether it
was issued at service level, its progress through its units and the read-back, its two CRCs, its flags and its error. `phase` is 1 once its
CRC has been seen to and 2 once its signal has (R291, R293). -/
structure EngOp where
  id : Nat
  kind : EngKind
  ctx : Nat
  dst : Word
  src : Word
  svc : Bool
  ox : Vector Word 4
  recD : FmtRecord
  recS : FmtRecord
  typeD : Nat
  typeS : Nat
  levels : List (Nat × Int)
  done : Nat
  phase : Nat
  crc : Word
  crcBack : Word
  flags : Flags
  err : Nat
  errDw : Word
deriving DecidableEq, Repr

/-- An inbox entry (R241): the context it is addressed to, the posting agent and its two doublewords. -/
structure InboxEntry where
  ctx : Nat
  agent : Nat
  dw0 : Word
  dw1 : Word
deriving DecidableEq, Repr

/-- A message (R245, R246, R370). -/
structure Msg where
  key : Nat
  sender : Nat
  ctx : Nat
  part : Nat
  dest : Nat
  ring : Nat
  seq : Nat
  data : List Word
deriving DecidableEq, Repr

/-- What the interface keeps of a receive ring (R245). -/
structure MsgRing where
  head : Nat
  tail : Nat
  fill : Nat
deriving DecidableEq, Repr

/-- A tile dispensed to a task and not yet closed (R346). -/
structure OpenTile where
  token : Nat
  gen : Nat
deriving DecidableEq, Repr

/-- The tile task a core runs (R343): its partition, the sender key of its messages (R370), its open tile and its message counts (R352). -/
structure Task where
  part : Nat
  key : Nat
  tile : Option OpenTile
  sent : Nat
  received : Nat
  ending : Bool
  handed : Bool
deriving DecidableEq, Repr

/-- A core, with the endpoints of the RMA writes and reads it waits for (R420); and its contexts, its core registers and the units shared by its contexts (R1, R34), and its home slice (R300). -/
structure Core where
  released : Bool
  ctxs : Vector Ctx 11
  issuePtr : Nat
  halted : Option Nat
  gatedAt : Option Nat
  powerGated : Bool
  reported : Bool
  trapVec : Word
  fmtBase : Word
  domCl : Word
  domDie : Word
  domPkg : Word
  domFab : Word
  bcastGrp : Word
  yieldDl : Word
  jobDl : Word
  cyc : Word
  domain : Nat
  spad : List Host.Cell
  spadPoison : List Nat
  l1 : List (Nat × L1Word)
  dirtyLines : List Nat
  partials : List (Nat × Partial)
  hold : List HoldEntry
  plb : List PlbEntry
  homeCache : List (Nat × Leaf)
  fmtCache : List (Nat × Word)
  icache : List (Nat × ICLine)
  streams : Vector Stream 16
  mx : Matrix
  ops : List EngOp
  opNext : Nat
  opLerr : Nat
  opLv : Bool
  opLtag : Nat
  inbox : List InboxEntry
  deferred : List InboxEntry
  rings : Vector MsgRing 8
  recvQueue : List (Nat × Nat)
  unaccepted : Nat
  retry : List Msg
  seqOut : List (Nat × Nat)
  expected : List (Nat × Nat)
  reorder : List Msg
  task : Option Task
  l2 : List (Nat × L2Line)
  tcache : List (Nat × Leaf)
  pending : List (Nat × Bool)
  parked : List Req
  router : List Req
  remoteWaits : List (Nat × Req)
  remoteData : List (Nat × BitVec 32)
  hostWrites : List Nat
  retired : Bool
  acCount : List (Nat × Nat)
deriving DecidableEq, Repr

/-- A waiter at the event unit: position, context and the offset of the word it waits on (R252). -/
structure EuWaiter where
  pos : Nat
  ctx : Nat
  off : Nat
deriving DecidableEq, Repr

/-- The masks an arrival or an event message carries: `DOM.CL`, `DOM.DIE`, `DOM.PKG`, `DOM.FAB` (R255). -/
structure DomMasks where
  cl : Word
  die : Word
  pkg : Word
  fab : Word
deriving DecidableEq, Repr

/-- A barrier of an event unit (R256, R257): its CFG fields, the generation A of each context's last counted arrival,
the positions arrived, the unit's own masks, and what it has heard from its children. -/
structure Barrier where
  en : Bool
  brk : Bool
  level : Nat
  gen : BitVec 32
  arrivals : List (Nat × Nat)
  arrived : List Nat
  own : Option DomMasks
  clDone : Bool
  heardDie : List Nat
  heardPkg : List Nat
  heardFab : List Nat
  waiters : List EuWaiter
deriving DecidableEq, Repr

/-- A mutex (R261, R274). -/
structure Mutex where
  holder : Option (Nat × Nat)
  queue : List EuWaiter
  broken : Bool
deriving DecidableEq, Repr

/-- An event (R262, R274). -/
structure EuEvent where
  set : Bool
  payload : BitVec 32
  waiters : List EuWaiter
  broken : Bool
deriving DecidableEq, Repr

/-- A cluster: its event unit, its fused state and its bus (R252, R234, R272). -/
structure Cluster where
  barriers : Vector Barrier 16
  mutexes : Vector Mutex 16
  events : Vector EuEvent 32
  hchain : Word
  waitpol : Word
  fused : Bool
  busTurn : Nat
  halted : Bool
deriving DecidableEq, Repr

/-- A combining entry of a router: the page and the ports at which messages for it came in (R310); `last` says that the root of a message
lies at this router. -/
structure Combine where
  router : Nat
  page : Nat
  ports : List Nat
  last : Bool
deriving DecidableEq, Repr

/-- A page the storage queue engine serves (R399): the leaf fields read, the frame popped, the dies whose trees wait,
whether a message carried OVF, and how often the Read was submitted. -/
structure SbFault where
  page : Nat
  leaf : Leaf
  frame : Option Nat
  dies : List Nat
  ovf : Bool
  submitted : Nat
deriving DecidableEq, Repr

/-- An I/O command submitted to an SSD and not completed (R395, R401): a fault Read of a page or a descriptor, and the TIME by which it must
have completed (R402). -/
structure SsdCmd where
  cid : Nat
  page : Option Nat
  desc : List Word
  due : Word
deriving DecidableEq, Repr

/-- An SSD of a die (R393): the I/O commands outstanding, and what its controller is waited for: 1 a reset, 2 ready, 3 Identify
Controller, 4 Identify Namespace, 5 and 6 its I/O queues, 7 the reset of a stop, 0 nothing. -/
structure Ssd where
  step : Nat
  cmds : List SsdCmd
  nextCid : Nat
deriving DecidableEq, Repr

/-- A watch armed by a host on a signal: the signal, its threshold and cookie, and the endpoint and REQID it is answered to (R421). -/
structure HostWatch where
  va : Nat
  thr : Word
  cookie : Word
  endpoint : Nat
  reqid : Nat
deriving DecidableEq, Repr

/-- A die-to-die link as its die sees it (R378): the retraining attempts in a row, and the host command that asked for one. -/
structure Link where
  attempts : Nat
  asked : Option (Nat × Nat)
deriving DecidableEq, Repr

/-- A die: its register block by offset (R301), its clock, and its hearth units. `bufReads` are the Writes whose buffer is being read from host
memory, each with its endpoint (R401); `ackWaits` are the storage requests whose completion waits for the acknowledgement of the engine's RMA
writes, whose endpoints `hostWrites` lists, and `sigWaits` those whose decrement message waits for its answer (R421). -/
structure Die where
  regs : List (Nat × Word)
  clockStopped : Bool
  vfHeld : Bool
  deferredPower : List (Nat × Word)
  links : Vector Link 2
  combine : List Combine
  watches : List (Nat × List (Nat × Nat))
  sbFaults : List SbFault
  sbQueue : List Nat
  ssds : Vector Ssd 4
  bufReads : List (Nat × List Word)
  ackWaits : List (List Word × Nat)
  sigWaits : List (List Word × Nat)
  hostWrites : List Nat
  rrPtr : Nat
  lastQueue : Vector Nat 8
  claims : List Nat
  hostWatches : List HostWatch
deriving DecidableEq, Repr

/-- A monitor a home keeps for `ldv` (a version) or `sigwait` (a threshold): its address, what it waits for, its context and the
scope of its acquire (R239, R266). -/
structure Monitor where
  isVersion : Bool
  va : Nat
  n : Nat
  thr : Word
  core : Nat
  ctx : Nat
  sc : Scope
deriving DecidableEq, Repr

/-- A work queue: the records on chip in order, which of them came back from memory with an uncorrectable error, the slot of the first record in the
queue's overflow memory and how many lie there (R334, R412); whether the head has been checked, its AGE, the tk it has been eligible since
AGE last rose, and whether its waits held when they were last read (R341). (DESIGN CHOICE, logs 43, 110) -/
structure Queue where
  records : List (List Word)
  bad : List Nat
  ovfHead : Nat
  spilled : Nat
  checked : Bool
  age : Nat
  waited : Nat
  holds : Bool
deriving DecidableEq, Repr

/-- The committed or staged writable schedule registers (R344). -/
structure Schedule where
  order : Nat
  tile : List Nat
  place : Nat
deriving DecidableEq, Repr

/-- A dispatched launch and its dispenser (R343, R349): its queue and record, the schedules, the cursors, the open tokens with their
owners (a core, or 4096 + 32c + j for the task in swap slot j of cluster c), its job deadline, and the cores still in the launch. `serving` is
the request that the dispenser serves while it reads or writes the map, `held` are those that have reached it behind that one (R350), and
`num` tells this launch from the others of its partition. -/
structure Launch where
  queue : Nat
  record : List Word
  sched : Schedule
  staged : Schedule
  gen : BitVec 32
  cursors : List (Nat × Nat)
  nextToken : Nat
  tokens : List (Nat × Nat)
  complete : Bool
  jobDl : Word
  inLaunch : List Nat
  serving : Option (Instr × Nat × Nat)
  held : List (Instr × Ev)
  num : Nat
deriving DecidableEq, Repr

/-- A saved task (R352): the core's state as saved, the reason, the faulting VA, and whether it is ready to resume. (DESIGN CHOICE, log 47) -/
structure Saved where
  slot : Nat
  reason : Nat
  cluster : Nat
  pos : Nat
  addr : Nat
  ready : Bool
  order : Nat
  image : Core
deriving DecidableEq, Repr

/-- A partition (R338, R357 to R359): its launch, whether it is switched out or halted, an armed switch time, its saved tasks, and
what a switch saved: the event units, the spilled messages, and the messages held by the barrier trees. -/
structure Part where
  launch : Option Launch
  switchedOut : Bool
  halted : Bool
  armed : Option Word
  saved : List Saved
  units : List (Nat × Cluster)
  spill : List Msg
  held : List Move
  swaps : Nat
deriving DecidableEq, Repr

/-- A fabric message sent by the device (R413). -/
structure FabMsg where
  kind : Nat
  endpoint : Nat
  target : Nat
  reqid : Nat
  arg : Word
  payload : List Word
deriving DecidableEq, Repr

/-- A page under migration or release at die 0's migration engine (R418, R419): its leaf as read, its frame, the dies whose trees wait
and whether a message carried OVF; the phase: 1 a grant is awaited, 2 a frame, 3 the page's data, 4 the acknowledgement of a release's
RMA write; the endpoint of its region, the REQID and host address of a release request, and the TIME of the grant (R426). -/
structure Migrate where
  page : Nat
  leaf : Leaf
  frame : Option Nat
  dies : List Nat
  ovf : Bool
  phase : Nat
  endpoint : Nat
  reqid : Nat
  host : Word
  granted : Word
deriving DecidableEq, Repr

/-- An entry of the error log (R391). -/
structure LogEntry where
  dw0 : Word
  dw1 : Word
  dw2 : Word
  dw3 : Word
deriving DecidableEq, Repr

/-- The state of the service processor's boot (R389). -/
inductive Boot where
  | off
  | romWaits
  | running
deriving DecidableEq, Repr

/-- A warm reset in progress: its target die and its step (R386, R409); for one that a host command asked for, the command's
endpoint and REQID, and the registers of the die that Puori writes back (R386). -/
structure WarmReset where
  die : Nat
  step : Nat
  asked : Option (Nat × Nat)
  regs : List (Nat × Word)
deriving DecidableEq, Repr

/-- A decrement sent to a pinned page that waits for its answer, with the agent it belongs to (R421). -/
structure RemoteDec where
  agent : Nat
  core : Nat
  unit : Nat
  addr : Nat
  data : List Word
deriving DecidableEq, Repr

/-- The state of the whole package. `rate` is the adjustment of TIME's rate in ppm, `dispatched` whether a launch has been dispatched
since the cold boot (R381); `errors` counts the errors of each unit (R9); `trapMsgs` are the trap messages sent to members of handler
chains and not yet answered, by destination core (R47).
`focus`, `curCtx`, `ir`, `ev`, `agenda` and `freeCtr` are the model's own: whose turn it is, the instruction in hand,
what the agents have still to do in their order, and the counter that makes each free value a fresh one. -/
structure State where
  cores : List (Nat × Core)
  clusters : List (Nat × Cluster)
  dies : List (Nat × Die)
  queues : List (Nat × Queue)
  parts : List (Nat × Part)
  mem : List Host.Cell
  poison : List Nat
  vers : List (Nat × Nat)
  time : Word
  rate : Int
  dispatched : Bool
  monitors : List Monitor
  migrations : List Migrate
  remoteDecs : List RemoteDec
  dstate : Vector Nat 4
  warm : Option WarmReset
  boot : Boot
  measured : List (List Word)
  logLast : Option LogEntry
  logInternal : List LogEntry
  logTail : Nat
  errors : List (Nat × Nat)
  sent : List FabMsg
  trapMsgs : List (Nat × List Word)
  focus : Nat
  curCtx : Fin 11
  ir : BitVec 32
  ev : Ev
  agenda : List Move
  freeCtr : Nat
deriving DecidableEq, Repr

/-- A context slot that holds no context (R39). (DESIGN CHOICE, log 3) -/
def Ctx.reset (cidx : Nat) : Ctx where
  life := .free
  placed := 0
  wait := none
  pc := 0
  g := Vector.replicate 32 0
  ox := Vector.replicate 8 0
  v := Vector.replicate 32 0
  vl := 0
  vcfg := 0
  frm := 0
  fstat := 0
  stat := BitVec.ofNat 64 (cidx * 4096)
  trapPc := 0
  trapWord := 0
  trapCause := 0
  trapAddr := 0
  trapScr0 := 0
  trapScr1 := 0
  bkptPc := 0
  uliVec := 0
  uliStat := 0
  shadow := Vector.replicate 8 0
  fwd := none
  heldReply := none
  got := []
  unplaced := []
  hand := 0
  lost := []

/-- A record that no slot holds. -/
def FmtRecord.zero : FmtRecord := { dw0 := 0, dw1 := 0, dw2 := 0, dw3 := 0 }

/-- The position of a stream context at its core before its first element; site 0xFFFF (R181). -/
def StreamPos.start : StreamPos := { prog := 0, acc := 0, pois := false, park := false, site := 0xFFFF }

/-- A FREE slot (R169). -/
def Stream.reset : Stream where
  state := .free
  kind := 0
  ctxn := 0
  svc := false
  desc := Vector.replicate 6 0
  fmt := FmtRecord.zero
  known := StreamPos.start
  left := 0
  live := StreamPos.start
  transit := false
  forwards := []
  recalling := false
  closing := false
  kept := none
  flags := 0
  err := 0
  errAddr := 0
  result := 0
  idxv := 0
  hop := none
  res := 0

/-- A ring that is not configured (R202, R208). -/
def MxRing.reset : MxRing := { cap := 0, tsize := 0, base := 0, head := 0, tail := 0, fill := 0 }

/-- A tile of zeros at window base 0 (R208). -/
def Tile.zero : Tile := { els := [], w := 0 }

/-- The matrix unit at the start of a core's part in a launch (R208). -/
def Matrix.reset : Matrix where
  queue := []
  started := false
  kprog := 0
  wait := .none
  slot := 0
  sig := 0
  ending := none
  group := 0
  recA := FmtRecord.zero
  recB := FmtRecord.zero
  flags := 0
  rings := Vector.replicate 8 MxRing.reset
  accs := Vector.replicate 4 { live := Tile.zero, shadow := Tile.zero, spec := false }
  lerr := 0
  lv := false
  ltag := 0

/-- A core that has not been released. (DESIGN CHOICE, log 3) -/
def Core.reset : Core where
  released := false
  ctxs := Vector.ofFn (fun i => Ctx.reset i.val)
  issuePtr := 0
  halted := none
  gatedAt := none
  powerGated := false
  reported := false
  trapVec := 0
  fmtBase := 0
  domCl := 0
  domDie := 0
  domPkg := 0
  domFab := 0
  bcastGrp := 0
  yieldDl := 0
  jobDl := 0
  cyc := 0
  domain := 0
  spad := []
  spadPoison := []
  l1 := []
  dirtyLines := []
  partials := []
  hold := []
  plb := []
  homeCache := []
  fmtCache := []
  icache := []
  streams := Vector.replicate 16 Stream.reset
  mx := Matrix.reset
  ops := []
  opNext := 0
  opLerr := 0
  opLv := false
  opLtag := 0
  inbox := []
  deferred := []
  rings := Vector.replicate 8 { head := 0, tail := 0, fill := 0 }
  recvQueue := []
  unaccepted := 0
  retry := []
  seqOut := []
  expected := []
  reorder := []
  task := none
  l2 := []
  tcache := []
  pending := []
  parked := []
  router := []
  remoteWaits := []
  remoteData := []
  hostWrites := []
  retired := false
  acCount := []

/-- A barrier that is not enabled (R256). -/
def Barrier.reset : Barrier where
  en := false
  brk := false
  level := 0
  gen := 0
  arrivals := []
  arrived := []
  own := none
  clDone := false
  heardDie := []
  heardPkg := []
  heardFab := []
  waiters := []

/-- A cluster at reset (R256, R263, R268). (DESIGN CHOICE, log 3) -/
def Cluster.reset : Cluster where
  barriers := Vector.replicate 16 Barrier.reset
  mutexes := Vector.replicate 16 { holder := none, queue := [], broken := false }
  events := Vector.replicate 32 { set := false, payload := 0, waiters := [], broken := false }
  hchain := 0
  waitpol := 0
  fused := false
  busTurn := 0
  halted := false

/-- The reset value of a die register (R301, R341, R365, R382, R408): zero but for DISPCFG, MESHCFG, PWRCTL and WRSTAT. (DESIGN CHOICE, logs 3, 90) -/
def dieRegReset (off : Nat) : Word :=
  if off = 0x100 then 16
  else if off = 0x138 then 0x4000000000000000
  else if off = 0x110 then 0x0000400000111222
  else if off = 0x128 then 0x102
  else 0

/-- A die at reset. (DESIGN CHOICE, log 3) -/
def Die.reset : Die where
  regs := []
  clockStopped := false
  vfHeld := false
  deferredPower := []
  links := Vector.replicate 2 { attempts := 0, asked := none }
  combine := []
  watches := []
  sbFaults := []
  sbQueue := []
  ssds := Vector.replicate 4 { step := 0, cmds := [], nextCid := 0 }
  bufReads := []
  ackWaits := []
  sigWaits := []
  hostWrites := []
  rrPtr := 0
  lastQueue := Vector.replicate 8 8191
  claims := []
  hostWatches := []

/-- An empty queue. -/
def Queue.reset : Queue := { records := [], bad := [], ovfHead := 0, spilled := 0, checked := false, age := 0, waited := 0, holds := false }

/-- A free partition (R338). -/
def Part.reset : Part where
  launch := none
  switchedOut := false
  halted := false
  armed := none
  saved := []
  units := []
  spill := []
  held := []
  swaps := 0

/-- The package right after a cold reset: no core released, the service processor's ROM about to start (R389),
every register at the value the manual gives, memory with nothing listed. (DESIGN CHOICE, logs 3, 7) -/
def State.reset : State where
  cores := []
  clusters := []
  dies := []
  queues := []
  parts := []
  mem := []
  poison := []
  vers := []
  time := 0
  rate := 0
  dispatched := false
  monitors := []
  migrations := []
  remoteDecs := []
  dstate := Vector.replicate 4 0
  warm := none
  boot := .off
  measured := []
  logLast := none
  logInternal := []
  logTail := 0
  errors := []
  sent := []
  trapMsgs := []
  focus := 0
  curCtx := 0
  ir := 0
  ev := Ev.empty
  agenda := []
  freeCtr := 0

end Sys2Proof.Machine
end

