-- ==== Sys2Proof/Machine/Units.lean ====
section
/-!
DEFINITION. Reading and replacing one unit of the package: cores, contexts, clusters, dies, queues, partitions.
A unit the state does not list is as reset leaves it.
-/

namespace Sys2Proof.Machine

open Sys2Proof

/-- The top byte of an address. -/
def topByte (a : Nat) : Nat := a / 2 ^ 48

/-- Does an address lie outside the physical window and core-local space (R76)? -/
def isTranslated (a : Nat) : Bool := topByte a != 0xFE && topByte a != 0xFF

/-- The outcome of a step of this machine. -/
abbrev Out := Host.Outcome State Fault Refusal

/-- Core `n`. -/
def State.coreAt (s : State) (n : Nat) : Core := (tabFind s.cores n).getD Core.reset

/-- The state with core `n` replaced. -/
def State.setCore (s : State) (n : Nat) (c : Core) : State := { s with cores := tabPut s.cores n c }

/-- The state with core `n` changed. -/
def State.onCore (s : State) (n : Nat) (f : Core → Core) : State := s.setCore n (f (s.coreAt n))

/-- Context `i` of a core. -/
def Core.ctx (c : Core) (i : Nat) : Ctx := if h : i < 11 then c.ctxs[i] else Ctx.reset 0

/-- The core with context `i` replaced. -/
def Core.setCtx (c : Core) (i : Nat) (x : Ctx) : Core :=
  if h : i < 11 then { c with ctxs := c.ctxs.set i x h } else c

/-- Context `i` of core `n`. -/
def State.ctxAt (s : State) (n i : Nat) : Ctx := (s.coreAt n).ctx i

/-- The state with context `i` of core `n` replaced. -/
def State.setCtxAt (s : State) (n i : Nat) (x : Ctx) : State := s.setCore n ((s.coreAt n).setCtx i x)

/-- The state with context `i` of core `n` changed. -/
def State.onCtx (s : State) (n i : Nat) (f : Ctx → Ctx) : State := s.setCtxAt n i (f (s.ctxAt n i))

/-- The core whose instruction executes. -/
def State.core (s : State) : Core := s.coreAt s.focus

/-- The context whose instruction executes. -/
def State.ctx (s : State) : Ctx := s.ctxAt s.focus s.curCtx

/-- The state with the executing core changed. -/
def State.mapCore (s : State) (f : Core → Core) : State := s.onCore s.focus f

/-- The state with the executing context changed. -/
def State.mapCtx (s : State) (f : Ctx → Ctx) : State := s.onCtx s.focus s.curCtx f

/-- A general register as read: `g0` reads zero (R34). -/
def Ctx.getG (x : Ctx) (r : Reg) : Word := if r = 0 then 0 else x.g[r.toNat]

/-- A general register written: a write to `g0` is discarded (R34). -/
def Ctx.setG (x : Ctx) (r : Reg) (v : Word) : Ctx := if r = 0 then x else { x with g := x.g.set r.toNat v }

/-- An operand-extension register as read. -/
def Ctx.getOx (x : Ctx) (r : OxReg) : Word := x.ox[r.toNat]

/-- An operand-extension register written. -/
def Ctx.setOx (x : Ctx) (r : OxReg) (v : Word) : Ctx := { x with ox := x.ox.set r.toNat v }

/-- A vector register as read. -/
def Ctx.getV (x : Ctx) (r : Nat) : VReg := if h : r < 32 then x.v[r] else 0

/-- A vector register written. -/
def Ctx.setV (x : Ctx) (r : Nat) (v : VReg) : Ctx := if h : r < 32 then { x with v := x.v.set r v h } else x

/-- PRIV of `CTX.STAT`: 0 user, 1 supervisor, 2 service (R38). -/
def Ctx.priv (x : Ctx) : Nat := fieldOf x.stat 0 2
/-- PPRIV of `CTX.STAT` (R38). -/
def Ctx.ppriv (x : Ctx) : Nat := fieldOf x.stat 8 2
/-- BCTE of `CTX.STAT` (R38). -/
def Ctx.bcte (x : Ctx) : Bool := x.stat.getLsbD 5
/-- INH of `CTX.STAT` (R38). -/
def Ctx.inh (x : Ctx) : Bool := x.stat.getLsbD 10
/-- BSKIP of `CTX.STAT` (R38). -/
def Ctx.bskip (x : Ctx) : Bool := x.stat.getLsbD 11
/-- CIDX of `CTX.STAT` (R38). -/
def Ctx.cidx (x : Ctx) : Nat := fieldOf x.stat 12 4

/-- The context with a field of `CTX.STAT` replaced. -/
def Ctx.setStat (x : Ctx) (lo n v : Nat) : Ctx := { x with stat := setField x.stat lo n v }

/-- The context with sticky flags set: hardware only sets them (R37). -/
def Ctx.orFlags (x : Ctx) (f : Flags) : Ctx := { x with fstat := x.fstat ||| f.setWidth 64 }

/-- A general register of the executing context. -/
def State.g (s : State) (r : Reg) : Word := s.ctx.getG r

/-- A general register of the executing context written. -/
def State.setG (s : State) (r : Reg) (v : Word) : State := s.mapCtx (fun x => x.setG r v)

/-- Does the breakpoint register name the instruction at this PC (R49)? (DEDUCED, log 15) -/
def Ctx.bkptHere (x : Ctx) : Bool := x.bkptPc.getLsbD 0 && fieldOf x.bkptPc 1 55 == fieldOf x.pc 1 55

/-- BSKIP clears when the instruction whose match it suppressed completes or traps (R49). (DEDUCED, log 15) -/
def Ctx.unskip (x : Ctx) : Ctx := if x.bkptHere then x.setStat 11 1 0 else x

/-- A context at its next PC, its instruction complete (R49). -/
def Ctx.goto (x : Ctx) (target : VAddr) : Ctx := { x.unskip with pc := target, got := [], lost := [] }

/-- The executing context at the instruction after one of `len` bytes, its instruction complete. -/
def State.finish (s : State) (len : Nat) : State := s.mapCtx (fun x => x.goto (x.pc + BitVec.ofNat 56 len))

/-- The executing context at a jump target, its instruction complete (R79). -/
def State.jump (s : State) (target : VAddr) : State := s.mapCtx (fun x => x.goto target)

/-- Cluster `n`. -/
def State.clusterAt (s : State) (n : Nat) : Cluster := (tabFind s.clusters n).getD Cluster.reset

/-- The state with cluster `n` changed. -/
def State.onCluster (s : State) (n : Nat) (f : Cluster → Cluster) : State :=
  { s with clusters := tabPut s.clusters n (f (s.clusterAt n)) }

/-- Die `n`. -/
def State.dieAt (s : State) (n : Nat) : Die := (tabFind s.dies n).getD Die.reset

/-- The state with die `n` changed. -/
def State.onDie (s : State) (n : Nat) (f : Die → Die) : State :=
  { s with dies := tabPut s.dies n (f (s.dieAt n)) }

/-- A register of a die's block by its offset, as stored (R301). -/
def State.dieReg (s : State) (d off : Nat) : Word :=
  (tabFind (s.dieAt d).regs off).getD (dieRegReset off)

/-- A register of a die's block replaced. -/
def State.setDieReg (s : State) (d off : Nat) (v : Word) : State :=
  s.onDie d (fun x => { x with regs := tabPut x.regs off v })

/-- Queue `n` (R334). -/
def State.queueAt (s : State) (n : Nat) : Queue := (tabFind s.queues n).getD Queue.reset

/-- The state with queue `n` changed. -/
def State.onQueue (s : State) (n : Nat) (f : Queue → Queue) : State :=
  { s with queues := tabPut s.queues n (f (s.queueAt n)) }

/-- Partition `n` (R338). -/
def State.partAt (s : State) (n : Nat) : Part := (tabFind s.parts n).getD Part.reset

/-- The state with partition `n` changed. -/
def State.onPart (s : State) (n : Nat) (f : Part → Part) : State :=
  { s with parts := tabPut s.parts n (f (s.partAt n)) }

/-- The die of a logical core: 1008 per die, die 0 first (R2). -/
def dieOfCore (n : Nat) : Nat := n / 1008

/-- The cluster of a logical core (R252's chapter). -/
def clusterOfCore (n : Nat) : Nat := n / 16

/-- The position of a core in its cluster. -/
def posOfCore (n : Nat) : Nat := n % 16

/-- The die of a logical cluster: clusters 63d to 63d + 62 lie on die d. -/
def dieOfCluster (c : Nat) : Nat := c / 63

/-- A move added behind everything the agents have still to do. (DESIGN CHOICE, logs 1, 90) -/
def State.post (s : State) (i : Instr) (e : Ev) : State := { s with agenda := s.agenda ++ [.event i e] }

/-- An agent's event that cannot act yet: every listed core has a turn before it comes again. (DESIGN CHOICE, log 1) -/
def State.retryLater (s : State) (i : Instr) (e : Ev) : State :=
  { s with agenda := s.agenda ++ s.cores.map (fun nc => Move.turn nc.1) ++ [.event i e] }

/-- A fresh free value: the manual leaves it open. (DESIGN CHOICE, log 5) -/
def State.freeWord (s : State) : Word × State := (Config.freeWord s.freeCtr, { s with freeCtr := s.freeCtr + 1 })

/-- An event about a context. -/
def Ev.ofCtx (core ctx : Nat) : Ev := { Ev.empty with core := core, ctx := ctx, die := dieOfCore core }

/-- The executing context waits for `why`; its instruction is kept for the wait (R43, R50). (DEDUCED, log 10) -/
def State.wait (s : State) (why : Why) : State :=
  s.mapCtx (fun x => { x with wait := some { why := why, ir := s.ir } })

/-- A context no longer waits: it is ready to execute its instruction again. (DEDUCED, log 10) -/
def State.ready (s : State) (n i : Nat) : State := s.onCtx n i (fun x => { x with wait := none })

/-- Does a wait end when any unit of the core frees? -/
def Ctx.waitsBusy (x : Ctx) : Bool :=
  match x.wait with
  | some w => w.why == .busy
  | none => false

/-- Every context of a core that waits for a busy unit is looked at again (R43). -/
def State.wakeBusy (s : State) (n : Nat) : State :=
  s.onCore n (fun c => { c with ctxs := c.ctxs.map (fun x => if x.waitsBusy then { x with wait := none } else x) })

/-- The contexts of every listed core that wait for a busy unit are looked at again: what was busy lay beyond their core. -/
def State.wakeAll (s : State) : State := s.cores.foldl (fun a nc => a.wakeBusy nc.1) s

/-- The length in bytes of the instruction whose bits these are: bit 0 gives it (R52). -/
def irLen (ir : BitVec 32) : Nat := if ir.getLsbD 0 then 4 else 2

/-- The waiting instruction's destination register, at [11:7]. -/
def irD (ir : BitVec 32) : Reg := ir.extractLsb' 7 5

/-- A waiting instruction completes at its context: the result is written and the PC moves on (R43). -/
def Ctx.complete (x : Ctx) (result : Option Word) : Ctx :=
  match x.wait with
  | none => x
  | some w =>
    let x1 := match result with
      | some v => x.setG (irD w.ir) v
      | none => x
    { x1 with wait := none }.goto (x1.pc + BitVec.ofNat 56 (irLen w.ir))

/-- A waiting context's instruction completes with a result. -/
def State.answer (s : State) (n i : Nat) (result : Option Word) : State := s.onCtx n i (fun x => x.complete result)

/-- Every context of every listed core that waits as `p` says is answered by `f`. -/
def State.forWaiting (s : State) (p : Nat → Nat → Waiting → Bool) (f : Nat → Nat → State → State) : State :=
  s.cores.foldl (fun acc nc => (List.range 11).foldl (fun a i =>
    match (nc.2.ctx i).wait with
    | some w => if p nc.1 i w then f nc.1 i a else a
    | none => a) acc) s

end Sys2Proof.Machine
end

