-- ==== Sys2Proof/Machine/Memory.lean ====
section
/-!
DEFINITION. Device memory, the lines of the home slices, the reach of a request, and the error log.
Memory is keyed by physical address; a line of a slice is keyed by virtual line number, which for the physical
window is the line number of the window address (R300).
-/

namespace Sys2Proof.Machine

open Sys2Proof

/-- A byte of device memory; one that nothing has written reads 0 (log 4). (DESIGN CHOICE, log 4) -/
def memByte (m : List Host.Cell) (a : Nat) : Byte := tabGet 0 m a

/-- A byte of device memory written, in canonical form. -/
def memSet (m : List Host.Cell) (a : Nat) (b : Byte) : List Host.Cell := tabSet 0 m a b

/-- The canonical form of memory: addresses strictly rising, no entry equal to what an unlisted address reads as. (DESIGN CHOICE, log 4) -/
def Memory.wf (m : List Host.Cell) : Bool := tabWf (0 : Byte) m

/-- `n` bytes of memory from an address up. -/
def memRead (m : List Host.Cell) : Nat → Nat → List Byte
  | 0, _ => []
  | n + 1, a => memByte m a :: memRead m n (a + 1)

/-- Bytes written to memory from an address up. -/
def memWrite (m : List Host.Cell) (a : Nat) : List Byte → List Host.Cell
  | [] => m
  | b :: bs => memWrite (memSet m a b) (a + 1) bs

/-- A number added to or taken out of a rising list. -/
def setMember (l : List Nat) (x : Nat) (present : Bool) : List Nat :=
  if present then insertNat x l else l.filter (fun y => y != x)

/-- The words 32 bits wide that `n` bytes at `off` touch. -/
def wordsTouched (off n : Nat) : List Nat :=
  if n = 0 then [] else (List.range ((off + n - 1) / 4 + 1 - off / 4)).map (fun i => off / 4 + i)

/-- Do `n` bytes at `off` cover the whole word `w`? -/
def wordCovered (off n w : Nat) : Bool := decide (off ≤ 4 * w) && decide (4 * w + 4 ≤ off + n)

/-- A bit of a mask set or cleared. -/
def setBit {w : Nat} (x : BitVec w) (i : Nat) (b : Bool) : BitVec w := setField x i 1 (if b then 1 else 0)

/-- The `n` bytes of a line at `off`. -/
def L2Line.bytes (l : L2Line) (off n : Nat) : List Byte := bytesLE n (fieldOf l.data (8 * off) (8 * n))

/-- Is any word that `n` bytes at `off` touch poisoned? -/
def L2Line.poisoned (l : L2Line) (off n : Nat) : Bool := (wordsTouched off n).any (fun w => l.poison.getLsbD w)

/-- A line with bytes written: a word covered whole loses its poison, a word written in part keeps it (R77). -/
def L2Line.put (l : L2Line) (off : Nat) (bs : List Byte) : L2Line :=
  let n := bs.length
  let ws := wordsTouched off n
  { l with
    data := setField l.data (8 * off) (8 * n) (fromBytesLE bs)
    poison := ws.foldl (fun p w => if wordCovered off n w then setBit p w false else p) l.poison
    dirty := ws.foldl (fun d w => setBit d w true) l.dirty }

/-- A word of a line poisoned (R7). -/
def L2Line.poisonWord (l : L2Line) (w : Nat) : L2Line :=
  { l with poison := setBit l.poison w true, dirty := setBit l.dirty w true }

/-- A line as an instruction cache takes it. -/
def L2Line.icLine (l : L2Line) : ICLine := { data := l.data, poison := l.poison, valid := BitVec.allOnes 16 }

/-- The line number of the physical-window address of a PA. -/
def winKey (pa : Nat) : Nat := (0xFE * 2 ^ 48 + pa) / 64

/-- Does a line lie in the physical window? -/
def isWinKey (key : Nat) : Bool := key / 2 ^ 42 == 0xFE

/-- The PA of a physical-window line. -/
def winPa (key : Nat) : Nat := key % 2 ^ 42 * 64

/-- Is a PA in HBM4E (R300)? -/
def paHbm (pa : Nat) : Bool := decide (pa < 0x8000000000)

/-- Is a PA in the die register blocks (R300)? -/
def paReg (pa : Nat) : Bool := decide (0x7F0000000000 ≤ pa) && decide (pa < 0x7F0000400000)

/-- Is a PA in host memory (R300)? -/
def paHost (pa : Nat) : Bool := decide (0x800000000000 ≤ pa) && decide (pa < 0x1000000000000)

/-- The die of an HBM4E address (R300, R380). -/
def paDie (pa : Nat) : Nat := bitsOf pa 37 2

/-- The stack within the die (R380). -/
def paStack (pa : Nat) : Nat := bitsOf pa 36 1

/-- The channel within the stack (R380). -/
def paChannel (pa : Nat) : Nat := bitsOf pa 8 5 ^^^ bitsOf pa 13 5

/-- The RMAP entry `i` of a die (R301, R305). -/
def State.rmap (s : State) (d i : Nat) : Word := s.dieReg d (0x60 + 8 * i)

/-- The TO of the valid RMAP entry that names a home as FROM (R305). -/
def State.rmapTo (s : State) (slice : Nat) : Option Nat :=
  let d := dieOfCore slice
  ((List.range 16).find? (fun i => (s.rmap d i).getLsbD 63 && fieldOf (s.rmap d i) 16 12 == slice)).map (fun i => fieldOf (s.rmap d i) 0 12)

/-- Where a valid RMAP entry sends a home; remapping is applied once (R305). -/
def State.remap (s : State) (slice : Nat) : Nat := (s.rmapTo slice).getD slice

/-- Is a slice retired: by a host command, or as the FROM of a valid RMAP entry of its die (R305, R315)? -/
def State.isRetired (s : State) (slice : Nat) : Bool := (s.coreAt slice).retired || (s.rmapTo slice).isSome

/-- Does the remap of a home give a retired slice? Every access to such a home answers as ERROR (R305). -/
def State.badRemap (s : State) (slice : Nat) : Bool :=
  match s.rmapTo slice with
  | some t => s.isRetired t
  | none => false

/-- The slice that homes a physical-window line before the remap (R300). -/
def physSlice (pa : Nat) : Nat := 1008 * (if paHbm pa then paDie pa else 0) + bitsOf pa 6 33 % 1008

/-- The slice that homes a physical-window line (R300). -/
def State.physHome (s : State) (pa : Nat) : Nat := s.remap (physSlice pa)

/-- STATE of a die's link: east-west at [63:62], north-south at [31:30] of LINKSTAT (R379). -/
def State.linkState (s : State) (d : Nat) (ew : Bool) : Nat :=
  fieldOf (s.dieReg d 0x118) (if ew then 62 else 30) 2

/-- Does the route between two dies, X before Y, cross a failed link (R362, R378)? -/
def State.routeFailed (s : State) (a b : Nat) : Bool :=
  let corner := 2 * (a / 2) + b % 2
  (a % 2 != b % 2 && s.linkState a true == 3) || (a / 2 != b / 2 && s.linkState corner false == 3)

/-- What becomes of a packet on its route between two dies: 1 where it would pass through a die under warm reset (R410), 2 where it would
cross a failed link (R378). -/
def State.routeBlocked (s : State) (a b : Nat) : Option Nat :=
  let corner := 2 * (a / 2) + b % 2
  let via := s.dstate.toList.getD corner 0
  if corner ≠ a ∧ corner ≠ b ∧ 1 ≤ via ∧ via ≤ 6 then some 1 else if s.routeFailed a b then some 2 else none

/-- The error reply of a packet from a die to a unit on a die, if it gets one (R384, R386, R410): 1 HOME-RESET, 2 LINK-DOWN, 3 DIE-OFF.
`wb` is set for a write-back, which is accepted until the die's step 2 ends. -/
def State.reachOneWay (s : State) (a b : Nat) (wb : Bool) : Option Nat :=
  let st := s.dstate.toList.getD b 0
  match s.routeBlocked a b with
  | some 1 => some 1
  | r =>
    if st = 7 then some 3
    else if 3 ≤ st then some 1
    else if 1 ≤ st ∧ a ≠ b ∧ !wb then some 1
    else r

/-- The error reply of a request that is answered or acknowledged: its response takes a route of its own, X before Y from its own die, and
a request whose response cannot come is not served (R362, R378, R384). (DEDUCED, log 108) -/
def State.reach (s : State) (a b : Nat) (wb : Bool) : Option Nat :=
  (s.reachOneWay a b wb).or (s.routeBlocked b a)

/-- The line of HBM4E at a PA, with its poison and its version (R380). (DESIGN CHOICE, log 4) -/
def State.hbmLine (s : State) (pa : Nat) : L2Line :=
  let p := pa / 64 * 64
  { data := BitVec.ofNat 512 (fromBytesLE (memRead s.mem 64 p))
    poison := BitVec.ofNat 16 (joinChunks 1 ((List.range 16).map (fun w => if s.poison.contains (p / 4 + w) then 1 else 0)))
    dirty := 0
    ver := BitVec.ofNat 32 (tabGet 0 s.vers (p / 64))
    verDirty := false }

/-- The dirty words of a line and its version written to HBM4E. -/
def State.writeHbm (s : State) (pa : Nat) (l : L2Line) : State :=
  let p := pa / 64 * 64
  let s1 := (List.range 16).foldl (fun a w =>
    if l.dirty.getLsbD w then
      { a with mem := memWrite a.mem (p + 4 * w) (l.bytes (4 * w) 4)
               poison := setMember a.poison (p / 4 + w) (l.poison.getLsbD w) }
    else a) s
  if l.verDirty then { s1 with vers := tabSet 0 s1.vers (p / 64) l.ver.toNat } else s1

/-- A line of a slice, if the slice holds it. -/
def State.sliceLine (s : State) (slice key : Nat) : Option L2Line := tabFind (s.coreAt slice).l2 key

/-- A line put into a slice. -/
def State.setSliceLine (s : State) (slice key : Nat) (l : L2Line) : State :=
  s.onCore slice (fun c => { c with l2 := tabPut c.l2 key l })

/-- A line dropped from a slice. -/
def State.dropSliceLine (s : State) (slice key : Nat) : State :=
  s.onCore slice (fun c => { c with l2 := tabDel c.l2 key })

/-- What the physical-window home of a PA holds: the slice's line, or the memory behind it.
A unit of die `a` reads it there; a home that cannot be reached answers with its status, and a PA outside HBM4E, or a home whose remap
gives a retired slice, with 0: ERROR (R305, R308). -/
def State.peekLine (s : State) (a pa : Nat) : Except Nat L2Line :=
  let slice := s.physHome pa
  match s.reach a (dieOfCore slice) false with
  | some c => .error c
  | none =>
    if !paHbm pa || s.badRemap (physSlice pa) then .error 0 else .ok ((s.sliceLine slice (winKey pa)).getD (s.hbmLine pa))

/-- `n` bytes read within one line at a physical-window home, and whether a word among them is poisoned. (DEDUCED, log 12) -/
def State.peek (s : State) (a pa n : Nat) : Except Nat (List Byte × Bool) :=
  match s.peekLine a pa with
  | .error c => .error c
  | .ok l => .ok (l.bytes (pa % 64) n, l.poisoned (pa % 64) n)

/-- A doubleword at a physical-window home; a home that cannot answer reads as poison. -/
def State.peekWord (s : State) (a pa : Nat) : Word × Bool :=
  match s.peek a pa 8 with
  | .ok (bs, p) => (BitVec.ofNat 64 (fromBytesLE bs), p)
  | .error _ => (0, true)

/-- The core whose L1 keeps a line for core `n`: its own, or in a fused cluster the core at position VA[9:6] (R234). -/
def State.l1Owner (s : State) (n line : Nat) : Nat :=
  if (s.clusterAt (clusterOfCore n)).fused then 16 * clusterOfCore n + line % 16 else n

/-- The cores whose L1s act as the L1 of core `n` (R234). -/
def State.l1Cores (s : State) (n : Nat) : List Nat :=
  if (s.clusterAt (clusterOfCore n)).fused then (List.range 16).map (fun p => 16 * clusterOfCore n + p) else [n]

/-- Does a scope reach beyond the L1 of core `n`: wider than core, and for a fused L1 wider than cluster (R323)? -/
def State.beyondL1 (s : State) (n : Nat) (sc : Scope) : Bool :=
  match sc with
  | .core => false
  | .cluster => !(s.clusterAt (clusterOfCore n)).fused
  | _ => true

/-- The words that the host has still to send for requests that `p` names are invalid once they are filled (R332). -/
def Core.staleWaits (c : Core) (p : Req → Bool) : Core :=
  { c with remoteWaits := c.remoteWaits.map (fun r => if p r.2 then (r.1, { r.2 with stale := true }) else r) }

/-- The invalidation of an acquire at a scope: every clean word of the L1 goes, dirty words stay; so does what a fill brings for a read
issued before (R89, R323, R332). -/
def State.acquire (s : State) (n : Nat) (sc : Scope) : State :=
  if s.beyondL1 n sc then
    (s.l1Cores n).foldl (fun a m => a.onCore m (fun c =>
      { c with l1 := c.l1.filter (fun p => p.2.dirty) }.staleWaits (fun r => r.kind != 2))) s
  else s

/-- A fabric message sent. -/
def State.sendFabric (s : State) (m : FabMsg) : State := { s with sent := s.sent ++ [m] }

/-- A store that reaches a watched line at its home wakes every watching walker and clears the list (R312). -/
def State.fireWalkers (s : State) (slice key : Nat) : State :=
  let d := dieOfCore slice
  match tabFind (s.dieAt d).watches key with
  | none => s
  | some ws =>
    let s1 := s.onDie d (fun x => { x with watches := tabDel x.watches key })
    ws.foldl (fun a w => a.post .wake { Ev.empty with core := w.1, addr := w.2, die := dieOfCore w.1 }) s1

/-- A signal monitor of a context as its line now stands (R266): one whose threshold is met answers with the value that met it and
acquires at system scope; one that meets poison is executed again and traps. A monitor whose context no longer waits is dropped. (DEDUCED, log 31) -/
def State.checkMonitor (s : State) (l : L2Line) (m : Monitor) : Bool × State :=
  let waits := match (s.ctxAt m.core m.ctx).wait with
    | some w => w.why == .signal m.va m.thr
    | none => false
  let v : Word := BitVec.ofNat 64 (fromBytesLE (l.bytes (m.va % 64) 8))
  if !waits then (false, s)
  else if l.poisoned (m.va % 64) 8 then (false, s.ready m.core m.ctx)
  else if v.toInt ≤ m.thr.toInt then (false, (s.acquire m.core .system).answer m.core m.ctx (some v))
  else (true, s)

/-- The signal monitors of a line looked at once after a store has reached its home (R267). -/
def State.checkMonitors (s : State) (key : Nat) (l : L2Line) : State :=
  s.monitors.foldl (fun (a : State) m =>
    if m.isVersion || m.va / 64 != key then a else
    match a.checkMonitor l m with
    | (true, b) => b
    | (false, b) => { b with monitors := b.monitors.filter (fun x => x != m) }) s

/-- A host's watch whose threshold is met sends one notice and is disarmed (R421). -/
def State.checkHostWatches (s : State) (key : Nat) (l : L2Line) : State :=
  s.dies.foldl (fun (a : State) nd =>
    nd.2.hostWatches.foldl (fun (b : State) w =>
      let v : Word := BitVec.ofNat 64 (fromBytesLE (l.bytes (w.va % 64) 8))
      if w.va / 64 = key && !l.poisoned (w.va % 64) 8 && v.toInt ≤ w.thr.toInt then
        (b.onDie nd.1 (fun x => { x with hostWatches := x.hostWatches.filter (fun y => y != w) })).sendFabric
          { kind := 0x84, endpoint := w.endpoint, target := 0, reqid := w.reqid, arg := BitVec.ofNat 64 w.va, payload := [v, w.cookie] }
      else b) a) s

/-- What a store that reaches a line at its home sets off: watches fire (R312) and monitors are looked at (R267, R421). -/
def State.fireWatch (s : State) (slice key : Nat) : State :=
  let s1 := s.fireWalkers slice key
  match s1.sliceLine slice key with
  | some l => (s1.checkMonitors key l).checkHostWatches key l
  | none => s1

/-- Bytes stored within one line at its home: the slice takes the line, and a watch on it fires. -/
def State.homeStore (s : State) (slice key : Nat) (l : L2Line) (off : Nat) (bs : List Byte) : State :=
  (s.setSliceLine slice key (l.put off bs)).fireWatch slice key

/-- Bytes stored within one line at its physical-window home by a unit of die `a`; none when the home cannot be reached. -/
def State.pokeLine (s : State) (a pa : Nat) (bs : List Byte) : Option State :=
  match s.peekLine a pa with
  | .error _ => none
  | .ok l => some (s.homeStore (s.physHome pa) (winKey pa) l (pa % 64) bs)

/-- A run of bytes cut at line boundaries: line number, offset in the line, length. -/
def splitLines : Nat → Nat → Nat → List (Nat × Nat × Nat)
  | 0, _, _ => []
  | fuel + 1, ea, n =>
    if n = 0 then [] else
    let k := min n (64 - ea % 64)
    (ea / 64, ea % 64, k) :: splitLines fuel (ea + k) (n - k)

/-- The lines that `n` bytes at `ea` touch. -/
def linesOf (ea n : Nat) : List (Nat × Nat × Nat) := splitLines (n / 64 + 2) ea n

/-- Bytes stored at their physical-window homes; a line whose home cannot be reached is left out. -/
def State.poke (s : State) (a pa : Nat) (bs : List Byte) : State :=
  (linesOf pa bs.length).foldl (fun st l =>
    let at' := l.1 * 64 + l.2.1
    (st.pokeLine a at' ((bs.drop (at' - pa)).take l.2.2)).getD st) s

/-- Endpoint entry `e` of die 0's table: its word, zero when the table cannot be read (R412). (DEDUCED, log 55) -/
def State.endpoint (s : State) (e : Nat) : Word :=
  let p := s.peekWord 0 (fieldOf (s.dieReg 0 0x310) 0 48 + 8 * e)
  if p.2 then 0 else p.1

/-- Is some Ultra Ethernet port up (R412, R415)? -/
def State.portUp (s : State) : Bool :=
  (List.range 4).any (fun d => [0x300, 0x308].any (fun o => (s.dieReg d o).getLsbD 63 && fieldOf (s.dieReg d o) 61 2 == 1))

/-- The valid endpoints that take reports (R415). -/
def State.reportEndpoints (s : State) : List Nat :=
  if !s.portUp then [] else
  (List.range 256).filter (fun e => (s.endpoint e).getLsbD 63 && (s.endpoint e).getLsbD 61)

/-- A report sent to every endpoint that takes reports (R415). -/
def State.reportAll (s : State) (kind target : Nat) (arg : Word) (payload : List Word) : State :=
  s.reportEndpoints.foldl (fun a e =>
    a.sendFabric { kind := kind, endpoint := e, target := target, reqid := 0, arg := arg, payload := payload }) s

/-- An error as a rule reports it (R391, R434). -/
structure ErrRec where
  cls : Nat
  die : Nat
  core : Nat
  unit : Nat
  addr : Nat
  detail : Word
deriving DecidableEq, Repr

/-- Doubleword 1 of a log entry (R391). -/
def logDw1 (cls die core unit mid count : Nat) : Word :=
  BitVec.ofNat 64 (cls * 2 ^ 56 + die % 4 * 2 ^ 54 + core % 4096 * 2 ^ 42 + unit % 1024 * 2 ^ 32 + mid % 65536 * 65536 + count % 65536)

/-- A 16-bit field of a word increased by one, saturating. -/
def satField (x : Word) (lo : Nat) : Word := setField x lo 16 (min 65535 (fieldOf x lo 16 + 1))

/-- CLASS of an entry. -/
def LogEntry.cls (e : LogEntry) : Nat := fieldOf e.dw1 56 8

/-- An entry in which one more error of a class is counted (R391): COUNT, and for a summary the count of its class. -/
def LogEntry.count (e : LogEntry) (cls : Nat) : LogEntry :=
  let e1 := { e with dw1 := satField e.dw1 0 }
  if e.cls != 0x0C then e1
  else if 1 ≤ cls ∧ cls ≤ 4 then { e1 with dw2 := satField e1.dw2 (16 * (cls - 1)) }
  else if 5 ≤ cls ∧ cls ≤ 8 then { e1 with dw3 := satField e1.dw3 (16 * (cls - 5)) }
  else { e1 with dw1 := satField e1.dw1 16 }

/-- The entry of one error at a time. -/
def logEntryOf (t : Word) (e : ErrRec) : LogEntry :=
  { dw0 := t, dw1 := logDw1 e.cls e.die e.core e.unit 0 1, dw2 := BitVec.ofNat 64 e.addr, dw3 := e.detail }

/-- A summary entry in which no error is counted yet. -/
def logSummary (t : Word) : LogEntry := { dw0 := t, dw1 := logDw1 0x0C 0 0xFFF 6 0 0, dw2 := 0, dw3 := 0 }

/-- Does an error repeat the entry just written: same CLASS, unit and address (R391)? -/
def LogEntry.repeats (l : LogEntry) (e : ErrRec) : Bool :=
  l.cls == e.cls && l.dw2 == BitVec.ofNat 64 e.addr &&
    fieldOf l.dw1 32 24 == fieldOf (logDw1 e.cls e.die e.core e.unit 0 0) 32 24

/-- What the ring does with an error: whether a new entry is taken, and the entry to write (R391). -/
def logNext (t : Word) (last : Option LogEntry) (used cap : Nat) (e : ErrRec) : Bool × LogEntry :=
  match last with
  | some l =>
    if l.cls != 0x0C && l.repeats e then (false, l.count e.cls)
    else if used + 1 = cap then (false, l.count e.cls)
    else if used + 2 = cap then (true, (logSummary t).count e.cls)
    else (true, logEntryOf t e)
  | none => if used + 2 = cap then (true, (logSummary t).count e.cls) else (true, logEntryOf t e)

/-- The 32 bytes of an entry. -/
def LogEntry.image (e : LogEntry) : List Byte :=
  bytesLE 8 e.dw0.toNat ++ bytesLE 8 e.dw1.toNat ++ bytesLE 8 e.dw2.toNat ++ bytesLE 8 e.dw3.toNat

/-- The doublewords of an entry. -/
def LogEntry.words (e : LogEntry) : List Word := [e.dw0, e.dw1, e.dw2, e.dw3]

/-- An error recorded in the ring in device memory (R391). -/
def State.logToRing (s : State) (e : ErrRec) : State :=
  let cap := fieldOf (s.dieReg 0 0x140) 48 16
  let base := fieldOf (s.dieReg 0 0x140) 0 48
  let ptr := s.dieReg 0 0x148
  let head := fieldOf ptr 32 32
  let tail := fieldOf ptr 0 32
  let (fresh, ent) := logNext s.time s.logLast ((tail + cap - head) % cap) cap e
  let slot := if fresh then tail else (tail + cap - 1) % cap
  let s1 := s.poke 0 (base + 32 * slot) ent.image
  let s2 := if fresh then s1.setDieReg 0 0x148 (setField ptr 0 32 ((tail + 1) % cap)) else s1
  { s2 with logLast := some ent }.reportAll 0x89 0 (BitVec.ofNat 64 slot) ent.words

/-- An error recorded in the internal ring of 64 entries (R391). -/
def State.logToInternal (s : State) (e : ErrRec) : State :=
  let (fresh, ent) := logNext s.time s.logLast s.logInternal.length 64 e
  let s1 := if fresh then { s with logInternal := s.logInternal ++ [ent], logTail := (s.logTail + 1) % 64 }
    else { s with logInternal := s.logInternal.dropLast ++ [ent] }
  { s1 with logLast := some ent }.reportAll 0x89 0
    (BitVec.ofNat 64 (2 ^ 63 + (s1.logTail + 63) % 64)) ent.words

/-- An error recorded and reported (R6, R391). -/
def State.logError (s : State) (e : ErrRec) : State :=
  if 2 ≤ fieldOf (s.dieReg 0 0x140) 48 16 then s.logToRing e else s.logToInternal e

/-- An error that a core reports. (DEDUCED, log 20) -/
def State.logCore (s : State) (n cls addr : Nat) (detail : Word) : State :=
  s.logError { cls := cls, die := dieOfCore n, core := n, unit := 0, addr := addr, detail := detail }

/-- An error that the cluster engine reports for an operation of a core (R391). -/
def State.logEngine (s : State) (n cls addr : Nat) (detail : Word) : State :=
  s.logError { cls := cls, die := dieOfCore n, core := n, unit := 5, addr := addr, detail := detail }

/-- An error that a home slice reports. -/
def State.logSlice (s : State) (n cls addr : Nat) (detail : Word) : State :=
  s.logError { cls := cls, die := dieOfCore n, core := n, unit := 1, addr := addr, detail := detail }

/-- An error that a hearth unit of a die reports. (DEDUCED, log 114) -/
def State.logHearth (s : State) (d cls unit addr : Nat) (detail : Word) : State :=
  s.logError { cls := cls, die := d, core := 0xFFF, unit := unit, addr := addr, detail := detail }

/-- A partition notice or a residency report: lost, and the loss counted, when no endpoint can take it (R415). -/
def State.report (s : State) (kind target : Nat) (arg : Word) (payload : List Word) : State :=
  if s.reportEndpoints.isEmpty then s.logHearth 0 0x0A 6 0 0 else s.reportAll kind target arg payload

/-- Does the inbox of a core have a free entry (R241)? -/
def Core.inboxFree (c : Core) : Bool := decide (c.inbox.length < 64)

/-- The context an entry goes to: an entry for a helper that is not live goes to the control context (R241). -/
def Core.inboxCtx (c : Core) (i : Nat) : Nat := if (c.ctx i).life == .live then i else 0

/-- An agent posts an entry; it keeps the entry while the inbox is full or an earlier entry of its own waits (R241). -/
def Core.postEntry (c : Core) (e : InboxEntry) : Core :=
  if c.inboxFree && !(c.deferred.any (fun x => x.agent == e.agent)) then
    { c with inbox := c.inbox ++ [{ e with ctx := c.inboxCtx e.ctx }] }
  else { c with deferred := c.deferred ++ [e] }

/-- The entries that agents kept for a full inbox, posted while there is room (R241). -/
def Core.postDeferred (c : Core) : List InboxEntry → Core
  | [] => { c with deferred := [] }
  | e :: rest =>
    if c.inboxFree then
      Core.postDeferred { c with inbox := c.inbox ++ [{ e with ctx := c.inboxCtx e.ctx }] } rest
    else { c with deferred := e :: rest }

/-- Doubleword 0 of an inbox entry: source code in byte 7, EVENT in [55:52], the rest as the source gives. -/
def inboxDw0 (source event low52 : Nat) : Word := BitVec.ofNat 64 (source * 2 ^ 56 + event * 2 ^ 52 + low52)

/-- An entry posted to a context of a core. Agent codes keep the entries of one agent in order. -/
def State.postInbox (s : State) (n i agent : Nat) (dw0 dw1 : Word) : State :=
  s.onCore n (fun c => c.postEntry { ctx := i, agent := agent, dw0 := dw0, dw1 := dw1 })

/-- NSVC of a die: its valid service-set entries, contiguous from entry 0 (R301). -/
def State.svcEntry (s : State) (d j : Nat) : Nat := fieldOf (s.dieReg d (0x18 + 8 * (j / 4))) (16 * (j % 4)) 16

/-- The number of service cores of a die (R301). -/
def State.nsvc (s : State) (d : Nat) : Nat :=
  ((List.range 16).takeWhile (fun j => bitOf (s.svcEntry d j) 15)).length

/-- Service core `j` of a die. -/
def State.svcCore (s : State) (d j : Nat) : Nat := bitsOf (s.svcEntry d j) 0 12

/-- An entry of source code 0x15 posted to a service core's control context (R310). -/
def State.postService (s : State) (d core event low : Nat) (dw1 : Word) : State :=
  s.postInbox core 0 (0x1500 + d) (inboxDw0 0x15 event low) dw1

end Sys2Proof.Machine
end

