-- ==== Sys2Proof/Machine/Mesh.lean ====
section
/-!
DEFINITION. Where the cores of a die stand and the routes of its mesh (R362, R363, R372). A router has the number 16·ry + rx on its die.
-/

namespace Sys2Proof.Machine

open Sys2Proof

/-- The places of a die's cores in the order of R372: square by square, and in raster order within a square. -/
def placesInOrder : List (Nat × Nat) :=
  (List.range 64).flatMap (fun q => (List.range 16).map (fun i => (4 * (q / 8) + i / 4, 4 * (q % 8) + i % 4)))

/-- The enabled physical cores of a die in the order of their logical numbers (R372). -/
def enabledCores (d : Nat) : List (Nat × Nat) := placesInOrder.filter (fun p => !Config.fusedOff d p.1 p.2)

/-- The place of a logical core (R372). -/
def placeOf (n : Nat) : Nat × Nat := (enabledCores (dieOfCore n)).getD (n % 1008) (0, 0)

/-- The logical core at a place of a die, none where it is fused off or stays disabled (R372). -/
def coreOfPlace (d y x : Nat) : Option Nat :=
  (((enabledCores d).findIdx? (fun p => p == (y, x))).filter (fun i => decide (i < 1008))).map (fun i => 1008 * d + i)

/-- The corner core of a die: at (0, 0), or the enabled one lowest in raster order (R372). -/
def cornerPlace (d : Nat) : Option (Nat × Nat) :=
  ((List.range 1024).map (fun i => (i / 32, i % 32))).find? (fun p => !Config.fusedOff d p.1 p.2)

/-- A router of the package's grid: its global row and column (R362). -/
structure Router where
  y : Nat
  x : Nat
deriving DecidableEq, Repr

/-- The die of a router. -/
def Router.die (r : Router) : Nat := 2 * (r.y / 16) + r.x / 16

/-- The number of a router on its die. -/
def Router.num (r : Router) : Nat := 16 * (r.y % 16) + r.x % 16

/-- Router `k` of a die. -/
def routerOn (d k : Nat) : Router := { y := 16 * (d / 2) + k / 16 % 16, x := 16 * (d % 2) + k % 16 }

/-- The router that serves a logical core, and the port of the core at it (R362, R363). -/
def routerOfCore (n : Nat) : Router × Nat :=
  let p := placeOf n
  (routerOn (dieOfCore n) (16 * (p.1 / 2) + p.2 / 2), 4 + 2 * (p.1 % 2) + p.2 % 2)

/-- The routers of a route with the port at which a packet enters each: in X to the column, then in Y to the row (R362). Ports 0 to 3 face
north, east, south and west (R363); a packet that moves east enters at the west. -/
def routeFrom (r dst : Router) (port : Nat) : Nat → List (Router × Nat)
  | 0 => [(r, port)]
  | fuel + 1 =>
    (r, port) ::
      (if r.x < dst.x then routeFrom { r with x := r.x + 1 } dst 3 fuel
      else if dst.x < r.x then routeFrom { r with x := r.x - 1 } dst 1 fuel
      else if r.y < dst.y then routeFrom { r with y := r.y + 1 } dst 0 fuel
      else if dst.y < r.y then routeFrom { r with y := r.y - 1 } dst 2 fuel
      else [])

/-- The route of a packet that enters the mesh at a port of a router. -/
def routeOf (src : Router × Nat) (dst : Router) : List (Router × Nat) := routeFrom src.1 dst src.2 64

/-- The neighbour of a router at one of its ports 0 to 3. -/
def Router.next (r : Router) (port : Nat) : Router :=
  match port with
  | 0 => { r with y := r.y - 1 }
  | 1 => { r with x := r.x + 1 }
  | 2 => { r with y := r.y + 1 }
  | _ => { r with x := r.x - 1 }

/-- The combining entry of a router for a page (R310). -/
def State.combineAt (s : State) (r : Router) (page : Nat) : Option Combine :=
  (s.dieAt r.die).combine.find? (fun c => c.router == r.num && c.page == page)

/-- A fault message on its way (R310): a router with an entry of the page adds the port and stops it; one with fewer than 32 entries opens
one; any other sets OVF and forwards it, and it is recorded nowhere from there on. The answer is none for a message that went no further, or
the OVF with which it reaches the end of its route. -/
def State.combineOn (s : State) (page : Nat) : List (Router × Nat) → Bool → Option Bool × State
  | [], ovf => (some ovf, s)
  | (r, port) :: rest, ovf =>
    if ovf then (some true, s)
    else
      match s.combineAt r page with
      | some _ =>
        (none, s.onDie r.die (fun x => { x with combine := x.combine.map (fun c =>
          if c.router = r.num ∧ c.page = page then { c with ports := insertNat port c.ports, last := c.last || rest.isEmpty } else c) }))
      | none =>
        if ((s.dieAt r.die).combine.filter (fun c => c.router == r.num)).length < 32 then
          (s.onDie r.die (fun x => { x with combine := x.combine ++ [{ router := r.num, page := page, ports := [port], last := rest.isEmpty }] })).combineOn
            page rest false
        else s.combineOn page rest true

/-- The reply that runs down the combining entries of a page from a router (R313): the walkers at the core ports, and the entries released. -/
def State.replyDown (s : State) (page : Nat) : Nat → Router → List Nat × State
  | 0, _ => ([], s)
  | fuel + 1, r =>
    match s.combineAt r page with
    | none => ([], s)
    | some c =>
      let s1 := s.onDie r.die (fun x => { x with combine := x.combine.filter (fun e => !(e.router == r.num && e.page == page)) })
      c.ports.foldl (fun acc p =>
        if p < 4 then
          let a := acc.2.replyDown page fuel (r.next p)
          (acc.1 ++ a.1, a.2)
        else
          (acc.1 ++ (coreOfPlace r.die (2 * (r.y % 16) + (p - 4) / 2) (2 * (r.x % 16) + (p - 4) % 2)).toList, acc.2)) ([], s1)

end Sys2Proof.Machine
end

