-- ==== Sys2Proof/Machine/Home.lean ====
section
/-!
DEFINITION. Homes: the walk of the page table, the home of a line, the home's answer to a request,
the collection of update-only partials, and how a missing translation is parked and reported.
-/

namespace Sys2Proof.Machine

open Sys2Proof

/-- New(op, v, y, c) of R237 on operands of `w` bits: 0 add, 1 min, 2 max, 3 minn, 4 maxn, 5 and, 6 or, 7 xor, 8 swap, 9 cas. -/
def amoNew (op w v y : Nat) : Nat :=
  match op with
  | 0 => (v + y) % 2 ^ w
  | 1 => if signExt v w ≤ signExt y w then v else y
  | 2 => if signExt v w ≤ signExt y w then y else v
  | 3 => min v y
  | 4 => max v y
  | 5 => v &&& y
  | 6 => v ||| y
  | 7 => v ^^^ y
  | _ => y

/-- A leaf's or table entry's valid bit (R303). -/
def Leaf.v (l : Leaf) : Bool := l.w0.getLsbD 63
/-- T: a table entry (R303). -/
def Leaf.t (l : Leaf) : Bool := l.w0.getLsbD 62
/-- SB: storage-backed (R303). -/
def Leaf.sb (l : Leaf) : Bool := l.w0.getLsbD 61
/-- VER: versioned (R303). -/
def Leaf.ver (l : Leaf) : Bool := l.w0.getLsbD 60
/-- HO: host-owned (R303). -/
def Leaf.ho (l : Leaf) : Bool := l.w0.getLsbD 59
/-- PIN: pinned to the host (R303). -/
def Leaf.pin (l : Leaf) : Bool := l.w0.getLsbD 58
/-- AC: access-counter enable (R303). -/
def Leaf.ac (l : Leaf) : Bool := l.w0.getLsbD 57
/-- HMODE (R303). -/
def Leaf.hmode (l : Leaf) : Nat := fieldOf l.w0 54 3
/-- HOME (R303). -/
def Leaf.home (l : Leaf) : Nat := fieldOf l.w0 42 12
/-- FRAME as a PA (R303). -/
def Leaf.frame (l : Leaf) : Nat := fieldOf l.w0 0 32 * 65536
/-- SSD id (R303). -/
def Leaf.ssd (l : Leaf) : Nat := fieldOf l.w1 56 4
/-- LBA or NEXT (R303). -/
def Leaf.next (l : Leaf) : Nat := fieldOf l.w1 0 48

/-- Is an entry of a level a table entry? Levels 3 and 2 hold only tables; level 1 holds tables and leaves (R303). -/
def Leaf.isTable (l : Leaf) : Bool := decide (2 ≤ l.level) || (l.level == 1 && l.t)

/-- The size of a leaf's page (R303). -/
def Leaf.pageBytes (l : Leaf) : Nat := if l.level = 1 then 2 ^ 21 else 2 ^ 16

/-- PIN of a region of the remote table, none when the region is not valid (R412, R417). -/
def State.regionPin (s : State) (d frame : Nat) : Option Bool :=
  let w := (s.peekWord d (fieldOf (s.dieReg d 0x320) 0 48 + 32 * bitsOf frame 40 7)).1
  if w.getLsbD 63 then some (w.getLsbD 62) else none

/-- A reserved field, a wrong T, a bad HMODE or HOME, or a remote frame against R417 makes an entry malformed (R303). (DEDUCED, log 13) -/
def State.malformed (s : State) (d : Nat) (l : Leaf) : Bool :=
  if fieldOf l.w1 60 4 ≠ 0 ∨ fieldOf l.w1 48 8 ≠ 0 then true
  else if l.isTable then
    (decide (2 ≤ l.level) && !l.t) || fieldOf l.w0 0 62 ≠ 0 || fieldOf l.w1 56 4 ≠ 0
  else
    (l.level == 0 && l.t) || fieldOf l.w0 32 10 ≠ 0
    || (decide (2 ≤ l.hmode) && decide (l.hmode ≤ 6))
    || (l.hmode == 0 && decide (4032 ≤ l.home))
    || (l.hmode == 1 && decide (8 ≤ l.home))
    || (l.level == 1 && fieldOf l.w0 0 5 ≠ 0)
    || (!l.sb && l.next ≠ 0)
    || (if paHost l.frame then !l.ho || l.ver || s.regionPin d l.frame != some l.pin else l.ho)

/-- Where a walk ends (R303, R308). -/
inductive WalkRes where
  | leaf (l : Leaf)
  | noTable (l : Leaf)
  | malformed (pa : Nat)
  | poison (pa : Nat)
  | reply (code : Nat)
deriving DecidableEq, Repr

/-- The first address bit that a level's index starts at (R303). -/
def levelShift : Nat → Nat
  | 0 => 16
  | 1 => 21
  | 2 => 32
  | _ => 44

/-- The index bits of a level (R303). -/
def levelBits : Nat → Nat
  | 0 => 5
  | 1 => 11
  | _ => 12

/-- The key under which a walker caches the entry of a level for an address. -/
def levelKey (level va : Nat) : Nat := level * 2 ^ 44 + va / 2 ^ levelShift level

/-- The walker of a slice keeps an entry with V = 1 in its translation cache of 512 entries, dropping the oldest (R308). (DESIGN CHOICE, log 9) -/
def Core.cacheEntry (c : Core) (key : Nat) (l : Leaf) : Core :=
  let t := c.tcache ++ [(key, l)]
  { c with tcache := if 512 < t.length then t.drop 1 else t }

/-- An entry of a level read at its physical-window home, or found in the walker's cache. An entry that would lie at a reserved PA is
refused as a malformed one (R308). (DEDUCED, log 12) -/
def State.readEntry (s : State) (slice level table va : Nat) : Except WalkRes (Leaf × Bool) :=
  match tabFind (s.coreAt slice).tcache (levelKey level va) with
  | some l => .ok (l, true)
  | none =>
    let pa := table + 16 * bitsOf va (levelShift level) (levelBits level)
    match s.peek (dieOfCore slice) pa 16 with
    | .error 0 => .error (.malformed pa)
    | .error c => .error (.reply c)
    | .ok (bs, bad) =>
      if bad then .error (.poison pa)
      else .ok ({ w0 := BitVec.ofNat 64 (fromBytesLE (bs.take 8)), w1 := BitVec.ofNat 64 (fromBytesLE (bs.drop 8)), pa := pa, level := level }, false)

/-- The walk from a level down; `fuel` is the levels left (R303). -/
def State.walkFrom (s : State) (slice va : Nat) : Nat → Nat → WalkRes × State
  | 0, _ => (.malformed 0, s)
  | fuel + 1, table =>
    match s.readEntry slice fuel table va with
    | .error (.malformed pa) => (.malformed pa, s.logSlice slice 0x07 pa 0)
    | .error r => (r, s)
    | .ok (l, cached) =>
      if !l.v && l.isTable then (.noTable l, s)
      else if s.malformed (dieOfCore slice) l then (.malformed l.pa, s.logSlice slice 0x07 l.pa 0)
      else
        let s1 := if l.v && !cached then s.onCore slice (fun c => c.cacheEntry (levelKey fuel va) l) else s
        if l.isTable then s1.walkFrom slice va fuel l.next else (.leaf l, s1)

/-- The walk of a page by the walker of a slice (R303, R308). -/
def State.walk (s : State) (slice va : Nat) : WalkRes × State :=
  s.walkFrom slice va 4 (fieldOf (s.dieReg (dieOfCore slice) 0) 0 48)

/-- The mask of a core group: 256 bits, read at the physical-window home of its lines (R304). (DEDUCED, log 12) -/
def State.groupMask (s : State) (d gi : Nat) : Except Nat (Nat × Bool) :=
  match s.peek d (fieldOf (s.dieReg d 0x10) 0 48 + 32 * gi) 32 with
  | .error c => .error c
  | .ok (bs, p) => .ok (fromBytesLE bs, p)

/-- The `k`-th set bit of a mask, counting from 0 in rising order. -/
def nthSet (mask k : Nat) : Nat := ((List.range 252).filter (fun i => bitOf mask i)).getD k 0

/-- The hashed home of a line in a group mask (R304). -/
def hashHome (mask va : Nat) : Nat :=
  let n := popCount 252 mask
  let l := va / 64
  let h := (l ^^^ (l / 2 ^ 16) ^^^ (l / 2 ^ 32)) % 65536
  16 * nthSet mask (h % n) + h / n % 16

/-- Where a home was found, or why not. -/
inductive HomeOf where
  | slice (n : Nat)
  | unknown
  | refused
  | poison
  | reply (code : Nat)
deriving DecidableEq, Repr

/-- A home after its remap: a target that is itself retired answers as ERROR and is logged (R305). -/
def State.remapHome (s : State) (n : Nat) : HomeOf × State :=
  if s.badRemap n then (.refused, s.logSlice (s.remap n) 0x07 n 0) else (.slice (s.remap n), s)

/-- The home of the line of an address under a leaf's homing fields (R304, R305). -/
def State.homeOf (s : State) (d : Nat) (l : Leaf) (va : Nat) : HomeOf × State :=
  if l.hmode = 0 then s.remapHome l.home
  else if l.hmode = 1 then
    match s.groupMask d l.home with
    | .error 0 => (.refused, s.logHearth d 0x07 1 (fieldOf (s.dieReg d 0x10) 0 48 + 32 * l.home) 0)
    | .error c => (.reply c, s)
    | .ok (m, bad) =>
      let pa := fieldOf (s.dieReg d 0x10) 0 48 + 32 * l.home
      if bad then (.poison, s.logHearth d 0x02 1 pa 0)
      else if popCount 252 m = 0 ∨ 2 ^ 252 ≤ m then (.refused, s.logHearth d 0x07 1 pa 0)
      else s.remapHome (hashHome m va)
  else (.unknown, s)

/-- The walk slice of a page on a die before the remap (R306). -/
def walkSlice0 (d va : Nat) : Nat := 1008 * d + bitsOf va 16 40 % 1008

/-- The walk slice of a page on a die (R306). -/
def State.walkSlice (s : State) (d va : Nat) : Nat := s.remap (walkSlice0 d va)

/-- Is a word of the table entry of a remote-window PA poisoned? Its PA is given (R308, R412). (DEDUCED, log 93) -/
def State.badRegion (s : State) (d pa : Nat) : Option Nat :=
  let e := fieldOf (s.dieReg d 0x320) 0 48 + 32 * bitsOf pa 40 7
  if (s.peekWord d e).2 || (s.peekWord d (e + 8)).2 then some e else none

/-- The error of such a table entry as a hearth unit of a die logs it (R6). -/
def State.logRegion (s : State) (d pa : Nat) : State :=
  match s.badRegion d pa with
  | some e => s.logHearth d 0x02 6 e 0
  | none => s

/-- What a home answers to a request for a line. -/
inductive HomeRes where
  | line (slice : Nat) (l : L2Line) (leaf : Option Leaf)
  /-- A missing translation: the walker of `slice` parks the request and faults (R310). -/
  | fault (slice : Nat) (leaf : Leaf)
  /-- Words of the remote window (R417, R420). -/
  | remote (slice pa : Nat)
  /-- ERROR: the access is refused (R308, R313). -/
  | refused
  /-- An uncorrectable error in a table or group entry (R308). -/
  | poison
  /-- An error reply of R384, or FABRIC-FAIL with code 5 (R422). -/
  | reply (code : Nat)
deriving DecidableEq, Repr

/-- The partials of a core on a line applied at its home, each as one indivisible update, lowest word first (R238). -/
def applyPartials (l : L2Line) (ps : List (Nat × Partial)) : L2Line :=
  ps.foldl (fun a p =>
    let off := p.1 * 4 % 64
    let n := p.2.width
    if a.poisoned off n then a else
    a.put off (bytesLE n (amoNew p.2.op (8 * n) (fromBytesLE (a.bytes off n)) (p.2.val.toNat % 2 ^ (8 * n))))) l

/-- The partials a core holds on a line. -/
def Core.partialsOn (c : Core) (line : Nat) : List (Nat × Partial) := c.partials.filter (fun p => p.1 / 16 == line)

/-- The words of a line that the partials of a core meet poisoned are logged; they stay poisoned (R238). -/
def State.logPartials (s : State) (n line : Nat) (l : L2Line) (ps : List (Nat × Partial)) : State :=
  if ps.any (fun p => l.poisoned (p.1 * 4 % 64) p.2.width) then s.logCore n 0x02 (line * 64) 0 else s

/-- Collection: a read or a plain store of a line at its home first gathers every partial of the line (R238). (DESIGN CHOICE, log 28) -/
def State.collect (s : State) (line : Nat) (l : L2Line) : L2Line × State :=
  s.cores.foldl (fun acc nc =>
    match nc.2.partialsOn line with
    | [] => acc
    | ps => (applyPartials acc.1 ps, (acc.2.logPartials nc.1 line acc.1 ps).onCore nc.1 (fun c =>
        { c with partials := c.partials.filter (fun p => p.1 / 16 != line) })))
    (l, s)

/-- A migratable host-owned page faults at every device access (R418). -/
def Leaf.migratable (l : Leaf) : Bool := l.ho && !l.pin

/-- A line in the remote window at its home: its words are host memory's, or the entry of its region has an uncorrectable error (R308, R417). -/
def State.remoteLine (s : State) (slice pa : Nat) : HomeRes × State :=
  match s.badRegion (dieOfCore slice) pa with
  | some e => (.poison, s.logSlice slice 0x02 e 0)
  | none => (.remote slice pa, s)

/-- The line at its home once the home's slice does not hold it: the walk, then the fetch (R308). -/
def State.fetchLine (s : State) (slice va : Nat) (wb : Bool) : HomeRes × State :=
  match s.walk slice va with
  | (.reply c, s1) => (.reply c, s1)
  | (.malformed _, s1) => (.refused, s1)
  | (.poison pa, s1) => (.poison, s1.logSlice slice 0x02 pa 0)
  | (.noTable l, s1) => (.fault slice l, s1)
  | (.leaf l, s1) =>
    if !l.v || l.migratable then (.fault slice l, s1)
    else
      let pa := l.frame + va % l.pageBytes
      if paHost pa then s1.remoteLine slice pa
      else if !paHbm pa then (.refused, s1.logSlice slice 0x07 l.pa 0)
      else
        match s1.reach (dieOfCore slice) (paDie pa) wb with
        | some c => (.reply c, s1)
        | none =>
          let line := s1.hbmLine pa
          (.line slice line (some l), s1.setSliceLine slice (va / 64) line)

/-- A request of a unit on die `d` for a physical-window line, at its home (R300). -/
def State.windowLine (s : State) (d pa : Nat) (wb : Bool) : HomeRes × State :=
  let slice := s.physHome pa
  match s.reach d (dieOfCore slice) wb with
  | some c => (.reply c, s)
  | none =>
    if s.badRemap (physSlice pa) then (.refused, s.logSlice slice 0x07 (physSlice pa) 0)
    else if paHost pa then s.remoteLine slice pa
    else if !paHbm pa then (.refused, s.logSlice slice 0x07 pa 0)
    else
      match s.sliceLine slice (winKey pa) with
      | some l => (.line slice l none, s)
      | none => (.line slice (s.hbmLine pa) none, s.setSliceLine slice (winKey pa) (s.hbmLine pa))

/-- The valid leaf of a line that a slice holds, which its walker knows or finds (R308, R314). -/
def State.heldLeaf (s : State) (slice va : Nat) : Option Leaf :=
  match (s.walk slice va).1 with
  | .leaf l => if l.v then some l else none
  | _ => none

/-- A request of a unit on die `d` for a translated line whose homing fields are known, at its home (R304, R308). -/
def State.homedLine (s : State) (d va : Nat) (leaf : Leaf) (wb : Bool) : HomeRes × State :=
  match s.homeOf d leaf va with
  | (.unknown, s1) => (.fault (s1.walkSlice d va) leaf, s1)
  | (.refused, s1) => (.refused, s1)
  | (.poison, s1) => (.poison, s1)
  | (.reply c, s1) => (.reply c, s1)
  | (.slice n, s1) =>
    match s1.reach d (dieOfCore n) wb with
    | some c => (.reply c, s1)
    | none =>
      match s1.sliceLine n (va / 64) with
      | some l => (.line n l (s1.heldLeaf n va), s1)
      | none => s1.fetchLine n va wb

/-- The homing fields of a page as its walk slice answers them (R306); a walk slice whose remap gives a retired slice answers ERROR
(R305). -/
def State.queryLeaf (s : State) (d va : Nat) : WalkRes × State :=
  match s.reach d (dieOfCore (s.walkSlice d va)) false with
  | some c => (.reply c, s)
  | none =>
    if s.badRemap (walkSlice0 d va) then (.malformed 0, s.logSlice (s.walkSlice d va) 0x07 (walkSlice0 d va) 0)
    else s.walk (s.walkSlice d va) va

/-- A request of an agent on die `d` for a translated line: the walk slice gives its home (R306). -/
def State.translatedLine (s : State) (d va : Nat) (wb : Bool) : HomeRes × State :=
  match s.queryLeaf d va with
  | (.reply c, s1) => (.reply c, s1)
  | (.malformed _, s1) => (.refused, s1)
  | (.poison pa, s1) => (.poison, s1.logHearth d 0x02 1 pa 0)
  | (.noTable l, s1) => (.fault (s1.walkSlice d va) l, s1)
  | (.leaf l, s1) => s1.homedLine d va l wb

/-- The partials of a line are collected before the home answers (R238). -/
def State.collected (r : HomeRes × State) (line : Nat) : HomeRes × State :=
  match r with
  | (.line n l leaf, s) =>
    let (l1, s1) := s.collect line l
    if l1 = l then (.line n l leaf, s1) else (.line n l1 leaf, (s1.setSliceLine n line l1).fireWatch n line)
  | r => r

/-- A request of a unit on die `d` for the line of an address; `wb` marks a write-back. -/
def State.lineAt (s : State) (d va : Nat) (hint : Option Leaf) (wb : Bool) : HomeRes × State :=
  State.collected
    (if isWinKey (va / 64) then s.windowLine d (winPa (va / 64) + va % 64) wb
     else match hint with
       | some l => s.homedLine d va l wb
       | none => s.translatedLine d va wb) (va / 64)

/-- A read or write request of a unit on die `d` for the line of an address. -/
def State.homeLine (s : State) (d va : Nat) (hint : Option Leaf) : HomeRes × State := s.lineAt d va hint false

/-- A home's answer to a request of a core. Where the core knows the page as not resident, the home walks even when its slice holds
the line, so that the leaf answers (R306). -/
def State.askHome (s : State) (d va : Nat) (hint : Option Leaf) : HomeRes × State :=
  match s.homeLine d va hint with
  | (.line slice l leaf, s1) =>
    if isTranslated va && hint.any (fun h => !h.v || h.migratable) then
      match s1.walk slice va with
      | (.leaf lf, s2) => if lf.v && !lf.migratable then (.line slice l (some lf), s2) else (.fault slice lf, s2)
      | (.noTable lf, s2) => (.fault slice lf, s2)
      | (.malformed _, s2) => (.refused, s2)
      | (.poison pa, s2) => (.poison, s2.logSlice slice 0x02 pa 0)
      | (.reply c, s2) => (.reply c, s2)
    else (.line slice l leaf, s1)
  | r => r

/-- The root of a fault (R311): none is the service core; some d is the storage queue engine or migration engine of die d. -/
def faultEngine (l : Leaf) : Option (Bool × Nat) :=
  if l.migratable && !l.isTable then some (true, 0)
  else if l.sb && !l.v && !l.isTable then some (false, l.ssd / 4)
  else none

/-- The page number of an address: VA[55:16]. -/
def pageOf (va : Nat) : Nat := bitsOf va 16 40

/-- A watch of a walker armed at the physical-window home of the line where the walk stopped; the line keeps 16 (R312). -/
def State.armWatch (s : State) (slice va : Nat) (l : Leaf) : State :=
  let key := winKey l.pa
  let d := dieOfCore (s.physHome l.pa)
  let ws := (tabFind (s.dieAt d).watches key).getD []
  if ws.contains (slice, pageOf va) then s
  else if ws.length < 16 then s.onDie d (fun x => { x with watches := tabPut x.watches key (ws ++ [(slice, pageOf va)]) })
  else s.post .watchRewalk { Ev.empty with core := slice, addr := pageOf va }

/-- The lines whose entries of a slice's miss table hold parked requests: requests for one line share an entry (R309). -/
def Core.parkedLines (c : Core) : List Nat := c.parked.foldl (fun acc r => insertNat (r.va / 64) acc) []

/-- Can a slice park a request for a line: it shares an entry, or one of the 40 for faults is free (R309)? -/
def Core.parkRoom (c : Core) (line : Nat) : Bool := c.parkedLines.contains line || decide (c.parkedLines.length < 40)

/-- A walker meets a missing translation (R310): it parks the request, arms its watch, and sends one fault message per page.
A request that would take a 41st entry waits in the router, and the walker has not met it yet (R309). A context on a storage-backed leaf
gets a notice (R397). (DEDUCED, log 17; DESIGN CHOICE, log 92) -/
def State.park (s : State) (slice va : Nat) (l : Leaf) (r : Req) : State :=
  if !(s.coreAt slice).parkRoom (r.va / 64) then s.onCore slice (fun c => { c with router := c.router ++ [r] }) else
  let s1 := s.onCore slice (fun c => { c with parked := c.parked ++ [r] })
  let s2 := s1.armWatch slice va l
  let s3 := if (tabFind (s2.coreAt slice).pending (pageOf va)).isSome then s2 else
    (s2.onCore slice (fun c => { c with pending := tabPut c.pending (pageOf va) true })).post .faultMessage
      { core := slice, ctx := 0, unit := r.kind, die := dieOfCore slice, addr := pageOf va,
        val := l.w0, aux := l.level, flag := false, data := [l.w1, BitVec.ofNat 64 l.pa] }
  if l.sb && !l.v && !l.isTable && !l.migratable && decide (r.kind ≤ 2 ∨ r.kind = 6) then
    s3.post .storageWaitNotice { Ev.empty with core := r.core, ctx := r.ctx, addr := va, die := dieOfCore r.core }
  else s3

/-- A page's access count at a home: only requests of other dies count, for a leaf with AC set (R314). -/
def State.countAccess (s : State) (slice va d : Nat) (leaf : Option Leaf) : State :=
  let hd := dieOfCore slice
  let thr := fieldOf (s.dieReg hd 0x38) 0 32
  let cap := fieldOf (s.dieReg hd 0x40) 48 16
  match leaf with
  | none => s
  | some l =>
    if !l.ac || d = hd || thr = 0 || cap = 0 then s else
    let key := pageOf va * 4 + d
    let n := tabGet 0 (s.coreAt slice).acCount key + 1
    let put (k : Nat) (st : State) : State := st.onCore slice (fun c =>
      let t := tabSet 0 c.acCount key k
      { c with acCount := if 128 < t.length then t.drop 1 else t })
    if n < thr then put n s else
    let base := fieldOf (s.dieReg hd 0x40) 0 48
    let ptr := s.dieReg hd 0x48
    let head := fieldOf ptr 32 32
    let tail := fieldOf ptr 0 32
    let dw0 := BitVec.ofNat 64 (pageOf va * 65536 + d)
    let queued := (List.range ((tail + cap - head) % cap)).any (fun i =>
      fieldOf (s.peekWord hd (base + 16 * ((head + i) % cap))).1 16 40 == pageOf va)
    let s1 := put 0 s
    if queued then s1
    else if (tail + 1) % cap = head then
      let st := s1.dieReg hd 0x50
      s1.setDieReg hd 0x50 (BitVec.ofNat 64 (2 ^ 63 + min (2 ^ 32 - 1) (fieldOf st 0 32 + 1)))
    else
      let s2 := s1.poke hd (base + 16 * tail) (bytesLE 8 dw0.toNat ++ bytesLE 8 (slice * 2 ^ 32 + n))
      let s3 := s2.setDieReg hd 0x48 (setField ptr 0 32 ((tail + 1) % cap))
      s3.postService hd (s3.svcCore hd 0) 1 0 0

/-- A line of a slice written back to HBM4E, as an eviction does. A line without a valid leaf drops its words and is logged (R308). -/
def State.spillLine (s : State) (slice key : Nat) (l : L2Line) : State :=
  if l.dirty = 0 && !l.verDirty then s
  else if isWinKey key then s.writeHbm (winPa key) l
  else
    match s.walk slice (key * 64) with
    | (.leaf lf, s1) =>
      let pa := lf.frame + key * 64 % lf.pageBytes
      if lf.v && paHbm pa then
        match s1.reach (dieOfCore slice) (paDie pa) true with
        | some c => s1.logSlice slice 0x06 (key * 64) (BitVec.ofNat 64 c)
        | none => s1.writeHbm pa l
      else s1.logSlice slice 0x07 (key * 64) 0
    | (_, s1) => s1.logSlice slice 0x07 (key * 64) 0

/-- A slice evicts a line (R232, R300). (DESIGN CHOICE, log 9) -/
def State.evictHomeLine (s : State) (slice key : Nat) : State :=
  match s.sliceLine slice key with
  | none => s
  | some l => (s.spillLine slice key l).dropSliceLine slice key

/-- The doublewords of bytes, lowest first. -/
def wordsLE : Nat → List Byte → List Word
  | 0, _ => []
  | n + 1, bs => BitVec.ofNat 64 (fromBytesLE (bs.take 8)) :: wordsLE n (bs.drop 8)

/-- Where a remote-window PA lies: the endpoint of its region and the remote address (R417). -/
def State.remoteOf (s : State) (d pa : Nat) : Nat × Word :=
  let e := fieldOf (s.dieReg d 0x320) 0 48 + 32 * bitsOf pa 40 7
  (fieldOf (s.peekWord d e).1 32 8, (s.peekWord d (e + 8)).1 + BitVec.ofNat 64 (pa % 2 ^ 40))

/-- An RMA read or write that the device sends to a region's endpoint, named as the model's own kinds 0x100 and 0x101 of the sent list.
(DESIGN CHOICE, log 19) -/
def State.sendRma (s : State) (d pa : Nat) (write : Bool) (payload : List Word) : State :=
  let r := s.remoteOf d pa
  s.sendFabric { kind := if write then 0x101 else 0x100, endpoint := r.1, target := 0, reqid := 0, arg := r.2, payload := payload }

end Sys2Proof.Machine
end

