-- ==== Sys2Proof/Machine/Alias.lean ====
section
/-!
DEFINITION. The elements of a stream as addresses, its footprint, and the alias filter of a core (R166, R171, R191).
-/

namespace Sys2Proof.Machine

open Sys2Proof

/-- A count of the descriptor: COUNT0 to COUNT2 (R170). -/
def Stream.count (st : Stream) (i : Nat) : Nat :=
  if i ≠ 0 ∧ fieldOf st.desc[4] 0 2 = 1 then 1 else fieldOf (st.desc.toList.getD (i + 1) 0) 32 16

/-- A stride of the descriptor, signed (R170). -/
def Stream.stride (st : Stream) (i : Nat) : Int := signExt (fieldOf (st.desc.toList.getD (i + 1) 0) 0 32) 32

/-- BASE (R170). -/
def Stream.base (st : Stream) : Word := st.desc[0]
/-- IDXB of an indirect pattern (R170). -/
def Stream.idxb (st : Stream) : Nat := fieldOf st.desc[2] 0 56
/-- RESULT (R170). -/
def Stream.result0 (st : Stream) : Word := st.desc[5]
/-- PAT: 0 affine, 1 indirect (R170). -/
def Stream.pat (st : Stream) : Nat := fieldOf st.desc[4] 0 2
/-- OP (R170). -/
def Stream.op (st : Stream) : Nat := fieldOf st.desc[4] 8 4
/-- FLT (R170). -/
def Stream.flt (st : Stream) : Bool := st.desc[4].getLsbD 12
/-- NOALLOC (R170). -/
def Stream.noalloc (st : Stream) : Bool := st.desc[4].getLsbD 13
/-- SEL (R170). -/
def Stream.sel (st : Stream) : Nat := fieldOf st.desc[4] 16 3
/-- EVT (R170). -/
def Stream.evt (st : Stream) : Nat := fieldOf st.desc[4] 20 4
/-- DEST (R170). -/
def Stream.dest (st : Stream) : Bool := st.desc[4].getLsbD 24
/-- RM (R170). -/
def Stream.rm (st : Stream) : Nat := fieldOf st.desc[4] 28 2
/-- W, signed (R170). -/
def Stream.w (st : Stream) : Int := signExt (fieldOf st.desc[4] 32 16) 16

/-- The family of a stream's data: code 0 counts as dense (R171). -/
def Stream.family (st : Stream) : Family := if ptrCode st.base = 0 then .dense else st.fmt.family.getD .dense

/-- The dense element type of a stream (R171). -/
def Stream.etype (st : Stream) : Nat := if ptrCode st.base = 0 then fieldOf st.desc[4] 4 4 else st.fmt.etype

/-- The width in bytes of a dense type code (R93): I8 I16 I32 I64, N8 N16 N32 N64, F16 or BF16 as 16 bits, F32, F64. -/
def etypeBytes (code : Nat) : Nat :=
  match code with
  | 0 => 1
  | 1 => 2
  | 2 => 4
  | 3 => 8
  | 4 => 1
  | 5 => 2
  | 6 => 4
  | 7 => 8
  | 8 => 2
  | 9 => 2
  | 10 => 4
  | _ => 8

/-- The elements of a stream (R171). -/
def Stream.total (st : Stream) : Nat := st.count 0 * st.count 1 * st.count 2

/-- The elements per billet of a stream's BASE. -/
def Stream.blen (st : Stream) : Nat := blenOf (ptrBlc st.base)

/-- The payload bytes of a billet of the stream. -/
def Stream.payload (st : Stream) : Nat := st.family.payload st.blen

/-- k0, k1 and k2 of element k (R171). -/
def Stream.indices (st : Stream) (k : Nat) : Nat × Nat × Nat :=
  (k % st.count 0, k / st.count 0 % st.count 1, k / st.count 0 / st.count 1)

/-- The address of element k of an affine pattern: for billets, the logical address of its billet (R171). -/
def Stream.affineAddr (st : Stream) (k : Nat) : Int :=
  let (k0, k1, k2) := st.indices k
  (ptrAddr st.base : Int) + k1 * st.stride 1 + k2 * st.stride 2 +
    (if st.family = .dense then k0 * st.stride 0 else ((k0 / st.blen * st.payload : Nat) : Int))

/-- The greatest k0 below `c0` whose element of `w` bytes at stride `s0` holds the offset `d`. -/
def lastHit (d s0 : Int) (w c0 : Nat) : Option Nat :=
  if c0 = 0 then none
  else if s0 = 0 then (if 0 ≤ d ∧ d < w then some (c0 - 1) else none)
  else
    let k : Int := if 0 < s0 then d / s0 else ((w : Int) - 1 - d) / -s0
    let k1 := minInt k ((c0 : Int) - 1)
    if 0 ≤ k1 ∧ 0 ≤ d - k1 * s0 ∧ d - k1 * s0 < w then some k1.toNat else none

/-- The highest element of a billet row that a storage byte belongs to: a payload byte to the elements it holds,
a header byte to every element of its billet (R113, R191). -/
def billetHit (fam : Family) (blen p c0 : Nat) (row : Int) (a : Nat) : Option Nat :=
  let grp := a / (32 * p + 64)
  let off := a % (32 * p + 64)
  let head := decide (off < 64)
  let l : Int := ((if head then grp * (32 * p) + off / 2 * p else grp * (32 * p) + (off - 64) : Nat) : Int) - row
  if l < 0 ∨ (c0 / blen * p : Nat) ≤ l then none
  else if head then some (l.toNat / p * blen + blen - 1)
  else some (l.toNat / p * blen + l.toNat % p * (8 / fam.codeBits) + 8 / fam.codeBits - 1)

/-- The highest element index of an affine stream whose bytes hold address `a`. -/
def Stream.affineHit (st : Stream) (a : Nat) : Option Nat :=
  let row (k2 k1 : Nat) : Option Nat :=
    let base : Int := (ptrAddr st.base : Int) + k1 * st.stride 1 + k2 * st.stride 2
    let hit := if st.family = .dense then lastHit ((a : Int) - base) (st.stride 0) (etypeBytes st.etype) (st.count 0)
      else billetHit st.family st.blen st.payload (st.count 0) base a
    hit.map (fun k0 => (k2 * st.count 1 + k1) * st.count 0 + k0)
  (List.range (st.count 2)).foldl (fun acc k2 => (List.range (st.count 1)).foldl (fun acc k1 =>
    match row k2 k1 with
    | some k => some k
    | none => acc) acc) none

/-- The conservative data range of an indirect stream, as first and last byte (R191). -/
def Stream.indirectRange (st : Stream) : Int × Int :=
  let m := (2 ^ 32 - 1) * st.stride 0
  let b : Int := ptrAddr st.base
  (b + minInt 0 m, b + maxInt 0 m + etypeBytes st.etype - 1)

/-- Does a byte lie in a stream's element of an index at or above PROG? The inner value is the highest index,
none when it is unbounded (R191). -/
def Stream.hits (st : Stream) (a : Nat) : Option (Option Nat) :=
  if st.pat = 0 then
    match st.affineHit a with
    | some k => if st.known.prog ≤ k then some (some k) else none
    | none => none
  else
    let (lo, hi) := st.indirectRange
    if st.known.prog < st.total && decide (lo ≤ a) && decide ((a : Int) ≤ hi) then some none
    else if st.idxb ≤ a ∧ a < st.idxb + 4 * st.count 0 ∧ st.known.prog ≤ (a - st.idxb) / 4 then some (some ((a - st.idxb) / 4))
    else none

/-- Is a stream's alias window open (R190, R191)? -/
def Stream.window (st : Stream) : Bool := (st.state == .locl || st.state == .floated) && st.kind != 1

/-- The slots of a core whose unpassed footprint holds a byte, with the entry index (R191). -/
def Core.aliasHits (c : Core) (a : Nat) : List (Nat × Option Nat) :=
  (List.range 16).filterMap (fun i =>
    let st := c.streams.toList.getD i Stream.reset
    if st.window then (st.hits a).map (fun k => (i, k)) else none)

/-- Does any open window of a core exist? -/
def Core.anyWindow (c : Core) : Bool := c.streams.toList.any Stream.window

/-- The slots that a store of the given bytes hits. -/
def Core.hitSlots (c : Core) (addrs : List Nat) : List Nat :=
  if !c.anyWindow then [] else
  addrs.foldl (fun acc a => (c.aliasHits a).foldl (fun acc h => insertNat h.1 acc) acc) []

/-- A held byte, the latest one stored to its address (R167). -/
def Core.heldByte (c : Core) (a : Nat) : Option Byte :=
  c.hold.foldl (fun acc e =>
    if e.line = a / 64 then
      match tabFind e.bytes (a % 64) with
      | some b => some b
      | none => acc
    else acc) none

/-- Does a range of bytes touch a held byte, or the unpassed footprint of a floated stream (R240, R267)? -/
def Core.aliased (c : Core) (addrs : List Nat) : Bool :=
  (c.hitSlots addrs).any (fun i => (c.streams.toList.getD i Stream.reset).state == .floated) || addrs.any (fun a => (c.heldByte a).isSome)

/-- The later of two entry indexes; unbounded is latest. -/
def laterIndex : Option Nat → Option Nat → Option Nat
  | some a, some b => some (max a b)
  | _, _ => none

/-- Can the hold buffer take a byte of a line for a slot: an entry exists, or one of the 32 is free (R166)? -/
def Core.holdRoom (c : Core) (slot line : Nat) : Bool :=
  c.hold.any (fun e => e.slot == slot && e.line == line) || decide (c.hold.length < 32)

/-- A byte taken out of the entries of other slots: a byte stored later is held in its place (R166, R190). (DEDUCED, log 32) -/
def HoldEntry.without (e : HoldEntry) (slot a : Nat) : HoldEntry :=
  if e.slot != slot && e.line == a / 64 then { e with bytes := tabDel e.bytes (a % 64) } else e

/-- A byte parked in the hold buffer for a slot, by a context (R166, R192). (DEDUCED, log 32) -/
def Core.holdByte (c : Core) (i slot : Nat) (idx : Option Nat) (a : Nat) (b : Byte) : Core :=
  let hold := c.hold.map (fun e => e.without slot a)
  if hold.any (fun e => e.slot == slot && e.line == a / 64) then
    { c with hold := hold.map (fun e =>
        if e.slot == slot && e.line == a / 64 then
          { e with ctxs := insertNat i e.ctxs, index := laterIndex e.index idx, bytes := tabPut e.bytes (a % 64) b }
        else e) }
  else { c with hold := hold ++ [{ slot := slot, line := a / 64, ctxs := [i], index := idx, bytes := [(a % 64, b)] }] }

/-- A byte stored to an address whose held byte no stream element covers any longer: it replaces the held byte in its entry,
whose release is as before (R166, R190). (DEDUCED, log 32) -/
def Core.reholdByte (c : Core) (i a : Nat) (b : Byte) : Core :=
  { c with hold := c.hold.map (fun e =>
      if e.line == a / 64 && (tabFind e.bytes (a % 64)).isSome then
        { e with ctxs := insertNat i e.ctxs, bytes := tabPut e.bytes (a % 64) b }
      else e) }

end Sys2Proof.Machine
end

