-- ==== Sys2Proof/Machine/L1.lean ====
section
/-!
DEFINITION. The L1, the scratchpad and the hold buffer of a core; write-back, release and acquire.
-/

namespace Sys2Proof.Machine

open Sys2Proof

/-- A valid word of the L1, by word address. -/
def State.l1Word (s : State) (n w : Nat) : Option L1Word := tabFind (s.coreAt (s.l1Owner n (w / 16))).l1 w

/-- A word as a read of core `n` finds it: valid in the L1, or delivered by a fill for the executing context's own read although an
invalidation has come since (R332). -/
def State.readWord (s : State) (n w : Nat) : Option L1Word :=
  match s.l1Word n w with
  | some x => some x
  | none => if n = s.focus then tabFind s.ctx.got w else none

/-- The byte addresses of `n` bytes at `ea`. -/
def bytesAt (ea n : Nat) : List Nat := (List.range n).map (fun i => ea + i)

/-- The first word that a load of the bytes needs from a home: not valid in the L1, and not all its bytes held (R167, R232). -/
def State.missingWord (s : State) (n : Nat) (addrs : List Nat) : Option Nat :=
  (addrs.find? (fun a => (s.readWord n (a / 4)).isNone && ((s.coreAt n).heldByte a).isNone)).map (fun a => a / 4)

/-- A byte as a load of core `n` reads it: the held value in place of memory (R167). -/
def State.loadByte (s : State) (n a : Nat) : Byte :=
  match (s.coreAt n).heldByte a with
  | some b => b
  | none =>
    match s.readWord n (a / 4) with
    | some w => w.val.extractLsb' (8 * (a % 4)) 8
    | none => 0

/-- The first address among bytes whose word is poisoned (R77). -/
def State.poisonedByte (s : State) (n : Nat) (addrs : List Nat) : Option Nat :=
  addrs.find? (fun a => ((s.coreAt n).heldByte a).isNone &&
    (match s.readWord n (a / 4) with
      | some w => w.poison
      | none => false))

/-- A word put into an L1. -/
def Core.putWord (c : Core) (w : Nat) (x : L1Word) : Core := { c with l1 := tabPut c.l1 w x }

/-- The dirty words of a line in a core's L1. -/
def Core.dirtyWords (c : Core) (line : Nat) : List (Nat × L1Word) :=
  (List.range 16).filterMap (fun i =>
    match tabFind c.l1 (16 * line + i) with
    | some x => if x.dirty then some (16 * line + i, x) else none
    | none => none)

/-- The words of a line marked clean; the line leaves the order of dirty lines (R232, R233). -/
def Core.cleanLine (c : Core) (line : Nat) : Core :=
  { c with
    l1 := c.l1.map (fun p => if p.1 / 16 = line then (p.1, { p.2 with dirty := false }) else p)
    dirtyLines := c.dirtyLines.filter (fun x => x != line) }

/-- Every copy of a line dropped from an L1. -/
def Core.dropLine (c : Core) (line : Nat) : Core :=
  { c with l1 := c.l1.filter (fun p => p.1 / 16 != line), dirtyLines := c.dirtyLines.filter (fun x => x != line) }

/-- Words merged into a line by word mask; a poisoned word carries its poison (R232, R233). -/
def mergeWords (l : L2Line) (ws : List (Nat × L1Word)) : L2Line :=
  ws.foldl (fun a w =>
    let off := w.1 * 4 % 64
    let b := a.put off (bytesLE 4 w.2.val.toNat)
    if w.2.poison then b.poisonWord (w.1 % 16) else b) l

/-- The homing fields of a page as core `n` knows them (R306). -/
def State.hint (s : State) (n va : Nat) : Option Leaf := tabFind (s.coreAt n).homeCache (pageOf va)

/-- The words of a line as doublewords of (word number, value) for a remote write. -/
def remoteWords (ws : List (Nat × L1Word)) : List Word :=
  ws.map (fun w => BitVec.ofNat 64 (w.1 % 16 * 2 ^ 32) ||| w.2.val.setWidth 64)

/-- Words of a line forwarded to host memory by its home. A poisoned one would arrive as good data, so it is dropped and logged
(R6, R7, R420). (DEDUCED, log 94) -/
def State.forwardWords (s : State) (n line slice pa : Nat) (ws : List (Nat × L1Word)) : State :=
  let good := ws.filter (fun w => !w.2.poison)
  let s1 := if good.length = ws.length then s else s.logCore n 0x02 (line * 64) 0
  if good.isEmpty then s1 else
  (s1.sendRma (dieOfCore slice) pa true (remoteWords good)).onCore n (fun c =>
    { c with hostWrites := c.hostWrites ++ [(s1.remoteOf (dieOfCore slice) pa).1] })

/-- Words of a line brought to its home by a write-back of core `n` (R308, R309, R384, R420):
accepted and merged, forwarded to host memory, or dropped and logged. -/
def State.bringHome (s : State) (n line : Nat) (ws : List (Nat × L1Word)) : State :=
  match s.lineAt (dieOfCore n) (line * 64) (s.hint n (line * 64)) true with
  | (.line slice l _, s1) => (s1.setSliceLine slice line (mergeWords l ws)).fireWatch slice line
  | (.remote slice pa, s1) => s1.forwardWords n line slice pa ws
  | (.reply c, s1) => s1.logCore n 0x06 (line * 64) (BitVec.ofNat 64 c)
  | (_, s1) => s1.logCore n 0x07 (line * 64) 0

/-- The dirty words of a line of core `n`'s own L1 written back (R232, R233). -/
def State.writeBackLine (s : State) (n line : Nat) : State :=
  match (s.coreAt n).dirtyWords line with
  | [] => s.onCore n (fun c => c.cleanLine line)
  | ws => (s.bringHome n line ws).onCore n (fun c => c.cleanLine line)

/-- The update-only partials of a core's L1 on a line sent to their home (R238). -/
def State.sendPartials (s : State) (n line : Nat) : State :=
  match (s.coreAt n).partialsOn line with
  | [] => s
  | ps =>
    let s1 := s.onCore n (fun c => { c with partials := c.partials.filter (fun p => p.1 / 16 != line) })
    match s1.lineAt (dieOfCore n) (line * 64) (s1.hint n (line * 64)) true with
    | (.line slice l _, s2) => ((s2.logPartials n line l ps).setSliceLine slice line (applyPartials l ps)).fireWatch slice line
    | (.reply c, s2) => s2.logCore n 0x06 (line * 64) (BitVec.ofNat 64 c)
    | (_, s2) => s2.logCore n 0x07 (line * 64) 0

/-- Every partial of a line gathered before a plain store to it (R238). -/
def State.collectFirst (s : State) (line : Nat) : State :=
  s.cores.foldl (fun a nc => if (nc.2.partialsOn line).isEmpty then a else a.sendPartials nc.1 line) s

/-- An L1 evicts a line (R232): its dirty words, or its partials, reach their home. (DESIGN CHOICE, log 9) -/
def State.evictL1Line (s : State) (n line : Nat) : State := ((s.writeBackLine n line).sendPartials n line).onCore n (fun c => c.dropLine line)

/-- The lines that an L1 holds, rising. -/
def Core.l1Lines (c : Core) : List Nat :=
  c.partials.foldl (fun acc p => insertNat (p.1 / 16) acc) (c.l1.foldl (fun acc p => insertNat (p.1 / 16) acc) [])

/-- Room for a line in an L1 of 2 MiB, which is 32768 lines: a full one evicts a line of its own choice (R232). (DESIGN CHOICE, log 9) -/
def State.makeRoom (s : State) (n line : Nat) : State :=
  let ls := (s.coreAt n).l1Lines
  if ls.length < 32768 || ls.contains line then s
  else
    let (w, s1) := s.freeWord
    s1.evictL1Line n (ls.getD (w.toNat % ls.length) 0)

/-- A line marked dirty in a core's L1; past 4096 dirty lines the oldest is written back first (R233). -/
def State.markDirty (s : State) (n line : Nat) : State :=
  let c := s.coreAt n
  if c.dirtyLines.contains line then s
  else
    let s1 := if c.dirtyLines.length < 4096 then s else
      match c.dirtyLines with
      | o :: _ => s.writeBackLine n o
      | [] => s
    s1.onCore n (fun c => { c with dirtyLines := c.dirtyLines ++ [line] })

/-- A word of a line as an L1 takes it. -/
def L2Line.l1Word (l : L2Line) (w : Nat) : L1Word :=
  { val := BitVec.ofNat 32 (fromBytesLE (l.bytes (w % 16 * 4) 4)), dirty := false, poison := l.poison.getLsbD (w % 16) }

/-- The word of a home for a store of part of it into a word that is not valid (R232); none when its home gives no line. -/
def State.wordAtHome (s : State) (n w : Nat) : Option L1Word × State :=
  match s.homeLine (dieOfCore n) (w * 4) (s.hint n (w * 4)) with
  | (.line _ l _, s1) => (some (l.l1Word w), s1)
  | (_, s1) => (none, s1)

/-- A byte of a word replaced. -/
def putByte (x : BitVec 32) (i : Nat) (b : Byte) : BitVec 32 := setField x (8 * i) 8 b.toNat

/-- Bytes of one word stored into the L1: a whole word loses its poison, a part keeps it (R77, R232); partials of the line are collected
first (R238). -/
def State.storeWord (s : State) (n w : Nat) (bs : List (Nat × Byte)) : State :=
  let o := s.l1Owner n (w / 16)
  let s1 := ((s.collectFirst (w / 16)).makeRoom o (w / 16)).markDirty o (w / 16)
  let whole := (List.range 4).all (fun i => bs.any (fun p => p.1 == i))
  let old := if whole then (some { val := 0, dirty := true, poison := false }, s1) else
    match tabFind (s1.coreAt o).l1 w with
    | some x => (some x, s1)
    | none => s1.wordAtHome n w
  match old with
  | (some x, s2) => s2.onCore o (fun c => c.putWord w { x with val := bs.foldl (fun v p => putByte v p.1 p.2) x.val, dirty := true })
  | (none, s2) => s2.logCore n 0x07 (w * 4) 0

/-- Bytes grouped by the word they lie in, in rising order of words. -/
def groupWords (bs : List (Nat × Byte)) : List (Nat × List (Nat × Byte)) :=
  bs.foldl (fun acc p => tabPut acc (p.1 / 4) ((tabFind acc (p.1 / 4)).getD [] ++ [(p.1 % 4, p.2)])) []

/-- Bytes stored into the L1 as ordinary stores. -/
def State.storeL1 (s : State) (n : Nat) (bs : List (Nat × Byte)) : State :=
  (groupWords bs).foldl (fun a g => a.storeWord n g.1 g.2) s

/-- Bytes written to a scratchpad; a word covered whole loses its poison (R77, R235). -/
def Core.putSpad (c : Core) (off : Nat) (bs : List Byte) : Core :=
  { c with
    spad := memWrite c.spad off bs
    spadPoison := (wordsTouched off bs.length).foldl (fun p w => if wordCovered off bs.length w then setMember p w false else p) c.spadPoison }

/-- Bytes of a scratchpad. (DESIGN CHOICE, log 4) -/
def Core.getSpad (c : Core) (off n : Nat) : List Byte := memRead c.spad n off

/-- Is any word that the bytes touch poisoned in the scratchpad? -/
def Core.spadBad (c : Core) (off n : Nat) : Bool := (wordsTouched off n).any (fun w => c.spadPoison.contains w)

/-- Does a store reach doubleword 0 of a receive-ring descriptor (R245)? -/
def descriptorHits (off n : Nat) : List Nat :=
  (List.range 8).filter (fun r => decide (off < 0x7FF00 + 32 * r + 8) && decide (0x7FF00 + 32 * r < off + n))

/-- A receive ring's state written by the interface to doubleword 1 of its descriptor (R245). -/
def Core.putRing (c : Core) (r : Nat) (m : MsgRing) : Core :=
  let dw1 := m.fill % 65536 * 2 ^ 32 + m.tail % 65536 * 65536 + m.head % 65536
  if h : r < 8 then { c with rings := c.rings.set r m h }.putSpad (0x7FF00 + 32 * r + 8) (bytesLE 8 dw1) else c

/-- A store to any byte of a receive ring's doubleword 0 resets the ring and discards its messages; their number is logged (R245).
Messages that wait for the ring look at the new descriptor next. -/
def State.resetRing (s : State) (n r : Nat) : State :=
  let held := ((s.coreAt n).rings.toList.getD r { head := 0, tail := 0, fill := 0 }).fill
  let s1 := s.onCore n (fun c => c.putRing r { head := 0, tail := 0, fill := 0 })
  let s2 := if held = 0 then s1 else s1.logCore n 0x0A (0xFF * 2 ^ 48 + 0x7FF00 + 32 * r) (BitVec.ofNat 64 held)
  s2.post .msgRingConfigWrite { Ev.empty with core := n, unit := r, flag := true }

/-- Bytes stored into the scratchpad of core `n` by a context or a unit (R235, R245). -/
def State.storeSpad (s : State) (n off : Nat) (bs : List Byte) : State :=
  (descriptorHits off bs.length).foldl (fun a r => a.resetRing n r) (s.onCore n (fun c => c.putSpad off bs))

/-- The held bytes of an entry written as ordinary stores (R167, R192). -/
def State.releaseEntry (s : State) (n : Nat) (e : HoldEntry) : State :=
  if e.line / 2 ^ 42 = 0xFF then e.bytes.foldl (fun a p => a.storeSpad n ((e.line * 64 + p.1) % 2 ^ 48) [p.2]) s
  else s.storeL1 n (e.bytes.map (fun p => (e.line * 64 + p.1, p.2)))

/-- The entries of a core that `p` names released in program order; waiting contexts look again. -/
def State.releaseHold (s : State) (n : Nat) (p : HoldEntry → Bool) : State :=
  let es := (s.coreAt n).hold.filter p
  if es.isEmpty then s else
  let s1 := s.onCore n (fun c => { c with hold := c.hold.filter (fun e => !p e) })
  (es.foldl (fun a e => a.releaseEntry n e) s1).wakeBusy n

/-- The lines a core holds partials on. -/
def Core.partialLines (c : Core) : List Nat := c.partials.foldl (fun acc p => insertNat (p.1 / 16) acc) []

/-- Every dirty word of one L1 written back, oldest line first, and every partial sent to its home (R323). -/
def State.flushL1 (s : State) (n : Nat) : State :=
  let s1 := (s.coreAt n).dirtyLines.foldl (fun a line => a.writeBackLine n line) s
  (s1.coreAt n).partialLines.foldl (fun a line => a.sendPartials n line) s1

/-- Has the host still to acknowledge a write of one of the L1s that core `n` uses (R234, R420)? -/
def State.hostPending (s : State) (n : Nat) : Bool := (s.l1Cores n).any (fun m => !(s.coreAt m).hostWrites.isEmpty)

/-- Must a release by context `i` of core `n` still wait: for held bytes of its stores, or at system scope for writes that
host memory has not acknowledged (R167, R323, R420)? -/
def State.releaseWaits (s : State) (n i : Nat) (sc : Scope) : Bool :=
  s.beyondL1 n sc &&
  ((s.coreAt n).hold.any (fun e => e.ctxs.contains i) || (sc == .system && s.hostPending n))

/-- The write-backs of a release at a scope (R89, R323). -/
def State.release (s : State) (n : Nat) (sc : Scope) : State :=
  if s.beyondL1 n sc then (s.l1Cores n).foldl (fun a m => a.flushL1 m) s else s

/-- A core's own copy of the words that an atomic accesses: dirty words are written back and the copy dropped (R237). -/
def State.yieldWords (s : State) (n ea k : Nat) : State :=
  let line := ea / 64
  let o := s.l1Owner n line
  let ws := (wordsTouched ea k).map (fun w => w)
  let dirty := ((s.coreAt o).dirtyWords line).filter (fun w => ws.contains w.1)
  let s1 := if dirty.isEmpty then s else s.bringHome o line dirty
  s1.onCore o (fun c =>
    let rest := c.l1.filter (fun p => !ws.contains p.1)
    { c with l1 := rest
             dirtyLines := if rest.any (fun p => p.1 / 16 == line && p.2.dirty) then c.dirtyLines
               else c.dirtyLines.filter (fun x => x != line) })

/-- Every valid copy of a line in every L1 written back and dropped: the grant of the update-only state (R238). (DESIGN CHOICE, log 28) -/
def State.grantUpdateOnly (s : State) (line : Nat) : State :=
  s.cores.foldl (fun a nc =>
    if nc.2.l1.any (fun p => p.1 / 16 == line) then (a.writeBackLine nc.1 line).onCore nc.1 (fun c => c.dropLine line) else a) s

/-- The words of a line that a request asked for made valid in the L1; a word that became dirty meanwhile stays (R232). -/
def State.fillWords (s : State) (n line : Nat) (ws : List Nat) (l : L2Line) : State :=
  let o := s.l1Owner n line
  (s.makeRoom o line).onCore o (fun c => ws.foldl (fun c w =>
    match tabFind c.l1 w with
    | some _ => c
    | none => c.putWord w (l.l1Word w)) c)

/-- The words that a context's read asked for delivered to it, and made valid in the L1 unless an acquire has come since it was issued
(R322, R332). -/
def State.deliver (s : State) (n i line : Nat) (ws : List Nat) (l : L2Line) (keep : Bool) : State :=
  (if keep then s.fillWords n line ws l else s).onCtx n i (fun x => { x with got := ws.foldl (fun t w => tabPut t w (l.l1Word w)) x.got })

end Sys2Proof.Machine
end

