-- ==== Sys2Proof/Machine/Ops.lean ====
section
/-!
DEFINITION. Taking an exception and returning from one; the checks, waits and reads of a context's memory accesses.
-/

namespace Sys2Proof.Machine

open Sys2Proof

/-- A precise trap: its cause, its DETAIL and its TRAP.ADDR (R44). -/
structure Trap where
  cause : Nat
  detail : Nat
  addr : Word
deriving DecidableEq, Repr

/-- An illegal instruction with its DETAIL (R44). -/
def Trap.illegal (detail : Nat) : Trap := { cause := 1, detail := detail, addr := 0 }
/-- Format mismatch: the pointer operand (R44). -/
def Trap.format (p : Word) : Trap := { cause := 2, detail := 0, addr := p }
/-- Pointer range: the pointer operand before the operation (R44). -/
def Trap.range (p : Word) : Trap := { cause := 3, detail := 0, addr := p }
/-- Protection: the address refused (R44). -/
def Trap.protection (a : Nat) : Trap := { cause := 4, detail := 0, addr := BitVec.ofNat 64 a }
/-- Data poison: the address whose data was poisoned (R44). -/
def Trap.poison (a : Nat) : Trap := { cause := 5, detail := 0, addr := BitVec.ofNat 64 a }
/-- Breakpoint (R44). -/
def Trap.breakpoint : Trap := { cause := 6, detail := 0, addr := 0 }
/-- The `trap` instruction (R44). -/
def Trap.software (i : Nat) : Trap := { cause := 7, detail := 0, addr := BitVec.ofNat 64 i }
/-- Billet corruption: the address of the corrupt header (R44). -/
def Trap.billet (a : Nat) : Trap := { cause := 8, detail := 0, addr := BitVec.ofNat 64 a }
/-- Block shape: the store's base pointer (R44). -/
def Trap.shape (p : Word) : Trap := { cause := 9, detail := 0, addr := p }

/-- A core halts: no context of it issues; all architected state is kept (R87). The log entry names the PC. (DEDUCED, log 16) -/
def State.haltCore (s : State) (n i pc : Nat) (detail : Word) : State :=
  (s.onCore n (fun c => { c with halted := some i })).logCore n 0x04 pc detail

/-- Member `p` of the handler chain of a cluster, if it is present and not halted: its entry is valid, its core exists and
runs Puori at service level (R48, R263). -/
def State.chainMember (s : State) (cl p : Nat) : Option Nat :=
  let m := fieldOf (s.clusterAt cl).hchain (16 * p) 16
  let n := bitsOf m 0 12
  let c := s.coreAt n
  if bitOf m 15 && decide (n < 4032) && c.released && c.halted.isNone && !(s.clusterAt (clusterOfCore n)).halted && (c.ctx 0).life == .live && (c.ctx 0).priv == 2
  then some n else none

/-- The four doublewords of a trap message from context `i` of core `n` (R47). -/
def TrapMsg.image (m : TrapMsg) (n i : Nat) : List Word :=
  [ BitVec.ofNat 64 (n % 2 ^ 16 * 2 ^ 48 + i % 16 * 2 ^ 44 + m.pos % 4 * 2 ^ 42 + m.cause % 256 * 2 ^ 34 + m.detail % 256 * 2 ^ 26),
    m.pc.setWidth 64, m.word.setWidth 64, m.addr ]

/-- Is a trap message one of context `i` of core `n`? -/
def msgFrom (n i : Nat) (d : List Word) : Bool := fieldOf (d.headD 0) 48 16 == n && fieldOf (d.headD 0) 44 4 == i

/-- A trap message has been answered, or nobody waits for its answer: it is no longer out (R48). -/
def State.takeTrapMsg (s : State) (n i : Nat) : State := { s with trapMsgs := s.trapMsgs.filter (fun p => !msgFrom n i p.2) }

/-- The halt of a cluster: every core of it stops within the bounds of the halt of the partition that runs there, and the message is
logged whole, in two entries (R48, R359). (DEDUCED, log 87) -/
def State.haltCluster (s : State) (cl : Nat) (m : TrapMsg) (n i : Nat) : State :=
  let d := m.image n i
  let s1 := ((s.onCluster cl (fun c => { c with halted := true })).logCore n 0x04 m.pc.toNat (d.getD 0 0)).logCore n 0x04 m.addr.toNat (d.getD 2 0)
  match ((List.range 16).map (fun p => 16 * cl + p)).findSome? (fun k => (s.coreAt k).task) with
  | some t => s1.post .mgmtHaltPartition { Ev.empty with unit := t.part, aux := 3 }
  | none => s1

/-- A trap message sent to the first present member at or after its chain position; past the last member the cluster halts (R47, R48).
(DEDUCED, log 87) -/
def State.forward (s : State) (n i : Nat) (word : BitVec 32) (m : TrapMsg) : State :=
  let cl := clusterOfCore n
  let w : Waiting := { why := .trapReply, ir := word }
  match ((List.range 4).drop m.pos).findSome? (fun p => (s.chainMember cl p).map (fun k => (p, k))) with
  | some (p, k) =>
    let m1 := { m with pos := p }
    let s1 := s.takeTrapMsg n i
    { s1 with trapMsgs := s1.trapMsgs ++ [(k, m1.image n i)] }.onCtx n i (fun x => { x with wait := some w, fwd := some m1 })
  | none => ((s.takeTrapMsg n i).onCtx n i (fun x => { x with wait := some w, fwd := some m })).haltCluster cl m n i

/-- Trap entry (R45): the record of the trap, the privilege held, and the handler's address. -/
def Ctx.enterTrap (x : Ctx) (vec : Word) (word : BitVec 32) (t : Trap) : Ctx :=
  let y := x.unskip
  let z := (y.setStat 8 2 y.priv).setStat 10 1 1
  let z1 := if y.priv = 0 then z.setStat 0 2 1 else z
  { z1 with
    wait := none, got := [], lost := []
    trapPc := x.pc.setWidth 64
    trapWord := word.setWidth 64
    trapCause := BitVec.ofNat 64 (t.detail * 256 + t.cause)
    trapAddr := t.addr
    pc := BitVec.ofNat 56 (fieldOf vec 1 55 * 2) }

/-- Taking a precise trap in context `i` of core `n`: entry (R45), the halt of service level, or forwarding (R47). -/
def State.raiseOn (s : State) (n i : Nat) (word : BitVec 32) (t : Trap) : State :=
  let x := s.ctxAt n i
  let vec := (s.coreAt n).trapVec
  if !x.inh && vec.getLsbD 0 then s.setCtxAt n i (x.enterTrap vec word t)
  else if x.priv = 2 then
    (s.ready n i).haltCore n i x.pc.toNat (BitVec.ofNat 64 t.cause)
  else
    s.forward n i word { pos := 0, cause := t.cause, detail := t.detail, pc := x.pc, word := word, addr := t.addr }

/-- The executing instruction raises a trap: it writes nothing else (R44). -/
def State.raise (s : State) (t : Trap) : State := s.raiseOn s.focus s.curCtx s.ir t

/-- Is an address one of the physical window behind which the PA is reserved (R300)? -/
def windowReserved (a : Nat) : Bool := a / 2 ^ 48 == 0xFE && !paHbm (a % 2 ^ 48) && !paHost (a % 2 ^ 48) && !paReg (a % 2 ^ 48)

/-- The log entry of a trap that R249 and R434 have logged: a protection refusal, or a reserved PA reached through the window at service
level (R300, R308), or poisoned data. (DEDUCED, log 20) -/
def State.logTrap (s : State) (n i : Nat) (t : Trap) : State :=
  if t.cause = 4 then s.logCore n (if windowReserved t.addr.toNat && (s.ctxAt n i).priv == 2 then 0x07 else 0x06) t.addr.toNat 0
  else if t.cause = 5 then s.logCore n 0x02 t.addr.toNat 0
  else s

/-- A step that ends in the executing instruction's trap, logged where the manual logs it. -/
def State.trapped (s : State) (t : Trap) : Out := .next ((s.logTrap s.focus s.curCtx t).raise t)

/-- A waiting instruction of a context raises a trap; its bits are those kept for the wait. -/
def State.trapWaiting (s : State) (n i : Nat) (t : Trap) : State :=
  match (s.ctxAt n i).wait with
  | some w => (s.logTrap n i t).raiseOn n i w.ir t
  | none => s

/-- An error reply ends a waiting access in the data-poison trap; the reply is logged (R384, R422). -/
def State.replyWaiting (s : State) (n i a code : Nat) : State :=
  match (s.ctxAt n i).wait with
  | some w => (s.logCore n 0x06 a (BitVec.ofNat 64 code)).raiseOn n i w.ir (Trap.poison a)
  | none => s

/-- A context whose forwarded trap is answered with a PC becomes ready there (R34, R48). -/
def Ctx.resumeAt (x : Ctx) (pc : Word) : Ctx :=
  { x with wait := none, fwd := none, heldReply := none, got := [], lost := [], pc := BitVec.ofNat 56 (fieldOf pc 1 55 * 2) }

/-- Return from a trap (R45): PC, privilege and INH. -/
def Ctx.eret (x : Ctx) : Ctx :=
  let y := x.unskip
  { (y.setStat 0 2 y.ppriv).setStat 10 1 0 with pc := BitVec.ofNat 56 (fieldOf x.trapPc 1 55 * 2) }

/-- An offset in core-local space reaches the scratchpad (R76). -/
def isSpad (a : Nat) : Bool := topByte a == 0xFF && decide (a % 2 ^ 48 < 0x80000)

/-- What an access needs of the bytes it touches. -/
structure Need where
  read : Bool
  write : Bool
  exec : Bool
  fright : Bool
deriving DecidableEq, Repr

/-- A load through a pointer; a tagged pointer also needs the F right (R76). -/
def Need.load (tagged : Bool) : Need := { read := true, write := false, exec := false, fright := tagged }
/-- A store through a pointer (R76). -/
def Need.store (tagged : Bool) : Need := { read := false, write := true, exec := false, fright := tagged }
/-- An atomic through a pointer (R237). -/
def Need.both (tagged : Bool) : Need := { read := true, write := true, exec := false, fright := tagged }
/-- An instruction fetch (R53). -/
def Need.fetch : Need := { read := false, write := false, exec := true, fright := false }

/-- Do rights [3] F, [2] execute, [1] write, [0] read grant a need (R302)? -/
def Need.granted (n : Need) (rights : Nat) : Bool :=
  (!n.read || bitOf rights 0) && (!n.write || bitOf rights 1) && (!n.exec || bitOf rights 2) && (!n.fright || bitOf rights 3)

/-- The rights a PLB holds over a 64 KiB unit, none on a miss (R236). -/
def Core.plbRights (c : Core) (unit : Nat) : Option Nat :=
  (c.plb.find? (fun e => decide (e.first ≤ unit) && decide (unit ≤ e.last))).map (fun e => e.rights)

/-- The first 64 KiB unit among translated bytes that the PLB does not cover (R77 step 1). -/
def Core.plbMiss (c : Core) (ranges : List (Nat × Nat)) : Option Nat :=
  ranges.findSome? (fun r =>
    if r.2 = 0 then none else
    ((List.range ((r.1 + r.2 - 1) / 65536 + 1 - r.1 / 65536)).map (fun i => r.1 / 65536 + i)).find? (fun u =>
      isTranslated (u * 65536) && (c.plbRights u).isNone))

/-- Is one byte of an access refused (R76)? -/
def Core.byteRefused (c : Core) (priv : Nat) (need : Need) (a : Nat) : Bool :=
  if topByte a = 0xFE then priv ≠ 2 || !(paHbm (a % 2 ^ 48) || paHost (a % 2 ^ 48))
  else if topByte a = 0xFF then !isSpad a
  else
    match c.plbRights (a / 65536) with
    | some r => !need.granted r
    | none => true

/-- Where a run of bytes is refused: at its lowest refused byte, each byte checked under the rules of the space it lies in, and in
core-local space at its first byte (R76, R159). -/
def Core.refusedByte (c : Core) (priv : Nat) (need : Need) (ea n : Nat) : Option Nat :=
  if topByte ea = 0xFF then (if (bytesAt ea n).all isSpad then none else some ea)
  else (bytesAt ea n).find? (fun a => c.byteRefused priv need a)

/-- A request to the home of an address by the executing context: requester code, the words it needs, and the address of the
access itself. -/
def State.missEvent (s : State) (kind va : Nat) (ws : List Nat) (ea : Nat) : Ev :=
  { Ev.ofCtx s.focus s.curCtx with unit := kind, addr := va, aux := ea, data := ws.map (fun w => BitVec.ofNat 64 w) }

/-- What a context has to wait for before an access can be made as a whole (R77 step 3). -/
inductive Pend where
  /-- The homing fields of a page (R306). -/
  | query (va ea : Nat)
  /-- Fault service of a page, or words, at the home of an address (R306, R307). -/
  | home (va : Nat) (ws : List Nat) (ea : Nat)
deriving DecidableEq, Repr

/-- The words of one line among bytes that the L1 does not hold. -/
def State.missingIn (s : State) (n : Nat) (addrs : List Nat) (line : Nat) : List Nat :=
  addrs.foldl (fun acc a =>
    if a / 64 = line && (s.readWord n (a / 4)).isNone && ((s.coreAt n).heldByte a).isNone then insertNat (a / 4) acc else acc) []

/-- The bytes of words that a store covers only in part: their words must be valid first (R232). -/
def partialBytes (ea n : Nat) : List Nat := (bytesAt ea n).filter (fun a => !wordCovered ea n (a / 4))

/-- The first thing a run of bytes has to wait for: a load needs its words, a store needs valid leaves and the words it
covers in part (R77, R306). -/
def State.pendOf (s : State) (n : Nat) (write : Bool) (ea k : Nat) : Option Pend :=
  if isSpad ea then none else
  let addrs := bytesAt ea k
  let want := if write then partialBytes ea k else addrs
  let paged := addrs.findSome? (fun a =>
    if !isTranslated a then none else
    match s.hint n a with
    | none => if write || (s.readWord n (a / 4)).isNone && ((s.coreAt n).heldByte a).isNone then some (Pend.query a ea) else none
    | some l => if l.v && !l.migratable then none else some (Pend.home a (if write then [] else s.missingIn n addrs (a / 64)) ea))
  match paged with
  | some p => some p
  | none => (s.missingWord n want).map (fun w => Pend.home (w * 4) (s.missingIn n want (w / 16)) ea)

/-- Waiting for homing fields or for a home: the request is posted and the context waits (R43). (DEDUCED, log 10) -/
def State.pend (s : State) (kind : Nat) (p : Pend) : Out :=
  match p with
  | .query va ea => .next ((s.post .homeQuery (s.missEvent kind va [] ea)).wait (.query (pageOf va)))
  | .home va ws ea => .next ((s.post .homeMiss (s.missEvent kind va ws ea)).wait (.mem va false))

/-- Steps 1 and 2 of R77 for runs of bytes: the PLB refills are waited for, then every byte is checked. A trap of a lower
CAUSE that the instruction also has, `alt`, is taken in place of a refusal (R51). -/
def State.checked (s : State) (need : Need) (ranges : List (Nat × Nat)) (alt : Option Trap) (k : State → Out) : Out :=
  match s.core.plbMiss ranges with
  | some u =>
    .next ((s.post .plbRefill { Ev.ofCtx s.focus s.curCtx with addr := u * 65536 }).wait (.plb (u * 65536)))
  | none =>
    match ranges.findSome? (fun r => s.core.refusedByte s.ctx.priv need r.1 r.2) with
    | some a => s.trapped (alt.getD (Trap.protection a))
    | none => k s

/-- Step 3 of R77: fault service and missing words are waited for. -/
def State.served (s : State) (write : Bool) (ranges : List (Nat × Nat)) (k : State → Out) : Out :=
  match ranges.findSome? (fun r => s.pendOf s.focus write r.1 r.2) with
  | some p => s.pend (if write then 1 else 0) p
  | none => k s

/-- A byte as the executing core reads it: the held value in place of memory (R167). -/
def State.byteAt (s : State) (a : Nat) : Byte :=
  if topByte a = 0xFF then (s.core.heldByte a).getD (memByte s.core.spad (a % 2 ^ 48)) else s.loadByte s.focus a

/-- The first poisoned address of a run of bytes as the executing core reads it. -/
def State.badByte (s : State) (ea n : Nat) : Option Nat :=
  (bytesAt ea n).find? (fun a =>
    if topByte a = 0xFF then (s.core.heldByte a).isNone && s.core.spadPoison.contains (a % 2 ^ 48 / 4)
    else (s.poisonedByte s.focus [a]).isSome)

/-- A load of runs of bytes: checked, served, read as a whole; `k` also gets the first poisoned address (R77). -/
def State.loadRaw (s : State) (need : Need) (ranges : List (Nat × Nat)) (alt : Option Trap)
    (k : State → List (List Byte) → Option Nat → Out) : Out :=
  s.checked need ranges alt (fun s =>
    s.served false ranges (fun s =>
      k s (ranges.map (fun r => (bytesAt r.1 r.2).map (fun a => s.byteAt a))) (ranges.findSome? (fun r => s.badByte r.1 r.2))))

/-- A load of runs of bytes; poison is found and trapped last (R77). (DESIGN CHOICE, log 8) -/
def State.loadRuns (s : State) (need : Need) (ranges : List (Nat × Nat)) (alt : Option Trap)
    (k : State → List (List Byte) → Out) : Out :=
  s.loadRaw need ranges alt (fun s bss bad =>
    match bad with
    | some a => s.trapped (alt.getD (Trap.poison a))
    | none => k s bss)

/-- The key of what the format-record cache holds from an address: a doubleword of a record, or a level-table entry of 2 bytes (R102). -/
def fmtKey (a n : Nat) : Nat := if n = 2 then 2 ^ 56 + a else a

/-- A level-table entry: signed, 16 bits (R100). -/
def levelOf (w : Word) : Int := signExt (w.toNat % 2 ^ 16) 16

/-- The doubleword of a record, or the entry of a table, cached under a key, if the format-record cache holds it (R102). -/
def State.cachedWord (s : State) (a : Nat) : Option Word := tabFind s.core.fmtCache a

/-- Doublewords of records and level tables for the executing context: from the format-record cache, or refilled through
the L1 exactly as a load would (R99, R102). -/
def State.readWords (s : State) (addrs : List Nat) (alt : Option Trap) (k : State → List Word → Out) : Out :=
  let have' := addrs.filterMap (fun x => s.cachedWord x)
  if have'.length = addrs.length then k s have'
  else
    s.loadRuns (Need.load false) (addrs.map (fun x => (x, 8))) alt (fun s bss =>
      let ws := bss.map (fun bs => BitVec.ofNat 64 (fromBytesLE bs))
      let put (c : Core) : Core := { c with fmtCache := (addrs.zip ws).foldl (fun t p =>
        if (tabFind t p.1).isSome then t else tabPut t p.1 p.2) c.fmtCache }
      let s1 := s.mapCore put
      k s1 (addrs.map (fun x => (s1.cachedWord x).getD 0)))

/-- `n` doublewords of a record or table from an address up. -/
def State.readTable (s : State) (a n : Nat) (alt : Option Trap) (k : State → List Word → Out) : Out :=
  s.readWords ((List.range n).map (fun i => (a + 8 * i) % 2 ^ 56)) alt k

/-- Doublewords of a record where a trap of their reading is no more than one of several that the instruction may take: `bad` gets it (R51, R99). -/
def State.tryTable (s : State) (a n : Nat) (bad : State → Trap → Out) (k : State → List Word → Out) : Out :=
  let addrs := (List.range n).map (fun i => (a + 8 * i) % 2 ^ 56)
  let new := addrs.filter (fun x => (s.cachedWord x).isNone)
  let runs := new.map (fun x => (x, 8))
  match s.core.plbMiss runs, runs.findSome? (fun r => s.core.refusedByte s.ctx.priv (Need.load false) r.1 r.2) with
  | none, some x => bad s (Trap.protection x)
  | _, _ =>
    s.loadRaw (Need.load false) runs none (fun s bss poison =>
      match poison with
      | some x => bad s (Trap.poison x)
      | none =>
        let put (c : Core) : Core := { c with fmtCache := (new.zip bss).foldl (fun t p =>
          tabPut t p.1 (BitVec.ofNat 64 (fromBytesLE p.2))) c.fmtCache }
        let s1 := if new.isEmpty then s else s.mapCore put
        k s1 (addrs.map (fun x => (s1.cachedWord x).getD 0)))

/-- The address of the format record of a code (R98); one at or above 2^56 wraps, which the spec leaves open. (DESIGN CHOICE, log 100) -/
def Core.recordAddr (c : Core) (code : Nat) : Nat := (fieldOf c.fmtBase 5 51 * 32 + 32 * code) % 2 ^ 56

/-- The format record that a pointer's code selects; code 0 reads none (R97, R98). A reserved block-length code is a format mismatch.
(DEDUCED, log 82) -/
def State.withRecord (s : State) (p : Word) (alt : Option Trap) (k : State → Option FmtRecord → Out) : Out :=
  if 3 < ptrBlc p then s.trapped (Trap.format p)
  else if ptrCode p = 0 then k s none
  else
    s.readTable (s.core.recordAddr (ptrCode p)) 4 alt (fun s ws =>
      k s (some { dw0 := ws.getD 0 0, dw1 := ws.getD 1 0, dw2 := ws.getD 2 0, dw3 := ws.getD 3 0 }))

/-- The effective address of a scalar access, an integer before its range check (R75). -/
def effAddr (p : Word) (off : Int) : Int := (ptrAddr p : Int) + off

/-- Does an access of `n` bytes lie outside the 2^56 bytes of the address space (R75)? -/
def outOfRange (ea : Int) (n : Nat) : Bool := decide (ea < 0) || decide ((2 : Int) ^ 56 ≤ ea + n - 1)

/-- A plain or dense pointer to `n` bytes: its format and its range are checked, and `k` gets the address (R75). (DEDUCED, logs 24, 82) -/
def State.densePtr (s : State) (p : Word) (off : Int) (n : Nat) (k : State → Nat → Out) : Out :=
  let ea := effAddr p off
  let alt := if outOfRange ea n then some (Trap.range p) else none
  s.withRecord p alt (fun s rec =>
    match rec with
    | some r =>
      if r.family ≠ some .dense then s.trapped (Trap.format p)
      else if outOfRange ea n then s.trapped (Trap.range p) else k s ea.toNat
    | none => if outOfRange ea n then s.trapped (Trap.range p) else k s ea.toNat)

/-- A scalar load (R75): the value of `n` bytes. (DESIGN CHOICE, log 8) -/
def State.load (s : State) (p : Word) (off : Int) (n : Nat) (k : State → Nat → Out) : Out :=
  s.densePtr p off n (fun s ea =>
    s.loadRuns (Need.load (ptrCode p ≠ 0)) [(ea, n)] none (fun s bss => k s (fromBytesLE (bss.headD []))))

/-- The streams that hold back a store of bytes, and whether it must wait: two streams cover it, or the buffer has no entry
for it (R166, R192). -/
def State.storeBlocked (s : State) (addrs : List Nat) : Bool :=
  let slots := s.core.hitSlots addrs
  decide (1 < slots.length) ||
    slots.any (fun sl =>
      let lines := addrs.foldl (fun acc a =>
        if (s.core.aliasHits a).any (fun h => h.1 == sl) && !(s.core.hold.any (fun e => e.slot == sl && e.line == a / 64))
        then insertNat (a / 64) acc else acc) []
      decide (32 < s.core.hold.length + lines.length))

/-- Is a byte that the executing context stores held back: an unpassed stream element covers it, or its address is still held
(R166, R190)? -/
def State.kept (s : State) (a : Nat) : Bool := (s.core.anyWindow && !(s.core.aliasHits a).isEmpty) || (s.core.heldByte a).isSome

/-- Those of some stored bytes that are held back parked in the hold buffer (R166, R192). -/
def State.holdBytes (s : State) (bs : List (Nat × Byte)) : State :=
  let hold (c : Core) (p : Nat × Byte) : Core :=
    match if s.core.anyWindow then (s.core.aliasHits p.1).head? else none with
    | some h => c.holdByte s.curCtx h.1 h.2 p.1 p.2
    | none => c.reholdByte s.curCtx p.1 p.2
  match bs.filter (fun p => s.kept p.1) with
  | [] => s
  | ks => s.mapCore (fun c => ks.foldl hold c)

/-- One run of bytes stored by the executing context, after every check: a byte that an unpassed stream element covers is held, one that
is still held is replaced where it is held, the rest go to the L1 or the scratchpad (R166, R190, R191, R232). -/
def State.storeRun (s : State) (ea : Nat) (bs : List Byte) : State :=
  let ps := (bytesAt ea bs.length).zip bs
  let s1 := s.holdBytes ps
  if !isSpad ea then s1.storeL1 s.focus (ps.filter (fun p => !s.kept p.1))
  else if ps.any (fun p => s.kept p.1) then
    (ps.filter (fun p => !s.kept p.1)).foldl (fun a p => a.storeSpad s.focus (p.1 % 2 ^ 48) [p.2]) s1
  else s.storeSpad s.focus (ea % 2 ^ 48) bs

/-- One more element of the executing context's store is placed; what it has still to place is kept, so that a store which the hold
buffer holds up goes on with one set of values and can trap no more (R164, R166). -/
def State.placedOne (s : State) (rest : List (Nat × List Byte)) : State :=
  s.mapCtx (fun x => { x with placed := if rest.isEmpty then 0 else x.placed + 1, unplaced := rest, hand := if rest.isEmpty then 0 else s.ir })

/-- A store of one run of bytes: checked, served, held back by the alias filter where it must be, and made (R75, R77, R166). (DESIGN CHOICE, log 8) -/
def State.storeOne (s : State) (need : Need) (ea : Nat) (bs : List Byte) (k : State → Out) : Out :=
  s.checked need [(ea, bs.length)] none (fun s =>
    s.served true [(ea, bs.length)] (fun s =>
      if s.storeBlocked (bytesAt ea bs.length) then .next (s.wait .busy)
      else k (s.storeRun ea bs)))

/-- A scalar store (R75): the low `n` bytes of a value. -/
def State.store (s : State) (p : Word) (off : Int) (n v : Nat) (k : State → Out) : Out :=
  s.densePtr p off n (fun s ea => s.storeOne (Need.store (ptrCode p ≠ 0)) ea (bytesLE n v) k)

end Sys2Proof.Machine
end

