-- ==== Sys2Proof/Machine/Operands.lean ====
section
/-!
DEFINITION. Operand forms of the scalar instructions: immediates, offsets, 32-bit halves, and the shapes that
read two operands, write one register and move on.
-/

namespace Sys2Proof.Machine

open Sys2Proof

/-- SignExt(imm, n) as a 64-bit value (R55, R73). -/
def immWord {n : Nat} (i : BitVec n) : Word := i.signExtend 64

/-- SignExt(off, n)·2 as a PC offset (R55, R58). -/
def offBytes {n : Nat} (o : BitVec n) : VAddr := o.signExtend 56 <<< 1

/-- The low 32 bits of a register, the operand of a `.w` form (R71). -/
def low32 (x : Word) : BitVec 32 := x.setWidth 32

/-- SignExt(Wrap(res, 32), 32): the result of a `.w` form (R71). -/
def ext32 (x : BitVec 32) : Word := x.signExtend 64

/-- A register-register instruction of width 64 and length `len` (R71, R58). -/
def State.alu (s : State) (len : Nat) (d a b : Reg) (f : Word → Word → Word) : Out :=
  .next ((s.setG d (f (s.g a) (s.g b))).finish len)

/-- A `.w` form whose result is sign-extended (R71). -/
def State.aluW (s : State) (len : Nat) (d a b : Reg) (f : BitVec 32 → BitVec 32 → BitVec 32) : Out :=
  .next ((s.setG d (ext32 (f (low32 (s.g a)) (low32 (s.g b))))).finish len)

/-- A `.w` comparison: its result is 0 or 1 (R71). -/
def State.cmpW (s : State) (len : Nat) (d a b : Reg) (f : BitVec 32 → BitVec 32 → Bool) : Out :=
  .next ((s.setG d (if f (low32 (s.g a)) (low32 (s.g b)) then 1 else 0)).finish len)

/-- A one-source instruction (R71). -/
def State.unary (s : State) (len : Nat) (d a : Reg) (f : Word → Word) : Out :=
  .next ((s.setG d (f (s.g a))).finish len)

/-- A register-immediate instruction (R73, R58). -/
def State.aluImm (s : State) (len : Nat) (d a : Reg) (y : Word) (f : Word → Word → Word) : Out :=
  .next ((s.setG d (f (s.g a) y)).finish len)

/-- A branch of length `len` (R79). -/
def State.branch (s : State) (len : Nat) (taken : Bool) (off : VAddr) : Out :=
  .next (if taken then s.jump (s.ctx.pc + off) else s.finish len)

/-- Quot(p, q) and its corners: division by zero gives all ones (R72). -/
def quot {n : Nat} (x y : BitVec n) : BitVec n := if y = 0 then BitVec.allOnes n else x.sdiv y

/-- The remainder of Quot: the dividend when the divisor is zero (R72). -/
def remainder {n : Nat} (x y : BitVec n) : BitVec n := if y = 0 then x else x.srem y

/-- x div y, all ones when y is zero (R72). -/
def quotN {n : Nat} (x y : BitVec n) : BitVec n := if y = 0 then BitVec.allOnes n else x / y

/-- x mod y, the dividend when y is zero (R72). -/
def remainderN {n : Nat} (x y : BitVec n) : BitVec n := if y = 0 then x else x % y

/-- ⌊xs·ys / 2^n⌋ wrapped to n bits (R71). -/
def mulHigh {n : Nat} (x y : BitVec n) : BitVec n := BitVec.ofInt n (x.toInt * y.toInt / 2 ^ n)

/-- ⌊x·y / 2^n⌋ wrapped to n bits (R71). -/
def mulHighN {n : Nat} (x y : BitVec n) : BitVec n := BitVec.ofNat n (x.toNat * y.toNat / 2 ^ n)

/-- x·2^s for the count y mod n (R71). -/
def shiftL {n : Nat} (x y : BitVec n) : BitVec n := x <<< (y.toNat % n)
/-- ⌊x / 2^s⌋ (R71). -/
def shiftR {n : Nat} (x y : BitVec n) : BitVec n := x >>> (y.toNat % n)
/-- ⌊xs / 2^s⌋ (R71). -/
def shiftA {n : Nat} (x y : BitVec n) : BitVec n := x.sshiftRight (y.toNat % n)

/-- The smaller of two signed values (R71). -/
def minS {n : Nat} (x y : BitVec n) : BitVec n := if x.slt y then x else y
/-- The larger of two signed values (R71). -/
def maxS {n : Nat} (x y : BitVec n) : BitVec n := if x.slt y then y else x
/-- The smaller of two unsigned values (R71). -/
def minU {n : Nat} (x y : BitVec n) : BitVec n := if x.ult y then x else y
/-- The larger of two unsigned values (R71). -/
def maxU {n : Nat} (x y : BitVec n) : BitVec n := if x.ult y then y else x

/-- 1 if xs < ys, else 0 (R71). -/
def setLess (x y : Word) : Word := if x.slt y then 1 else 0
/-- 1 if x < y, else 0 (R71). -/
def setLessN (x y : Word) : Word := if x.ult y then 1 else 0

/-- Leading zero bits (R71). -/
def clzOf {n : Nat} (x : BitVec n) : BitVec n := BitVec.ofNat n (leadingZeros n x.toNat)
/-- Trailing zero bits (R71). -/
def ctzOf {n : Nat} (x : BitVec n) : BitVec n := BitVec.ofNat n (trailingZeros n x.toNat)
/-- One bits (R71). -/
def cpopOf {n : Nat} (x : BitVec n) : BitVec n := BitVec.ofNat n (popCount n x.toNat)

end Sys2Proof.Machine
end

