-- ==== Sys2Proof/Machine/Flags.lean ====
section
/-!
DEFINITION. The sticky flags and the rounding mode of a context (R36, R37). No scalar integer instruction sets a flag (R71).
-/

namespace Sys2Proof.Machine

open Sys2Proof

/-- Sticky flags set in the executing context; hardware only sets them (R37). -/
def State.flag (s : State) (f : Flags) : State := s.mapCtx (fun x => x.orFlags f)

/-- The rounding mode that `FRM` holds when an instruction executes (R36). -/
def State.frmMode (s : State) : RMode := rmodeOf (fieldOf s.ctx.frm 0 2)

/-- The rounding code of a V format instruction: the mode of `FRM`, or the one it names (R68). -/
def State.roundOf (s : State) (r : VRound) : RMode :=
  match r with
  | .frm => s.frmMode
  | .rne => .rne
  | .rtz => .rtz
  | .rdn => .rdn
  | .rup => .rup

/-- Sticky flags set in a context that an asynchronous operation belongs to (R105, R183). -/
def State.flagOf (s : State) (n i : Nat) (f : Flags) : State := s.onCtx n i (fun x => x.orFlags f)

end Sys2Proof.Machine
end

