-- ==== Sys2Proof/Machine/Registers.lean ====
section
/-!
DEFINITION. The die register blocks: which offsets hold a register, which bits a store writes, and what a load reads
(R301, R338, R341, R365, R379, R382, R385, R391, R394, R395, R398, R401, R408, R412).
-/

namespace Sys2Proof.Machine

open Sys2Proof

/-- A register of die 0 alone: the other dies read it as zero and ignore stores (R391, R408). -/
def dieZeroOnly (off : Nat) : Bool := off == 0x130 || off == 0x138 || off == 0x140 || off == 0x148

/-- Does a register table of the manual name the doubleword at an offset (R301)? -/
def regNamed (off : Nat) : Bool :=
  off % 8 == 0 &&
  (decide (off ≤ 0xD8) || (decide (0x100 ≤ off) && decide (off ≤ 0x148)) || (decide (0x200 ≤ off) && decide (off ≤ 0x2A8))
    || (decide (0x300 ≤ off) && decide (off ≤ 0x328)))

/-- The bits of a register that a plain store writes; registers with a behaviour of their own are not written this way. -/
def regMask (off : Nat) : Word :=
  if off = 0x000 ∨ off = 0x010 then 0x0000FFFFFFFFFFFF
  else if off = 0x008 ∨ (0x018 ≤ off ∧ off ≤ 0x030) ∨ off = 0x040 then 0xFFFFFFFFFFFFFFFF
  else if off = 0x038 then 0x00000000FFFFFFFF
  else if off = 0x048 then 0xFFFFFFFF00000000
  else if 0x060 ≤ off ∧ off ≤ 0x0D8 then 0x800000000FFF0FFF
  else if off = 0x100 then 0xFF
  else if off = 0x108 then 0x0000FFFFFFFFFFFF
  else if off = 0x110 then 0x0000FF0000FFFFFF
  else if off = 0x148 then 0xFFFFFFFF00000000
  else if off = 0x288 then 0xFFFF000000000000
  else if off = 0x300 ∨ off = 0x308 then 0x80000000FFFFFFFF
  else if 0x310 ≤ off ∧ off ≤ 0x328 then 0x0000FFFFFFFFFFFF
  else if 0x200 ≤ off ∧ off < 0x280 ∧ off % 32 = 0 then 0x00000000FFFFFFFF
  else if 0x200 ≤ off ∧ off < 0x280 ∧ off % 32 = 8 then 0x0000FFFFFFFFFFFF
  else 0

/-- The offset of a register of SSD `n`: 0 SSDCFG, 8 SSDQMEM, 16 SSDSIZE, 24 SSDINFO (R394, R395). -/
def ssdOff (n r : Nat) : Nat := 0x200 + 32 * n + r

/-- Is a store to this register ignored: NSID and SSDQMEM while their SSD has EN = 1 (R395)? -/
def State.regLocked (s : State) (d off : Nat) : Bool :=
  decide (0x200 ≤ off) && decide (off < 0x280) && (s.dieReg d (0x200 + (off - 0x200) / 32 * 32)).getLsbD 63

/-- DIESTAT: the state of every die (R385). -/
def State.dieStat (s : State) : Word := BitVec.ofNat 64 (joinChunks 4 s.dstate.toList)

/-- What a load of a register reads; a WO field reads zero (R301). -/
def State.readReg (s : State) (d off : Nat) : Word :=
  if dieZeroOnly off ∧ d ≠ 0 then 0
  else if off = 0x058 ∨ off = 0x130 ∨ off = 0x290 then 0
  else if off = 0x120 then s.dieStat
  else s.dieReg d off

/-- A plain store: the writable bits of the register. -/
def State.writeReg (s : State) (d off : Nat) (v : Word) : State :=
  if (dieZeroOnly off && d != 0) || s.regLocked d off then s
  else s.setDieReg d off ((s.dieReg d off &&& ~~~(regMask off)) ||| (v &&& regMask off))

/-- The reply that an access to a die's register block gets in place of being performed: while the die is under warm reset,
until step 5 (R386, R410), or across a failed link. (DEDUCED, log 18) -/
def State.reachReg (s : State) (a d : Nat) : Option Nat :=
  match s.reach a d false with
  | some c => if s.dstate.toList.getD d 0 = 5 ∨ c = 3 then none else some c
  | none => none

/-- The event that a store to a register brings to its die; a register without a behaviour of its own is written plainly (R301). -/
def regStoreEvent (off : Nat) (v : Word) : Instr :=
  if off = 0x050 then .nqstatWrite
  else if off = 0x058 ∧ fieldOf v 60 4 = 1 then .freplyRetry
  else if off = 0x058 ∧ fieldOf v 60 4 = 2 then .freplyError
  else if off = 0x130 then
    match fieldOf v 8 3 with
    | 0 => .wrAdmit
    | 1 => .wrQuiesce
    | 2 => .wrWriteBack
    | 3 => .wrReset
    | 4 => .wrRetrain
    | 5 => .wrDiscover
    | _ => .registerWrite
  else if off = 0x140 then .elogbaseWrite
  else if 0x200 ≤ off ∧ off < 0x280 ∧ off % 32 = 0 then (if v.getLsbD 63 then .ssdEnable else .ssdDisable)
  else if off = 0x280 then .ffsbaseWrite
  else if off = 0x290 then .ffsPush
  else if off = 0x298 then .ffsstatWrite
  else if off = 0x2A0 then .srqbaseWrite
  else if off = 0x2A8 then .srqTailWrite
  else .registerWrite

/-- The event of a register access: its context, the register, the data, and whether it answers the context. -/
def State.regEvent (s : State) (d off : Nat) (v : Word) (answers : Bool) : Ev :=
  { Ev.ofCtx s.focus s.curCtx with die := d, addr := off, val := v, flag := answers }

/-- The PA of a register. -/
def regPa (d off : Nat) : Nat := 0x7F0000000000 + d * 0x100000 + off

/-- A store to a register by the executing context: brought to the register, which answers when it is performed (R301, R408).
A PWRCTL store acts on TRIP, EN and VF in turn (R382). (DEDUCED, log 18) -/
def State.storeReg (s : State) (d off : Nat) (v : Word) : Out :=
  match s.reachReg (dieOfCore s.focus) d with
  | some c => .next ((s.logCore s.focus 0x06 (regPa d off) (BitVec.ofNat 64 c)).finish 4)
  | none =>
    if off = 0x128 then
      .next ((((s.post .pwrctlTripClear (s.regEvent d off v false)).post .pwrctlEn (s.regEvent d off v false)).post .pwrctlVf
        (s.regEvent d off v true)).wait (.register (regPa d off)))
    else .next ((s.post (regStoreEvent off v) (s.regEvent d off v true)).wait (.register (regPa d off)))

/-- A load of a register by the executing context: one whose read clears fields is brought to the register, the others are
read at once. (DEDUCED, log 18) -/
def State.loadReg (s : State) (r : Reg) (d off : Nat) : Out :=
  match s.reachReg (dieOfCore s.focus) d with
  | some c => .next ((s.logCore s.focus 0x06 (regPa d off) (BitVec.ofNat 64 c)).raise (Trap.poison (0xFE * 2 ^ 48 + regPa d off)))
  | none =>
    let ask (i : Instr) : Out := .next ((s.post i (s.regEvent d off 0 true)).wait (.register (regPa d off)))
    if off = 0x050 then ask .nqstatRead
    else if off = 0x118 then ask .linkstatRead
    else if off = 0x298 then ask .ffsstatRead
    else .next ((s.setG r (s.readReg d off)).finish 4)

/-- A register access completes at its context: with a value for a load (R301). -/
def State.answerReg (s : State) (v : Option Word) : State :=
  if s.ev.flag then s.answer s.ev.core s.ev.ctx v else s

end Sys2Proof.Machine
end

