-- ==== Sys2Proof/Machine/Windows.lean ====
section
/-!
DEFINITION. The core-local windows that a doubleword load or store reaches: the matrix ring descriptors (R202) and the
event unit (R252), and how a scalar load or store is brought to them.
-/

namespace Sys2Proof.Machine

open Sys2Proof

/-- Which window a doubleword at an aligned address lies in. -/
inductive Window where
  | none
  | ring (off : Nat)
  | unit (off : Nat)
  | register (die off : Nat)
deriving DecidableEq, Repr

/-- The window of an aligned doubleword (R76, R202, R252, R301). -/
def windowOf (priv ea : Nat) : Window :=
  let o := ea % 2 ^ 48
  if ea % 8 ≠ 0 then .none
  else if topByte ea = 0xFF then
    if 0x110000 ≤ o ∧ o ≤ 0x1100FF then .ring (o - 0x110000)
    else if 0x200000 ≤ o ∧ o ≤ 0x20FFFF then .unit (o - 0x200000)
    else .none
  else if topByte ea = 0xFE ∧ priv = 2 ∧ paReg o ∧ regNamed ((o - 0x7F0000000000) % 0x100000) then
    .register ((o - 0x7F0000000000) / 0x100000) ((o - 0x7F0000000000) % 0x100000)
  else .none

/-- A doubleword of a matrix ring descriptor (R202). -/
def Core.ringWord (c : Core) (off : Nat) : Word :=
  let r := c.mx.rings.toList.getD (off / 32) MxRing.reset
  match off % 32 / 8 with
  | 0 => BitVec.ofNat 64 (r.cap * 2 ^ 40 + r.tsize * 2 ^ 24 + r.base)
  | 1 => BitVec.ofNat 64 (r.fill * 2 ^ 32 + r.tail * 65536 + r.head)
  | _ => 0

/-- The words of the event-unit window (R252). -/
inductive EuWord where
  | cfg (b : Nat)
  | arrive (b : Nat)
  | wait (b : Nat)
  | gen (b : Nat)
  | lock (m : Nat)
  | try (m : Nat)
  | evt (e : Nat)
  | estat (e : Nat)
  | hchain
  | waitpol
  | clid
deriving DecidableEq, Repr

/-- The word at an offset of the window, if the table lists it (R252). -/
def euWord (o : Nat) : Option EuWord :=
  if o < 0x200 then
    some (match o % 32 / 8 with
      | 0 => .cfg (o / 32)
      | 1 => .arrive (o / 32)
      | 2 => .wait (o / 32)
      | _ => .gen (o / 32))
  else if 0x1000 ≤ o ∧ o < 0x1100 then some (if o % 16 = 0 then .lock ((o - 0x1000) / 16) else .try ((o - 0x1000) / 16))
  else if 0x2000 ≤ o ∧ o < 0x2200 then some (if o % 16 = 0 then .evt ((o - 0x2000) / 16) else .estat ((o - 0x2000) / 16))
  else if o = 0x3000 then some .hchain
  else if o = 0x3008 then some .waitpol
  else if o = 0x3010 then some .clid
  else none

/-- CFG as it reads (R256). -/
def Barrier.cfg (b : Barrier) : Word :=
  BitVec.ofNat 64 ((if b.en then 2 ^ 63 else 0) + (if b.brk then 2 ^ 62 else 0) + b.level * 2 ^ 59 + b.gen.toNat)

/-- A status doubleword: STATUS 0 done, 1 broken, 2 timed out, 3 not granted (R253). -/
def euStatus (status value : Nat) : Word := BitVec.ofNat 64 (status * 2 ^ 62 + value % 2 ^ 32)

/-- Barrier `i` of a cluster. -/
def Cluster.barrier (c : Cluster) (i : Nat) : Barrier := c.barriers.toList.getD i Barrier.reset
/-- Mutex `i` of a cluster. -/
def Cluster.mutex (c : Cluster) (i : Nat) : Mutex := c.mutexes.toList.getD i { holder := none, queue := [], broken := false }
/-- Event `i` of a cluster. -/
def Cluster.event (c : Cluster) (i : Nat) : EuEvent := c.events.toList.getD i { set := false, payload := 0, waiters := [], broken := false }

/-- ESTAT as it reads: the set bit and the payload; a broken event returns STATUS broken (R262, R274). -/
def EuEvent.estat (e : EuEvent) : Word :=
  if e.broken then euStatus 1 0 else BitVec.ofNat 64 ((if e.set then 2 ^ 32 else 0) + e.payload.toNat)

/-- The event that brings a load or store to the event unit: the context, the object's number, the limit of a `waitt`. -/
def State.euEvent (s : State) (unit : Nat) (v : Word) (limit : Option Word) : Ev :=
  { Ev.ofCtx s.focus s.curCtx with unit := unit, val := v, flag := limit.isSome, data := limit.toList }

/-- A waiting load of the event unit by the executing context (R252, R265). -/
def State.euAsk (s : State) (i : Instr) (unit off : Nat) (limit : Option Word) : Out :=
  .next ((s.post i (s.euEvent unit 0 limit)).wait (.window off limit))

/-- A doubleword load of the event-unit window (R252): ARRIVE, WAIT, LOCK, TRY and EVT go to the unit, the others read at once. -/
def State.euLoad (s : State) (r : Reg) (ea off : Nat) : Out :=
  let c := s.clusterAt (clusterOfCore s.focus)
  let give (v : Word) : Out := .next ((s.setG r v).finish 4)
  match euWord off with
  | none => s.trapped (Trap.protection ea)
  | some (.cfg b) => give (c.barrier b).cfg
  | some (.gen b) => give (BitVec.ofNat 64 (c.barrier b).gen.toNat)
  | some (.estat e) => give (c.event e).estat
  | some .hchain => give c.hchain
  | some .waitpol => give c.waitpol
  | some .clid => give (BitVec.ofNat 64 (posOfCore s.focus * 65536 + clusterOfCore s.focus))
  | some (.arrive b) => s.euAsk .arriveLoad b off none
  | some (.wait b) => s.euAsk .waitLoad b off none
  | some (.lock m) => s.euAsk .lockLoad m off none
  | some (.try m) => s.euAsk .tryLoad m off none
  | some (.evt e) => s.euAsk .evtLoad e off none

/-- A doubleword store to the event-unit window, if the word has a store action and the privilege permits it (R252). -/
def State.euStore (s : State) (ea off : Nat) (v : Word) : Out :=
  let refuse : Out := s.trapped (Trap.protection ea)
  let tell (i : Instr) (n : Nat) : Out := .next ((s.post i (s.euEvent n v none)).wait (.window off none))
  let onUnit (f : Cluster → Cluster) : Out := .next ((s.onCluster (clusterOfCore s.focus) f).finish 4)
  match euWord off with
  | some (.cfg b) => if s.ctx.priv = 0 then refuse else tell .barrierCfgWrite b
  | some (.arrive b) => tell .arriveStore b
  | some (.lock m) => tell .lockStore m
  | some (.evt e) => tell .evtStore e
  | some (.estat e) => tell .estatStore e
  | some .hchain => if s.ctx.priv = 2 then onUnit (fun c => { c with hchain := v }) else refuse
  | some .waitpol => if s.ctx.priv = 2 then onUnit (fun c => { c with waitpol := v }) else refuse
  | _ => refuse

/-- A store to a matrix ring descriptor: doubleword 0 is brought to the ring, the others are ignored (R202). -/
def State.ringStore (s : State) (off : Nat) (v : Word) : Out :=
  if off % 32 = 0 then
    .next ((s.post .ringConfigWrite { Ev.ofCtx s.focus s.curCtx with unit := off / 32, val := v, flag := true }).wait (.window (0x110000 + off) none))
  else .next (s.finish 4)

end Sys2Proof.Machine
end

