-- ==== Sys2Proof/Machine/Segments.lean ====
section
/-!
DEFINITION. Domains and segments: the rights of a domain over a 64 KiB unit, and over a range (R82, R302).
-/

namespace Sys2Proof.Machine

open Sys2Proof

/-- A segment of a domain as read: first unit, last unit and rights; one with a reserved bit set grants nothing (R302). -/
structure Segment where
  first : Nat
  last : Nat
  rights : Nat
deriving DecidableEq, Repr

/-- Segment `i` of a table at its physical-window home; LAST below FIRST makes an empty range. -/
def State.segment (s : State) (d pa : Nat) : Segment :=
  let (w0, p0) := s.peekWord d pa
  let (w1, p1) := s.peekWord d (pa + 8)
  let bad := p0 || p1 || fieldOf w0 56 8 != 0 || fieldOf w0 4 12 != 0 || fieldOf w1 56 8 != 0 || fieldOf w1 0 16 != 0
  { first := fieldOf w0 16 40, last := fieldOf w1 16 40, rights := if bad then 0 else fieldOf w0 0 4 }

/-- Is a segment malformed: a reserved bit, or LAST below FIRST (R302)? (DEDUCED, log 14) -/
def State.segmentBad (s : State) (d pa : Nat) : Bool :=
  let (w0, _) := s.peekWord d pa
  let (w1, _) := s.peekWord d (pa + 8)
  fieldOf w0 56 8 != 0 || fieldOf w0 4 12 != 0 || fieldOf w1 56 8 != 0 || fieldOf w1 0 16 != 0
    || decide (fieldOf w1 16 40 < fieldOf w0 16 40)

/-- The segments of a domain in their order, with their PAs; none for a domain at or above NDOM (R301, R302). (DEDUCED, log 14) -/
def State.segmentPas (s : State) (d dom : Nat) : List Nat :=
  let t := s.dieReg d 0x008
  if fieldOf t 48 16 ≤ dom then [] else
  let (w, p) := s.peekWord d (fieldOf t 0 48 + 32 * dom)
  if p then [] else (List.range (fieldOf w 52 12)).map (fun i => fieldOf w 0 48 + 16 * i)

/-- The segments that are read to find the rights over a unit: those up to its lowest-numbered holder (R302). -/
def State.segmentsRead (s : State) (d dom u : Nat) : List Nat :=
  let pas := s.segmentPas d dom
  match pas.findIdx? (fun pa => decide ((s.segment d pa).first ≤ u) && decide (u ≤ (s.segment d pa).last)) with
  | some k => pas.take (k + 1)
  | none => pas

/-- What a reading of a domain's entry and of segments finds wrong, by CLASS and PA: an uncorrectable error, or a malformed segment, which
grants nothing (R6, R302, R434). -/
def State.segmentErrors (s : State) (d dom : Nat) (pas : List Nat) : List (Nat × Nat) :=
  let e := fieldOf (s.dieReg d 0x008) 0 48 + 32 * dom
  (if dom < fieldOf (s.dieReg d 0x008) 48 16 && (s.peekWord d e).2 then [(0x02, e)] else []) ++
  pas.flatMap (fun pa =>
    if (s.peekWord d pa).2 || (s.peekWord d (pa + 8)).2 then [(0x02, pa)] else if s.segmentBad d pa then [(0x07, pa)] else [])

/-- Those errors logged by a core. -/
def State.logSegments (s : State) (n dom : Nat) (pas : List Nat) : State :=
  (s.segmentErrors (dieOfCore n) dom pas).foldl (fun a e => a.logCore n e.1 e.2 0) s

/-- The stretch of units around `u` over which one segment, or none, is the lowest-numbered holder, with its rights (R302). -/
def stretchOf (segs : List Segment) (u : Nat) : Segment :=
  let step (acc : Segment × Bool) (g : Segment) : Segment × Bool :=
    if acc.2 || g.last < g.first then acc
    else if g.first ≤ u ∧ u ≤ g.last then
      ({ first := max acc.1.first g.first, last := min acc.1.last g.last, rights := g.rights }, true)
    else if u < g.first then ({ acc.1 with last := min acc.1.last (g.first - 1) }, false)
    else ({ acc.1 with first := max acc.1.first (g.last + 1) }, false)
  (segs.foldl step ({ first := 0, last := 2 ^ 40 - 1, rights := 0 }, false)).1

/-- The stretch around a unit in a domain. -/
def State.domainStretch (s : State) (d dom u : Nat) : Segment := stretchOf ((s.segmentPas d dom).map (fun pa => s.segment d pa)) u

/-- The rights of a domain over a unit. -/
def State.domainRights (s : State) (d dom u : Nat) : Nat := (s.domainStretch d dom u).rights

/-- The stretch around a unit as a core sees it: a PLB entry, or on a miss the domain's segments (R82, R236). -/
def State.coreStretch (s : State) (n u : Nat) : Segment :=
  match (s.coreAt n).plb.find? (fun e => decide (e.first ≤ u) && decide (u ≤ e.last)) with
  | some e => { first := e.first, last := e.last, rights := e.rights }
  | none => s.domainStretch (dieOfCore n) (s.coreAt n).domain u

/-- The intersection of the rights over the units `u` to `last`, stretch by stretch. -/
def State.rightsOver (s : State) (n : Nat) : Nat → Nat → Nat → Nat → Nat
  | 0, _, _, acc => acc
  | fuel + 1, u, last, acc =>
    if last < u ∨ acc = 0 then acc else
    let g := s.coreStretch n u
    s.rightsOver n fuel (g.last + 1) last (acc &&& g.rights)

/-- The segments that Rights(base, len) reads where the PLB does not hold them, the longest reading. -/
def State.segmentsOver (s : State) (n : Nat) : Nat → Nat → Nat → Nat → List Nat → List Nat
  | 0, _, _, _, pas => pas
  | fuel + 1, u, last, acc, pas =>
    if last < u ∨ acc = 0 then pas else
    let g := s.coreStretch n u
    let c := s.coreAt n
    let read := if c.plb.any (fun e => decide (e.first ≤ u) && decide (u ≤ e.last)) then [] else s.segmentsRead (dieOfCore n) c.domain u
    s.segmentsOver n fuel (g.last + 1) last (acc &&& g.rights) (if pas.length < read.length then read else pas)

/-- Rights(base, len) of R82. -/
def State.rightsOf (s : State) (n base len : Nat) : Nat :=
  if len = 0 ∨ 2 ^ 56 < base + len then 0
  else
    let top := base + len - 1
    if topByte base = 0xFF then 0b10011
    else if topByte top = 0xFF ∨ topByte base = 0xFE ∨ topByte top = 0xFE then 0
    else s.rightsOver n 8256 (base / 65536) (top / 65536) 0b1111

/-- The segments that Rights(base, len) reads, with what is wrong with them logged (R82, R302). -/
def State.readRights (s : State) (n base len : Nat) : State :=
  let top := base + len - 1
  if len = 0 ∨ 2 ^ 56 < base + len ∨ 0xFE ≤ topByte base ∨ 0xFE ≤ topByte top then s
  else
    match s.segmentsOver n 8256 (base / 65536) (top / 65536) 0b1111 [] with
    | [] => s
    | pas => s.logSegments n (s.coreAt n).domain pas

/-- Does a domain's read or write right, as a core sees it, cover a run of bytes outside the windows? -/
def State.agentGranted (s : State) (n : Nat) (need : Need) (ea k : Nat) : Bool :=
  k == 0 || need.granted (s.rightsOver n 8256 (ea / 65536) ((ea + k - 1) / 65536) 0b1111)

end Sys2Proof.Machine
end

