-- ==== Sys2Proof/Machine/System.lean ====
section
/-!
DEFINITION. Fat-pointer instructions (R81, R82), operand-extension transfers (R83), system registers (R84, R85),
`trap`, `eret` and `halt` (R86, R87), fences (R89, R90), translation and cache maintenance (R91), helpers (R92).
-/

namespace Sys2Proof.Machine

open Sys2Proof

/-- `padd` and `paddi`: the address moves, the tags stay (R81). -/
def State.ptrAdd (s : State) (len : Nat) (d a : Reg) (off : Int) : Out :=
  let p := s.g a
  let q := effAddr p off
  if q < 0 ∨ (2 : Int) ^ 56 ≤ q then s.trapped (Trap.range p)
  else .next ((s.setG d (p.extractLsb' 56 8 ++ BitVec.ofInt 56 q)).finish len)

/-- `padd` (R81). -/
def execPadd (d a b : Reg) (s : State) : Out := s.ptrAdd 4 d a (s.g b).toInt
/-- `paddi` (R81). -/
def execPaddi (d a : Reg) (i : BitVec 12) (s : State) : Out := s.ptrAdd 4 d a i.toInt
/-- `paddi` in its 16-bit form (R58). -/
def execPaddiShort (d : Reg) (i : BitVec 5) (s : State) : Out := s.ptrAdd 2 d d i.toInt
/-- `ptag` (R81). -/
def execPtag (d a : Reg) (t : BitVec 8) (s : State) : Out := .next ((s.setG d (t ++ (s.g a).extractLsb' 0 56)).finish 4)
/-- `pset` (R81). -/
def execPset (d a b : Reg) (s : State) : Out :=
  .next ((s.setG d ((s.g b).extractLsb' 56 8 ++ (s.g a).extractLsb' 0 56)).finish 4)
/-- `pchk` (R81, R82). -/
def execPchk (d a b : Reg) (s : State) : Out :=
  let base := ptrAddr (s.g a)
  let len := (s.g b).toNat
  .next (((s.readRights s.focus base len).setG d (BitVec.ofNat 64 (s.rightsOf s.focus base len))).finish 4)

/-- `oxset` (R83). -/
def execOxset (d : OxReg) (a : Reg) (s : State) : Out := .next ((s.mapCtx (fun x => x.setOx d (s.g a))).finish 4)
/-- `oxget` (R83). -/
def execOxget (d : Reg) (a : OxReg) (s : State) : Out := .next ((s.setG d (s.ctx.getOx a)).finish 4)

/-- How a privilege level may reach a system register (R84). -/
inductive SysAccess where
  | absent
  | none
  | r
  | rw
deriving DecidableEq, Repr

/-- The access table of R84. -/
def sysAccess (n priv : Nat) : SysAccess :=
  let byLevel (u sv sc : SysAccess) : SysAccess := if priv = 0 then u else if priv = 1 then sv else sc
  match n with
  | 0x000 => .r
  | 0x001 => .r
  | 0x002 => .r
  | 0x010 => .rw
  | 0x011 => .rw
  | 0x012 => byLevel .r .rw .rw
  | 0x013 => .r
  | 0x014 => .r
  | 0x020 => byLevel .none .rw .rw
  | 0x021 => byLevel .none .rw .rw
  | 0x022 => byLevel .none .r .r
  | 0x023 => byLevel .none .r .r
  | 0x024 => byLevel .none .r .r
  | 0x025 => byLevel .none .rw .rw
  | 0x026 => byLevel .none .rw .rw
  | 0x027 => byLevel .none .rw .rw
  | 0x030 => .rw
  | 0x031 => .rw
  | 0x040 => byLevel .r .rw .rw
  | 0x041 => byLevel .r .r .rw
  | 0x042 => byLevel .r .r .rw
  | 0x043 => byLevel .r .r .rw
  | 0x044 => byLevel .r .r .rw
  | 0x045 => byLevel .r .rw .rw
  | 0x050 => byLevel .r .r .rw
  | 0x051 => byLevel .r .r .rw
  | _ => .absent

/-- `DEV.IDENT` as a die's cores read it (R10). (DESIGN CHOICE, log 86) -/
def devIdent (die : Nat) : Word :=
  0x4C59#16 ++ 0x4032#16 ++ Config.major ++ BitVec.ofNat 4 Config.minor.val ++ BitVec.ofNat 8 die ++ 1008#10 ++ 0#6

/-- `DEV.IDENT` as the host reads it through the service processor (R10). -/
def hostIdent : Word := devIdent 0xFF

/-- `ULI.STAT` as it reads: PEND is 1 while the inbox holds an entry for the context (R243). -/
def State.uliStatRead (s : State) : Word :=
  setField s.ctx.uliStat 2 1 (if s.core.inbox.any (fun e => e.ctx == s.curCtx) then 1 else 0)

/-- The value of a system register for the executing context (R84, R85). -/
def State.readSys (s : State) (n : Nat) : Word :=
  let x := s.ctx
  let c := s.core
  match n with
  | 0x000 => devIdent (dieOfCore s.focus)
  | 0x001 => c.cyc
  | 0x002 => s.time
  | 0x010 => x.frm
  | 0x011 => x.fstat
  | 0x012 => x.stat
  | 0x013 => x.vl
  | 0x014 => x.vcfg
  | 0x020 => c.trapVec
  | 0x021 => x.trapPc
  | 0x022 => x.trapWord
  | 0x023 => x.trapCause
  | 0x024 => x.trapAddr
  | 0x025 => x.trapScr0
  | 0x026 => x.trapScr1
  | 0x027 => x.bkptPc
  | 0x030 => x.uliVec
  | 0x031 => s.uliStatRead
  | 0x040 => c.fmtBase
  | 0x041 => c.domCl
  | 0x042 => c.domDie
  | 0x043 => c.domPkg
  | 0x044 => c.domFab
  | 0x045 => c.bcastGrp
  | 0x050 => c.yieldDl
  | 0x051 => c.jobDl
  | _ => 0

/-- `CTX.STAT` written by `swr`: BSKIP, INH, BCTE, and PPRIV as the lesser of the value and the writer's privilege (R38). -/
def Ctx.writeStat (x : Ctx) (v : Word) : Ctx :=
  (((x.setStat 11 1 (fieldOf v 11 1)).setStat 10 1 (fieldOf v 10 1)).setStat 5 1 (fieldOf v 5 1)).setStat 8 2
    (min (fieldOf v 8 2) x.priv)

/-- A job deadline written is watched from now on (R270). -/
def State.watchDeadline (s : State) (v : Word) : State :=
  match s.core.task with
  | some t =>
    let m : Move := .event .jobDeadline { Ev.empty with unit := t.part }
    if v ≠ 0 ∧ !s.agenda.contains m then { s with agenda := s.agenda ++ [m] } else s
  | none => s

/-- A system register written for the executing context; writes to RO fields are ignored (R84). -/
def State.writeSys (s : State) (n : Nat) (v : Word) : State :=
  match n with
  | 0x010 => s.mapCtx (fun x => { x with frm := v &&& 3 })
  | 0x011 => s.mapCtx (fun x => { x with fstat := v &&& 0x7F })
  | 0x012 => s.mapCtx (fun x => x.writeStat v)
  | 0x020 => s.mapCore (fun c => { c with trapVec := v &&& 0x00FFFFFFFFFFFFFF })
  | 0x021 => s.mapCtx (fun x => { x with trapPc := v &&& 0x00FFFFFFFFFFFFFE })
  | 0x025 => s.mapCtx (fun x => { x with trapScr0 := v })
  | 0x026 => s.mapCtx (fun x => { x with trapScr1 := v })
  | 0x027 => s.mapCtx (fun x => { x with bkptPc := v &&& 0x00FFFFFFFFFFFFFF })
  | 0x030 => s.mapCtx (fun x => { x with uliVec := v &&& 0x00FFFFFFFFFFFFFE })
  | 0x031 => s.mapCtx (fun x => { x with uliStat := setField x.uliStat 0 1 (fieldOf v 0 1) })
  | 0x040 => s.mapCore (fun c => { c with fmtBase := v &&& 0x00FFFFFFFFFFFFE0, fmtCache := [] })
  | 0x041 => s.mapCore (fun c => { c with domCl := v &&& 0xFFFF })
  | 0x042 => s.mapCore (fun c => { c with domDie := v &&& 0x7FFFFFFFFFFFFFFF })
  | 0x043 => s.mapCore (fun c => { c with domPkg := v &&& 0xF })
  | 0x044 => s.mapCore (fun c => { c with domFab := v &&& 0xFFFFFFFFFF000000 })
  | 0x045 => s.mapCore (fun c => { c with bcastGrp := v &&& 0x8000000F0000FFFF })
  | 0x050 => s.mapCore (fun c => { c with yieldDl := v })
  | 0x051 => (s.mapCore (fun c => { c with jobDl := v })).watchDeadline v
  | _ => s

/-- `srd` (R84). -/
def execSrd (d : Reg) (n : BitVec 12) (s : State) : Out :=
  match sysAccess n.toNat s.ctx.priv with
  | .absent => s.trapped (Trap.illegal 2)
  | .none => s.trapped (Trap.illegal 3)
  | _ => .next ((s.setG d (s.readSys n.toNat)).finish 4)

/-- `swr` (R84): a register that is only readable at the level held gives detail 3 when a higher level may write it, else detail 2.
BSKIP is cleared by the breakpoint that the instruction itself was under, so `BKPT.PC` is written last (R49). -/
def execSwr (a : Reg) (n : BitVec 12) (s : State) : Out :=
  match sysAccess n.toNat s.ctx.priv with
  | .absent => s.trapped (Trap.illegal 2)
  | .none => s.trapped (Trap.illegal 3)
  | .r => s.trapped (Trap.illegal (if sysAccess n.toNat 2 = .rw then 3 else 2))
  | .rw =>
    if n = 0x027 then .next ((s.finish 4).writeSys 0x027 (s.g a))
    else .next ((s.writeSys n.toNat (s.g a)).finish 4)

/-- `trap` (R86). -/
def execTrap (i : BitVec 12) (s : State) : Out := s.trapped (Trap.software i.toNat)

/-- `eret` (R45, R86): at user level it is an illegal instruction with detail 3. -/
def execEret (s : State) : Out :=
  if s.ctx.priv = 0 then s.trapped (Trap.illegal 3) else .next (s.mapCtx Ctx.eret)

/-- `halt` (R87): issue stops in every context of the core; the entry reports TRAP.PC. (DEDUCED, log 16) -/
def execHalt (s : State) : Out :=
  if s.ctx.priv = 0 then s.trapped (Trap.illegal 3)
  else
    let s1 := s.finish 4
    .next (s1.haltCore s.focus s.curCtx (fieldOf s.ctx.trapPc 0 56) 0)

/-- The release of a fence or of another instruction's ordering part by the executing context: the write-backs are made,
and while something still keeps it from completing, the context is not ready (R89, R167, R323). -/
def State.releaseThen (s : State) (sc : Scope) (k : State → Out) : Out :=
  let s1 := s.release s.focus sc
  if s1.releaseWaits s.focus s.curCtx sc then .next (s1.wait .busy) else k s1

/-- `fence.acq` (R89). -/
def execFenceAcq (sc : Scope) (s : State) : Out := .next ((s.acquire s.focus sc).finish 4)
/-- `fence.rel` (R89). -/
def execFenceRel (sc : Scope) (s : State) : Out := s.releaseThen sc (fun s => .next (s.finish 4))
/-- `fence.ar` (R89). -/
def execFenceAr (sc : Scope) (s : State) : Out := s.releaseThen sc (fun s => .next ((s.acquire s.focus sc).finish 4))
/-- `fence.fmt` (R90): once the context's earlier stores are performed, the held ones too (R167), the core's format-record cache is
invalidated. -/
def execFenceFmt (s : State) : Out :=
  if s.core.hold.any (fun e => e.ctxs.contains s.curCtx) then .next (s.wait .busy)
  else .next ((s.mapCore (fun c => { c with fmtCache := [] })).finish 4)
/-- `fence.i` (R90): every earlier store of the core is written back, host memory has acknowledged its part, and the core's instruction
cache is invalidated. (DEDUCED, log 21) -/
def execFenceI (s : State) : Out :=
  let s1 := (s.l1Cores s.focus).foldl (fun a m => a.flushL1 m) s
  if s1.core.hold.isEmpty && !s1.hostPending s1.focus then .next ((s1.mapCore (fun c => { c with icache := [] }.staleWaits (fun r => r.kind == 2))).finish 4)
  else .next (s1.wait .busy)

/-- Does a scope of core `n` contain core `m` (R317)? -/
def inScope (n : Nat) (sc : Scope) (m : Nat) : Bool :=
  match sc with
  | .core => m == n
  | .cluster => clusterOfCore m == clusterOfCore n
  | .die => dieOfCore m == dieOfCore n
  | _ => true

/-- The listed cores in a scope of core `n`. -/
def State.scopeCores (s : State) (n : Nat) (sc : Scope) : List Nat := (s.cores.map (fun nc => nc.1)).filter (fun m => inScope n sc m)

/-- The size of the page that maps an address; a page that is not mapped acts as one of 64 KiB (R91). A leaf that is not valid still
gives the page its size. (DESIGN CHOICE, log 95) -/
def State.pageSize (s : State) (n va : Nat) : Nat :=
  if !isTranslated va then 65536 else
  match (s.queryLeaf (dieOfCore n) va).1 with
  | .leaf l => l.pageBytes
  | _ => 65536

/-- Every cached translation of a page dropped: by the walker of the core's slice, by its home cache and by its PLB (R91, R236, R306). -/
def Core.dropTranslation (c : Core) (base size : Nat) : Core :=
  let lo := base / 65536
  let hi := (base + size - 1) / 65536
  { c with
    tcache := c.tcache.filter (fun p =>
      !((List.range 4).any (fun lv => decide (levelKey lv base ≤ p.1) && decide (p.1 ≤ levelKey lv (base + size - 1)))))
    homeCache := c.homeCache.filter (fun p => !(decide (lo ≤ p.1) && decide (p.1 ≤ hi)))
    plb := c.plb.filter (fun e => !(decide (e.first ≤ hi) && decide (lo ≤ e.last))) }

/-- The effect of `tinval` of a page on the cores of a scope. -/
def State.tinvalPage (s : State) (n : Nat) (sc : Scope) (va : Nat) : State :=
  let size := s.pageSize n va
  (s.scopeCores n sc).foldl (fun a m => a.onCore m (fun c => c.dropTranslation (va / size * size) size)) s

/-- Must a maintenance operation on a page still wait within its scope: for host memory's acknowledgement of words written to it, or for
words that were asked of it under a translation of the page (R91, R329, R420)? -/
def State.hostBusy (s : State) (n : Nat) (sc : Scope) (base size : Nat) : Bool :=
  (s.scopeCores n sc).any (fun m =>
    !(s.coreAt m).hostWrites.isEmpty || (s.coreAt m).remoteWaits.any (fun r => decide (base ≤ r.2.va) && decide (r.2.va < base + size)))

/-- `tinval` (R91, R329): complete once every access that used a removed translation has been performed. -/
def execTinval (sc : Scope) (a : Reg) (s : State) : Out :=
  if s.ctx.priv = 0 then s.trapped (Trap.illegal 3)
  else
    let va := ptrAddr (s.g a)
    let size := s.pageSize s.focus va
    let s1 := s.tinvalPage s.focus sc va
    .next (if s1.hostBusy s1.focus sc (va / size * size) size then s1.wait .busy else s1.finish 4)

/-- Does a line lie in a page? -/
def lineIn (base size line : Nat) : Bool := decide (base / 64 ≤ line) && decide (line < (base + size) / 64)

/-- The lines of an L1 that hold words or partials of a page. -/
def Core.pageLines (c : Core) (base size : Nat) : List Nat :=
  let a := c.l1.foldl (fun acc p => if lineIn base size (p.1 / 16) then insertNat (p.1 / 16) acc else acc) []
  c.partials.foldl (fun acc p => if lineIn base size (p.1 / 16) then insertNat (p.1 / 16) acc else acc) a

/-- A page purged from one core's L1: written back and combined at its homes, or dropped; a line of which a poisoned word is written
back is logged (R91). -/
def State.purgeL1 (s : State) (m base size : Nat) (discard : Bool) : State :=
  ((s.coreAt m).pageLines base size).foldl (fun a line =>
    let b := if discard then a.onCore m (fun c => { c with partials := c.partials.filter (fun p => p.1 / 16 != line) })
      else
        let a1 := if ((a.coreAt m).dirtyWords line).any (fun w => w.2.poison) then a.logCore m 0x02 (line * 64) 0 else a
        (a1.writeBackLine m line).sendPartials m line
    b.onCore m (fun c => c.dropLine line)) s

/-- A page purged from one home slice; a line of which a poisoned word is written back is logged (R91). -/
def State.purgeSlice (s : State) (m base size : Nat) (discard : Bool) : State :=
  ((s.coreAt m).l2.filter (fun p => lineIn base size p.1)).foldl (fun a p =>
    if discard then a.dropSliceLine m p.1
    else (if p.2.poison &&& p.2.dirty = 0 then a else a.logSlice m 0x02 (p.1 * 64) 0).evictHomeLine m p.1) s

/-- The effect of `purge` of a page within a scope: first the L1s, then the home slices (R91). -/
def State.purgePage (s : State) (n : Nat) (sc : Scope) (va : Nat) (discard : Bool) : State :=
  let size := s.pageSize n va
  let base := va / size * size
  let cores := s.scopeCores n sc
  let s1 := cores.foldl (fun a m => a.purgeL1 m base size discard) s
  (s1.scopeCores n sc).foldl (fun a m => a.purgeSlice m base size discard) s1

/-- `purge` (R91): complete once the words of the page that it wrote back to host memory are acknowledged there. -/
def execPurge (sc : Scope) (discard : Bool) (a : Reg) (s : State) : Out :=
  if s.ctx.priv = 0 then s.trapped (Trap.illegal 3)
  else
    let va := ptrAddr (s.g a)
    let size := s.pageSize s.focus va
    let s1 := s.purgePage s.focus sc va discard
    .next (if s1.hostBusy s1.focus sc (va / size * size) size then s1.wait .busy else s1.finish 4)

/-- `icinv` (R91). -/
def execIcinv (sc : Scope) (a : Reg) (s : State) : Out :=
  let va := ptrAddr (s.g a)
  let size := s.pageSize s.focus va
  let base := va / size * size
  .next (((s.scopeCores s.focus sc).foldl (fun st m =>
    st.onCore m (fun c => { c with icache := c.icache.filter (fun p => !lineIn base size p.1) }.staleWaits (fun r => r.kind == 2))) s).finish 4)

/-- The free helper slot with the lowest number (R40). -/
def Core.freeHelper (c : Core) : Option Nat := ((List.range 10).map (fun i => i + 1)).find? (fun i => (c.ctx i).life == .free)

/-- A helper as `hstart` makes it (R40). -/
def helperStart (x : Ctx) (n : Nat) (entry : VAddr) (arg : Word) : Ctx :=
  { Ctx.reset n with
    life := .live
    pc := entry
    g := (Vector.replicate 32 0).set 1 arg
    frm := x.frm
    stat := BitVec.ofNat 64 (n * 4096 + (if x.bcte then 32 else 0) + x.priv) }

/-- `hstart` (R39, R40, R92). -/
def execHstart (d a b : Reg) (s : State) : Out :=
  if s.ctx.cidx ≠ 0 then s.trapped (Trap.illegal 2)
  else
    match s.core.freeHelper with
    | none => .next ((s.setG d 0).finish 4)
    | some n =>
      let h := helperStart s.ctx n (BitVec.ofNat 56 (fieldOf (s.g a) 1 55 * 2)) (s.g b)
      .next (((s.setCtxAt s.focus n h).setG d (BitVec.ofNat 64 n)).finish 4)

/-- Does a context wait for the exit of a helper (R41)? -/
def Ctx.waitsHelper (x : Ctx) (n : Nat) : Bool :=
  match x.wait with
  | some w => w.why == .helper n
  | none => false

/-- `hexit` (R39, R41): the helper holds its exit value and no PC; a control context that waits for it is ready again. -/
def execHexit (a : Reg) (s : State) : Out :=
  if s.ctx.cidx = 0 then s.trapped (Trap.illegal 2)
  else
    let v := s.g a
    let s1 := s.mapCtx (fun x => { x with life := .exited v, wait := none })
    .next (if (s1.ctxAt s.focus 0).waitsHelper s.curCtx then s1.ready s.focus 0 else s1)

/-- `hjoin` (R39, R41, R92). -/
def execHjoin (d : Reg) (n : BitVec 12) (s : State) : Out :=
  let k := n.toNat
  if s.ctx.cidx ≠ 0 ∨ k = 0 ∨ 10 < k then s.trapped (Trap.illegal 2)
  else
    match (s.ctxAt s.focus k).life with
    | .free => .next ((s.setG d 0).finish 4)
    | .live => .next (s.wait (.helper k))
    | .exited v => .next (((s.setCtxAt s.focus k (Ctx.reset k)).setG d v).finish 4)

end Sys2Proof.Machine
end

