-- ==== Sys2Proof/Machine/FaultService.lean ====
section
/-!
DEFINITION. The home's side of a memory access (R236, R306 to R309): misses, queries, responses and refills;
fault service (R310 to R313): messages, wakes, re-walks and replies.
A parked request of an asynchronous agent carries the event that the agent takes up again; `aux` of that event says how the
request ended: 0 served, 1 refused, 2 poisoned, 16 + c an error reply of code c; `addr` then names the address that failed.
-/

namespace Sys2Proof.Machine

open Sys2Proof

/-- Does a context wait for its request to the home of an address? -/
def Ctx.waitsMem (x : Ctx) (va : Nat) : Bool :=
  match x.wait with
  | some w =>
    match w.why with
    | .mem a _ => a == va
    | .probe a => a == va
    | _ => false
  | none => false

/-- Does a context wait for the homing fields of a page? -/
def Ctx.waitsQuery (x : Ctx) (page : Nat) : Bool :=
  match x.wait with
  | some w => w.why == .query page
  | none => false

/-- Does a context wait for a PLB refill at an address? -/
def Ctx.waitsPlb (x : Ctx) (va : Nat) : Bool :=
  match x.wait with
  | some w => w.why == .plb va
  | none => false

/-- A waiting instruction of a context raises a trap whose failure has been logged where it was met (R308). -/
def State.endWaiting (s : State) (n i : Nat) (t : Trap) : State :=
  match (s.ctxAt n i).wait with
  | some w => s.raiseOn n i w.ir t
  | none => s

/-- The request of an event about a context, as a slice parks it. -/
def Ev.req (e : Ev) (kind : Nat) : Req :=
  { kind := kind, core := e.core, ctx := e.ctx, va := e.addr, ea := e.aux, words := e.data.map BitVec.toNat, again := none, stale := false }

/-- Does a context wait for words of a later element of a first-fault load (R131)? -/
def Ctx.probes (x : Ctx) : Bool :=
  match x.wait with
  | some w =>
    match w.why with
    | .probe _ => true
    | _ => false
  | none => false

/-- The words of a later element of a first-fault load do not come: the load is executed again, and stops before that element. No trap is
raised, nothing is logged and nothing is parked (R131). -/
def State.loseProbe (s : State) (n i va : Nat) : State :=
  s.onCtx n i (fun x => { x with wait := none, lost := insertNat (va / 64) x.lost })

/-- A context's request that its home does not serve: parked, sent on to host memory, refused, or ended by an error. -/
def State.unserved (s : State) (e : Ev) (kind : Nat) (r : HomeRes) : State :=
  if (s.ctxAt e.core e.ctx).probes && (match r with | .remote _ _ => false | _ => true) then s.loseProbe e.core e.ctx e.addr else
  match r with
  | .line _ _ _ => s
  | .fault slice leaf => s.park slice e.addr leaf (e.req kind)
  | .remote slice pa =>
    (s.sendRma (dieOfCore slice) pa false []).onCore e.core (fun c =>
      { c with remoteWaits := c.remoteWaits ++ [((s.remoteOf (dieOfCore slice) pa).1, e.req kind)] })
  | .refused => s.trapWaiting e.core e.ctx (Trap.protection e.aux)
  | .poison => s.endWaiting e.core e.ctx (Trap.poison e.aux)
  | .reply c => s.replyWaiting e.core e.ctx e.aux c

/-- HOME_MISS (R308): the home of a context's access serves its line, or the request parks, fails, or goes to host memory.
Data travels back as a memory response (R307). -/
def execHomeMiss (s : State) : Out :=
  let e := s.ev
  if !(s.ctxAt e.core e.ctx).waitsMem e.addr then .next s else
  match s.askHome (dieOfCore e.core) e.addr (s.hint e.core e.addr) with
  | (.line slice _ leaf, s1) => .next ((s1.countAccess slice e.addr (dieOfCore e.core) leaf).post .memoryResponse e)
  | (r, s1) => .next (s1.unserved e e.unit r)

/-- The home cache of a core takes the homing fields of a page; it holds 256 entries (R306). -/
def State.putHint (s : State) (n va : Nat) (l : Leaf) : State :=
  s.onCore n (fun c => { c with homeCache := cachePut 256 c.homeCache (pageOf va) l })

/-- MEMORY_RESPONSE (R306, R307): the words reach the core's L1, or for a fetch its instruction cache, with the leaf as found; the
access is retired. -/
def execMemoryResponse (s : State) : Out :=
  let e := s.ev
  if !(s.ctxAt e.core e.ctx).waitsMem e.addr then .next s else
  match s.askHome (dieOfCore e.core) e.addr (s.hint e.core e.addr) with
  | (.line _ l leaf, s1) =>
    let s2 := if e.unit = 2 then
        s1.onCore e.core (fun c => { c with icache := tabPut c.icache (e.addr / 64) l.icLine })
      else s1.deliver e.core e.ctx (e.addr / 64) (e.data.map BitVec.toNat) l true
    let s3 := match leaf with
      | some lf => if isTranslated e.addr then s2.putHint e.core e.addr lf else s2
      | none => s2
    .next (s3.ready e.core e.ctx)
  | (r, s1) => .next (s1.unserved e e.unit r)

/-- HOME_QUERY (R306): the walk slice answers with the leaf's fields whether or not it is valid; a missing table or an unknown
homing raises a fault from the walk slice. -/
def execHomeQuery (s : State) : Out :=
  let e := s.ev
  let d := dieOfCore e.core
  if !(s.ctxAt e.core e.ctx).waitsQuery (pageOf e.addr) then .next s else
  match s.queryLeaf d e.addr with
  | (.leaf l, s1) =>
    if l.hmode ≤ 1 then .next ((s1.putHint e.core e.addr l).ready e.core e.ctx)
    else .next (s1.unserved e 6 (.fault (s1.walkSlice d e.addr) l))
  | (.noTable l, s1) => .next (s1.unserved e 6 (.fault (s1.walkSlice d e.addr) l))
  | (.malformed _, s1) => .next (s1.unserved e 6 .refused)
  | (.poison pa, s1) => .next ((s1.logSlice (s1.walkSlice d e.addr) 0x02 pa 0).unserved e 6 .poison)
  | (.reply c, s1) => .next (s1.unserved e 6 (.reply c))

/-- PLB_REFILL (R236): the PLB takes the rights of the domain around the address and the waiting access goes on; what is wrong
with the segments read is logged (R6, R302). (DESIGN CHOICE, log 9; DEDUCED, log 14) -/
def execPlbRefill (s : State) : Out :=
  let e := s.ev
  let d := dieOfCore e.core
  let u := e.addr / 65536
  let c := s.coreAt e.core
  let s1 := s.logSegments e.core c.domain (s.segmentsRead d c.domain u)
  let g := s.domainStretch d c.domain u
  let s2 := s1.onCore e.core (fun c =>
    let t := c.plb ++ [{ first := g.first, last := g.last, rights := g.rights }]
    { c with plb := if 64 < t.length then t.drop 1 else t })
  .next (if (s.ctxAt e.core e.ctx).waitsPlb e.addr then s2.ready e.core e.ctx else s2)

/-- WRITE_BACK_ARRIVAL (R309): the dirty words and the partials of a line of a core's L1 reach the line's home and are merged. -/
def execWriteBackArrival (s : State) : Out :=
  .next ((s.writeBackLine s.ev.core s.ev.addr).sendPartials s.ev.core s.ev.addr)

/-- A swapped task of a core that waited on a page is ready: the wake or reply that would retire its context has come (R354).
The end of a task of its cluster, or R407, decides where it resumes. -/
def State.readySwapped (s : State) (n page : Nat) : State :=
  let mine (v : Saved) : Bool := v.reason == 0 && !v.ready && 16 * v.cluster + v.pos == n && pageOf v.addr == page
  s.parts.foldl (fun a p =>
    if p.2.saved.any mine then
      (a.onPart p.1 (fun q => { q with saved := q.saved.map (fun v => if mine v then { v with ready := true } else v) })).post .taskEnd
        { Ev.empty with core := n, unit := p.1, flag := true }
    else a) s

/-- A parked request taken up again: the context's request goes to its home once more, an agent's event is due again. -/
def State.resumeReq (s0 : State) (r : Req) : State :=
  let s := if r.again.isSome then s0 else s0.readySwapped r.core (pageOf r.va)
  match r.again with
  | some p => s.post p.1 p.2
  | none =>
    let e := { Ev.ofCtx r.core r.ctx with unit := r.kind, addr := r.va, aux := r.ea, data := r.words.map (fun w => BitVec.ofNat 64 w) }
    s.post (if r.kind = 6 then .homeQuery else .homeMiss) e

/-- A parked request that ends without data: `res` is refused, poison or a reply (R308, R313). -/
def State.failReq (s0 : State) (r : Req) (res : HomeRes) : State :=
  let s := if r.again.isSome then s0 else s0.readySwapped r.core (pageOf r.va)
  match r.again with
  | some p =>
    let code := match res with
      | .poison => 2
      | .reply c => 16 + c
      | _ => 1
    s.post p.1 { p.2 with aux := code, addr := r.va }
  | none =>
    let e := { Ev.ofCtx r.core r.ctx with unit := r.kind, addr := r.va, aux := r.ea }
    let x := s.ctxAt r.core r.ctx
    if (if r.kind = 6 then x.waitsQuery (pageOf r.va) else x.waitsMem r.va) then s.unserved e r.kind res else s

/-- Requests leave the miss table of a slice; requests that waited in the router for an entry come again (R309). (DESIGN CHOICE, log 92) -/
def State.unpark (s : State) (slice : Nat) (p : Req → Bool) : State :=
  let c := s.coreAt slice
  let rest := c.parked.filter (fun r => !p r)
  if rest.length = c.parked.length then s else
  c.router.foldl (fun a r => a.resumeReq r) (s.setCore slice { c with parked := rest, router := [] })

/-- Is a parked request answered by a leaf as found: its page is resident, or it asked for homing fields, which are known (R306, R312)? -/
def State.reqServed (s : State) (slice : Nat) (l : Leaf) (r : Req) : Bool :=
  (l.v && !l.migratable) ||
    (decide (l.hmode ≤ 1) && (r.kind == 6 || (r.again.isSome && (s.homeOf (dieOfCore slice) l r.va).1 != .slice slice)))

/-- Every parked request of a page ends without data. -/
def State.failPage (s : State) (slice page : Nat) (res : HomeRes) : State :=
  let rs := (s.coreAt slice).parked.filter (fun r => pageOf r.va == page)
  rs.foldl (fun a r => a.failReq r res) (s.unpark slice (fun r => pageOf r.va == page))

/-- A walker walks a page again (R312): it answers the parked requests that the entry now serves. The entry where the walk stopped
is given while requests remain. -/
def State.rewalk (s : State) (slice page : Nat) : Option Leaf × State :=
  let mine (r : Req) : Bool := pageOf r.va == page
  let rs := (s.coreAt slice).parked.filter mine
  if rs.isEmpty then (none, s) else
  match s.walk slice (page * 65536) with
  | (.leaf l, s1) =>
    let ok (r : Req) : Bool := mine r && s1.reqServed slice l r
    let s2 := (rs.filter ok).foldl (fun a r => a.resumeReq r) (s1.unpark slice ok)
    (if rs.all ok then none else some l, s2)
  | (.noTable l, s1) => (some l, s1)
  | (.malformed _, s1) => (none, s1.failPage slice page .refused)
  | (.poison pa, s1) => (none, (s1.logSlice slice 0x02 pa 0).failPage slice page .poison)
  | (.reply c, s1) => (none, s1.failPage slice page (.reply c))

/-- A re-walk that arms its watch again while requests remain (R312). -/
def State.wakeWalker (s : State) (slice page : Nat) : State :=
  match s.rewalk slice page with
  | (some l, s1) => s1.armWatch slice (page * 65536) l
  | (none, s1) => s1

/-- WAKE (R312). -/
def execWake (s : State) : Out := .next (s.wakeWalker s.ev.core s.ev.addr)

/-- WATCH_REWALK (R312): a walker without a watch slot walks again, and again later while requests remain. -/
def execWatchRewalk (s : State) : Out :=
  match s.rewalk s.ev.core s.ev.addr with
  | (some _, s1) => .next (s1.retryLater .watchRewalk s.ev)
  | (none, s1) => .next s1

/-- A reply reaches the walker of a slice (R313): without a pending record it is ignored. RETRY walks again as a wake does and
clears the record; ERROR clears the record and refuses every parked request of the page. -/
def State.answerWalker (s : State) (slice page : Nat) (error : Bool) : State :=
  if (tabFind (s.coreAt slice).pending page).isNone then s else
  let clear (a : State) : State := a.onCore slice (fun c => { c with pending := tabDel c.pending page })
  if error then (clear s).failPage slice page .refused else clear (s.wakeWalker slice page)

/-- The walkers of a die that have a fault pending for a page. -/
def State.pendingSlices (s : State) (d page : Nat) : List Nat :=
  (s.cores.filter (fun nc => dieOfCore nc.1 == d && (tabFind nc.2.pending page).isSome)).map (fun nc => nc.1)

/-- The walker that answers for a slice: one that has been retired handed its faults to its replacement (R315). -/
def State.walkerOf (s : State) (n : Nat) : Nat := if (s.coreAt n).retired then s.remap n else n

/-- The reply for a page whose root lies on die `root` (R313): down the combining entries from the router of the root, which are released.
(DESIGN CHOICE, log 11) -/
def State.replyTree (s : State) (root page : Nat) (error : Bool) : State :=
  let from' := (s.dieAt root).combine.filter (fun c => c.page == page && c.last)
  let r := from'.foldl (fun acc c =>
    let a := acc.2.replyDown page 64 (routerOn root c.router)
    (acc.1 ++ a.1, a.2)) ([], s)
  r.1.foldl (fun a n => a.answerWalker (a.walkerOf n) page error) r.2

/-- The reply for a page flooded over a die (R313): every combining entry of the page is released, and every walker with a pending record is
answered. -/
def State.replyFlood (s : State) (d page : Nat) (error : Bool) : State :=
  (s.pendingSlices d page).foldl (fun a n => a.answerWalker n page error)
    (s.onDie d (fun x => { x with combine := x.combine.filter (fun e => e.page != page) }))

/-- The reply of a root on die `root` to the faults of die `d` on a page: flooded where a message carried OVF (R313). -/
def State.replyPage (s : State) (root d page : Nat) (flood error : Bool) : State :=
  if flood then s.replyFlood d page error else s.replyTree root page error

/-- FREPLY with code RETRY (R313). -/
def execFreplyRetry (s : State) : Out :=
  let v := s.ev.val
  .next ((s.replyPage s.ev.die s.ev.die (fieldOf v 16 40) (v.getLsbD 59) false).answerReg none)

/-- FREPLY with code ERROR (R313). -/
def execFreplyError (s : State) : Out :=
  let v := s.ev.val
  .next ((s.replyPage s.ev.die s.ev.die (fieldOf v 16 40) (v.getLsbD 59) true).answerReg none)

/-- The leaf a fault message names. -/
def Ev.faultLeaf (e : Ev) : Leaf :=
  { w0 := e.val, w1 := e.data.getD 0 0, pa := ((e.data.getD 1 0)).toNat, level := e.aux }

/-- A fault message reaches the root of its page (R310, R311): a storage queue engine, die 0's migration engine, or a service core. -/
def State.toRoot (s : State) (e : Ev) (ovf : Bool) : State :=
  let d := dieOfCore e.core
  match faultEngine e.faultLeaf with
  | some (true, r) => s.post .migrationFault { e with die := r, flag := ovf }
  | some (false, r) => s.post .sqeFaultMessage { e with die := r, flag := ovf }
  | none =>
    let low := e.unit % 16 * 2 ^ 48 + d * 2 ^ 46 + e.aux % 4 * 2 ^ 44 + (if ovf then 2 ^ 43 else 0)
    s.postService d (s.svcCore d (e.addr % s.nsvc d)) 0 low (BitVec.ofNat 64 (e.addr * 65536))

/-- The router of the root of a fault (R311, R363). (DESIGN CHOICE, log 11) -/
def State.rootRouter (s : State) (e : Ev) : Router :=
  match faultEngine e.faultLeaf with
  | some (true, r) => routerOn r (Config.hearthRouter 0)
  | some (false, r) => routerOn r (Config.hearthRouter (1 + r))
  | none => (routerOfCore (s.svcCore (dieOfCore e.core) (e.addr % s.nsvc (dieOfCore e.core)))).1

/-- A fault message that goes along a route (R310): it joins an entry on the way, or reaches its root. -/
def State.sendFault (s : State) (e : Ev) (route : List (Router × Nat)) : State :=
  match s.combineOn e.addr route false with
  | (none, s1) => s1
  | (some ovf, s1) => s1.toRoot e ovf

/-- FAULT_MESSAGE (R310): the message goes from its walker toward the root of its page, router by router. A die without service cores logs
the fault and answers ERROR (R301). (DESIGN CHOICE, log 11) -/
def execFaultMessage (s : State) : Out :=
  let e := s.ev
  if (faultEngine e.faultLeaf).isNone && s.nsvc (dieOfCore e.core) == 0 then
    .next ((s.logSlice e.core 0x07 (e.addr * 65536) 0).answerWalker e.core e.addr true)
  else .next (s.sendFault e (routeOf (routerOfCore e.core) (s.rootRouter e)))

end Sys2Proof.Machine
end

