-- ==== Sys2Proof/Machine/LoadStore.lean ====
section
/-!
DEFINITION. Scalar loads and stores over fat pointers (R75 to R78), `oxld` (R83).
-/

namespace Sys2Proof.Machine

open Sys2Proof

/-- A scalar load whose value is sign-extended (R75). -/
def State.loadSigned (s : State) (d a : Reg) (i : BitVec 12) (n : Nat) : Out :=
  s.load (s.g a) i.toInt n (fun s v => .next ((s.setG d (BitVec.ofInt 64 (signExt v (8 * n)))).finish 4))

/-- A natural scalar load: the value zero-extended (R75). -/
def State.loadNatural (s : State) (d a : Reg) (i : BitVec 12) (n : Nat) : Out :=
  s.load (s.g a) i.toInt n (fun s v => .next ((s.setG d (BitVec.ofNat 64 v)).finish 4))

/-- A scalar store of the low `n` bytes of a register (R75). (DEDUCED, log 18) -/
def State.storeReg' (s : State) (b a : Reg) (i : BitVec 12) (n : Nat) : Out :=
  s.store (s.g a) i.toInt n (s.g b).toNat (fun s => .next (s.finish 4))

/-- `ldb` (R75). -/
def execLdb (d a : Reg) (i : BitVec 12) (s : State) : Out := s.loadSigned d a i 1
/-- `ldh` (R75). -/
def execLdh (d a : Reg) (i : BitVec 12) (s : State) : Out := s.loadSigned d a i 2
/-- `ldw` (R75). -/
def execLdw (d a : Reg) (i : BitVec 12) (s : State) : Out := s.loadSigned d a i 4
/-- `ldbn` (R75). -/
def execLdbn (d a : Reg) (i : BitVec 12) (s : State) : Out := s.loadNatural d a i 1
/-- `ldhn` (R75). -/
def execLdhn (d a : Reg) (i : BitVec 12) (s : State) : Out := s.loadNatural d a i 2
/-- `ldwn` (R75). -/
def execLdwn (d a : Reg) (i : BitVec 12) (s : State) : Out := s.loadNatural d a i 4
/-- `stb` (R75). -/
def execStb (b a : Reg) (i : BitVec 12) (s : State) : Out := s.storeReg' b a i 1
/-- `sth` (R75). -/
def execSth (b a : Reg) (i : BitVec 12) (s : State) : Out := s.storeReg' b a i 2
/-- `stw` (R75). -/
def execStw (b a : Reg) (i : BitVec 12) (s : State) : Out := s.storeReg' b a i 4

/-- `ldd` (R75): the only load that reaches the windows of R202 and R252 and the die registers (R301). -/
def execLdd (d a : Reg) (i : BitVec 12) (s : State) : Out :=
  s.densePtr (s.g a) i.toInt 8 (fun s ea =>
    match windowOf s.ctx.priv ea with
    | .ring off => .next ((s.setG d (s.core.ringWord off)).finish 4)
    | .unit off => s.euLoad d ea off
    | .register die off => s.loadReg d die off
    | .none =>
      s.loadRuns (Need.load (ptrCode (s.g a) ≠ 0)) [(ea, 8)] none
        (fun s bss => .next ((s.setG d (BitVec.ofNat 64 (fromBytesLE (bss.headD [])))).finish 4)))

/-- `std` (R75): the only store that reaches the windows of R202 and R252 and the die registers (R301). -/
def execStd (b a : Reg) (i : BitVec 12) (s : State) : Out :=
  s.densePtr (s.g a) i.toInt 8 (fun s ea =>
    match windowOf s.ctx.priv ea with
    | .ring off => s.ringStore off (s.g b)
    | .unit off => s.euStore ea off (s.g b)
    | .register die off => s.storeReg die off (s.g b)
    | .none =>
      s.storeOne (Need.store (ptrCode (s.g a) ≠ 0)) ea (bytesLE 8 (s.g b).toNat) (fun s => .next (s.finish 4)))

/-- `oxld` (R83): loads an operand-extension register as `ldd` loads a general one; it reaches the ring descriptors (R202),
and neither the event unit (R252) nor the die registers (R301). -/
def execOxld (d : OxReg) (a : Reg) (i : BitVec 12) (s : State) : Out :=
  let put (s : State) (v : Word) : Out := .next ((s.mapCtx (fun x => x.setOx d v)).finish 4)
  s.densePtr (s.g a) i.toInt 8 (fun s ea =>
    match windowOf s.ctx.priv ea with
    | .ring off => put s (s.core.ringWord off)
    | _ =>
      s.loadRuns (Need.load (ptrCode (s.g a) ≠ 0)) [(ea, 8)] none
        (fun s bss => put s (BitVec.ofNat 64 (fromBytesLE (bss.headD [])))))

end Sys2Proof.Machine
end

