-- ==== Sys2Proof/Machine/Atomics.lean ====
section
/-!
DEFINITION. Atomics (R237), update-only atomics (R238), versioned operations (R239, R240), signal objects (R266, R267),
and what these do on host-owned pages (R421).
-/

namespace Sys2Proof.Machine

open Sys2Proof

/-- An atomic or a home-monitored wait on a pinned page is never performed: the protection trap, and an entry to the page's service
core (R421). -/
def State.pinned (s : State) (ea : Nat) : Out :=
  let d := dieOfCore s.focus
  let n := s.nsvc d
  let s1 := if n = 0 then s else s.postService d (s.svcCore d (pageOf ea % n)) 2 0 (BitVec.ofNat 64 (pageOf ea * 65536))
  s1.trapped (Trap.protection ea)

/-- The address of an operation performed at a home: alignment (detail 2), the checks of R75 on the pointer, the rights (R76).
Where `spad` is clear, core-local space raises the protection trap. -/
def State.homeAddr (s : State) (p : Word) (n : Nat) (need : Need) (spad : Bool) (k : State → Nat → Out) : Out :=
  let ea := ptrAddr p
  if ea % n ≠ 0 then s.trapped (Trap.illegal 2)
  else s.densePtr p 0 n (fun s ea =>
    if topByte ea = 0xFF && !spad then s.trapped (Trap.protection ea)
    else s.checked need [(ea, n)] none (fun s => k s ea))

/-- The bytes of an operation that the alias rule holds back: its context is not ready until no stream and no held entry covers
them (R240). -/
def State.unaliased (s : State) (ea n : Nat) (k : State → Out) : Out :=
  if s.core.aliased (bytesAt ea n) then .next (s.wait .busy) else k s

/-- The homing fields of a translated address known and its page resident, or a wait for them (R306); a pinned page is refused (R421).
(DEDUCED, log 17) -/
def State.homed (s : State) (kind ea : Nat) (k : State → Option Leaf → Out) : Out :=
  if !isTranslated ea then (if topByte ea = 0xFE && paHost (ea % 2 ^ 48) then s.pinned ea else k s none)
  else
    match s.hint s.focus ea with
    | none => s.pend kind (.query ea ea)
    | some l =>
      if l.ho && l.pin then s.pinned ea
      else if !l.v || l.migratable then s.pend kind (.home ea [] ea)
      else k s (some l)

/-- An operation performed at the home of an address as one step: `k` gets the home slice and the line. A home that cannot serve it
makes the context wait as a miss does (R308). -/
def State.atHome (s : State) (kind ea : Nat) (k : State → Nat → L2Line → Out) : Out :=
  match s.homeLine (dieOfCore s.focus) ea (s.hint s.focus ea) with
  | (.line slice l leaf, s1) => k (s1.countAccess slice ea (dieOfCore s.focus) leaf) slice l
  | (.remote _ _, _) => s.pinned ea
  | _ => s.pend kind (.home ea [] ea)

/-- The result of an atomic: `d` gets the old value, sign-extended, and the instruction is complete (R237). -/
def State.amoResult (s : State) (d : Reg) (n v : Nat) : State := (s.setG d (BitVec.ofInt 64 (signExt v (8 * n)))).finish 4

/-- What an atomic writes for the old value `v`, if it writes (R237). -/
def amoWrite (op n v y c : Nat) : Option Nat :=
  if op = 9 && v != c then none else some (amoNew op (8 * n) v y)

/-- An atomic on the scratchpad (R237). -/
def State.amoSpad (s : State) (op n ea y c : Nat) (k : State → Nat → Out) : Out :=
  let off := ea % 2 ^ 48
  if s.core.spadBad off n then s.trapped (Trap.poison ea)
  else
    let v := fromBytesLE (s.core.getSpad off n)
    match amoWrite op n v y c with
    | some w => k (s.storeSpad s.focus off (bytesLE n w)) v
    | none => k s v

/-- An atomic at the home of its line, as one indivisible step (R237). -/
def State.amoHome (s : State) (op n ea y c : Nat) (k : State → Nat → Out) : Out :=
  (s.yieldWords s.focus ea n).atHome 1 ea (fun s slice l =>
    let off := ea % 64
    if l.poisoned off n then s.trapped (Trap.poison ea)
    else
      let v := fromBytesLE (l.bytes off n)
      match amoWrite op n v y c with
      | some w => k (s.homeStore slice (ea / 64) l off (bytesLE n w)) v
      | none => k s v)

/-- Does an ordering release, or acquire (R237)? -/
def orderReleases (o : Order) : Bool := o == .rel || o == .ar
/-- Does an ordering acquire (R237)? -/
def orderAcquires (o : Order) : Bool := o == .acq || o == .ar

/-- `amo.op` (R237). -/
def State.amo (s : State) (op : Nat) (w : Bool) (o : Order) (sc : Scope) (d a b : Reg) : Out :=
  let n := if w then 4 else 8
  let p := s.g a
  let y := (s.g b).toNat % 2 ^ (8 * n)
  let c := (s.ctx.getOx 0).toNat % 2 ^ (8 * n)
  s.homeAddr p n (Need.both (ptrCode p ≠ 0)) true (fun s ea =>
    let done (s : State) (v : Nat) : Out :=
      .next ((if orderAcquires o then s.acquire s.focus sc else s).amoResult d n v)
    let go (s : State) : Out := if isSpad ea then s.amoSpad op n ea y c done else s.amoHome op n ea y c done
    let ordered (s : State) : Out := if orderReleases o then s.releaseThen sc go else go s
    s.unaliased ea n (fun s => if isSpad ea then ordered s else s.homed 1 ea (fun s _ => ordered s)))

/-- The partials that an update-only atomic meets on its words: one of its own op and width to fold into, or others (R238). -/
def Core.partialAt (c : Core) (w n op : Nat) : Option Partial :=
  match tabFind c.partials w with
  | some p => if p.op = op ∧ p.width = n then some p else none
  | none => none

/-- Does a core hold another partial on the words of an update? -/
def Core.partialClash (c : Core) (w n op : Nat) : Bool :=
  (c.partialAt w n op).isNone && c.partials.any (fun p => decide (p.1 < w + n / 4) && decide (w < p.1 + p.2.width / 4))

/-- A partial taken into an L1 that holds the line update-only, folded where one of its op and width is there (R238). -/
def State.takePartial (s : State) (o w n op y : Nat) : State :=
  let s1 := (if (s.coreAt o).partialClash w n op then s.sendPartials o (w / 16) else s).makeRoom o (w / 16)
  s1.onCore o (fun c =>
    let v := match c.partialAt w n op with
      | some p => amoNew op (8 * n) (p.val.toNat % 2 ^ (8 * n)) y
      | none => y
    { c with partials := tabPut c.partials w { op := op, width := n, val := BitVec.ofNat 64 v } })

/-- `amoupd.op` (R238): on the scratchpad at once, elsewhere held as a partial after the home's grant. (DESIGN CHOICE, log 28) -/
def State.amoupd (s : State) (op : Nat) (w : Bool) (a b : Reg) : Out :=
  let n := if w then 4 else 8
  let p := s.g a
  let y := (s.g b).toNat % 2 ^ (8 * n)
  s.homeAddr p n (Need.both (ptrCode p ≠ 0)) true (fun s ea =>
    s.unaliased ea n (fun s => if isSpad ea then s.amoSpad op n ea y 0 (fun s _ => .next (s.finish 4)) else s.homed 1 ea (fun s _ =>
      let o := s.l1Owner s.focus (ea / 64)
      let take (s : State) : Out := .next ((s.takePartial o (ea / 4) n op y).finish 4)
      if !((s.coreAt o).partialsOn (ea / 64)).isEmpty then take s
      else s.atHome 1 ea (fun s _ _ => take (s.grantUpdateOnly (ea / 64))))))

/-- The attribute that a versioned operation needs: the page's VER, or HBM4E behind the physical window (R239). -/
def State.versioned (s : State) (p : Word) (write : Bool) (k : State → Nat → Out) : Out :=
  let need := if write then Need.store (ptrCode p ≠ 0) else Need.load (ptrCode p ≠ 0)
  s.homeAddr p 8 need false (fun s ea =>
    if topByte ea = 0xFE && !paHbm (ea % 2 ^ 48) && !paHost (ea % 2 ^ 48) then s.trapped (Trap.protection ea)
    else s.homed (if write then 1 else 0) ea (fun s leaf =>
      match leaf with
      | some l => if l.ver then k s ea else s.trapped (Trap.protection ea)
      | none => k s ea))

/-- A version waiter whose number is reached is answered with the doubleword and acquires at its scope (R239). -/
def State.answerVersion (s : State) (key : Nat) (l : L2Line) : State :=
  s.monitors.foldl (fun (a : State) m =>
    if !m.isVersion || m.va / 64 != key || l.ver.toNat < m.n then a else
    let b := { a with monitors := a.monitors.filter (fun x => x != m) }
    let waits := match (b.ctxAt m.core m.ctx).wait with
      | some w => w.why == .version m.va m.n
      | none => false
    if !waits then b
    else if l.poisoned (m.va % 64) 8 then b.trapWaiting m.core m.ctx (Trap.poison m.va)
    else (b.acquire m.core m.sc).answer m.core m.ctx (some (BitVec.ofNat 64 (fromBytesLE (l.bytes (m.va % 64) 8))))) s

/-- `stv` (R239). -/
def execStv (z : Scope) (a b : Reg) (s : State) : Out :=
  let p := s.g a
  let v := s.g b
  s.versioned p true (fun s ea => s.unaliased ea 8 (fun s => s.releaseThen z (fun s =>
    (s.yieldWords s.focus ea 8).atHome 1 ea (fun s slice l =>
      let full := l.ver == BitVec.allOnes 32
      let s1 := if full then s.logCore s.focus 0x0A ea 0 else s
      let s2 := if l.poisoned (ea % 64) 8 then s1.logCore s1.focus 0x02 ea 0 else s1
      let l1 := { l with ver := if full then l.ver else l.ver + 1, verDirty := true }
      let s3 := s2.homeStore slice (ea / 64) l1 (ea % 64) (bytesLE 8 v.toNat)
      .next ((s3.answerVersion (ea / 64) (l1.put (ea % 64) (bytesLE 8 v.toNat))).finish 4)))))

/-- A monitor for the executing context; it keeps one at most. -/
def State.addMonitor (s : State) (m : Monitor) : State :=
  { s with monitors := s.monitors.filter (fun x => !(x.core == m.core && x.ctx == m.ctx)) ++ [m] }

/-- `ldv` (R239): bits [63:32] of the number must be zero. -/
def execLdv (z : Scope) (d a b : Reg) (s : State) : Out :=
  let n := (s.g b).toNat
  if 2 ^ 32 ≤ n then s.trapped (Trap.illegal 1)
  else s.versioned (s.g a) false (fun s ea => s.unaliased ea 8 (fun s =>
    (s.yieldWords s.focus ea 8).atHome 0 ea (fun s _ l =>
      if n ≤ l.ver.toNat then
        if l.poisoned (ea % 64) 8 then s.trapped (Trap.poison ea)
        else .next (((s.acquire s.focus z).setG d (BitVec.ofNat 64 (fromBytesLE (l.bytes (ea % 64) 8)))).finish 4)
      else .next ((s.addMonitor { isVersion := true, va := ea, n := n, thr := 0, core := s.focus, ctx := s.curCtx, sc := z }).wait
        (.version ea n)))))

/-- `vers` (R239). -/
def execVers (d a : Reg) (s : State) : Out :=
  s.versioned (s.g a) false (fun s ea => s.atHome 0 ea (fun s _ l => .next ((s.setG d (l.ver.setWidth 64)).finish 4)))

/-- `reclaim` (R239): the version becomes 0 and no waiter wakes. -/
def execReclaim (a : Reg) (s : State) : Out :=
  s.versioned (s.g a) true (fun s ea => s.atHome 1 ea (fun s slice l =>
    .next ((s.setSliceLine slice (ea / 64) { l with ver := 0, verDirty := true }).finish 4)))

/-- `sigwait` (R266). (DEDUCED, log 31) -/
def execSigwait (d a b : Reg) (s : State) : Out :=
  let thr := s.g b
  let p := s.g a
  s.homeAddr p 8 (Need.load (ptrCode p ≠ 0)) false (fun s ea => s.homed 0 ea (fun s _ =>
    (s.yieldWords s.focus ea 8).atHome 0 ea (fun s _ l =>
      let v : Word := BitVec.ofNat 64 (fromBytesLE (l.bytes (ea % 64) 8))
      if l.poisoned (ea % 64) 8 then s.trapped (Trap.poison ea)
      else if v.toInt ≤ thr.toInt then .next (((s.acquire s.focus .system).setG d v).finish 4)
      else .next ((s.addMonitor { isVersion := false, va := ea, n := 0, thr := thr, core := s.focus, ctx := s.curCtx, sc := .system }).wait
        (.signal ea thr)))))

/-- A signal object decremented in its line at its home; its monitors answer (R267). -/
def State.decrementLine (s : State) (slice ea : Nat) (l : L2Line) (amount : Word) : State :=
  let v : Word := BitVec.ofNat 64 (fromBytesLE (l.bytes (ea % 64) 8))
  s.homeStore slice (ea / 64) l (ea % 64) (bytesLE 8 (v - amount).toNat)

/-- `sigdec` (R267). -/
def execSigdec (a b : Reg) (s : State) : Out :=
  let amount := s.g b
  let p := s.g a
  s.homeAddr p 8 (Need.both (ptrCode p ≠ 0)) false (fun s ea => s.unaliased ea 8 (fun s => s.homed 1 ea (fun s _ =>
    s.releaseThen .system (fun s => (s.yieldWords s.focus ea 8).atHome 1 ea (fun s slice l =>
      if l.poisoned (ea % 64) 8 then s.trapped (Trap.poison ea)
      else .next ((s.decrementLine slice ea l amount).finish 4))))))

/-- `amo.add` (R237). -/
def execAmoAdd (w : Bool) (o : Order) (z : Scope) (d a b : Reg) (s : State) : Out := s.amo 0 w o z d a b
/-- `amo.min` (R237). -/
def execAmoMin (w : Bool) (o : Order) (z : Scope) (d a b : Reg) (s : State) : Out := s.amo 1 w o z d a b
/-- `amo.max` (R237). -/
def execAmoMax (w : Bool) (o : Order) (z : Scope) (d a b : Reg) (s : State) : Out := s.amo 2 w o z d a b
/-- `amo.minn` (R237). -/
def execAmoMinn (w : Bool) (o : Order) (z : Scope) (d a b : Reg) (s : State) : Out := s.amo 3 w o z d a b
/-- `amo.maxn` (R237). -/
def execAmoMaxn (w : Bool) (o : Order) (z : Scope) (d a b : Reg) (s : State) : Out := s.amo 4 w o z d a b
/-- `amo.and` (R237). -/
def execAmoAnd (w : Bool) (o : Order) (z : Scope) (d a b : Reg) (s : State) : Out := s.amo 5 w o z d a b
/-- `amo.or` (R237). -/
def execAmoOr (w : Bool) (o : Order) (z : Scope) (d a b : Reg) (s : State) : Out := s.amo 6 w o z d a b
/-- `amo.xor` (R237). -/
def execAmoXor (w : Bool) (o : Order) (z : Scope) (d a b : Reg) (s : State) : Out := s.amo 7 w o z d a b
/-- `amo.swap` (R237). -/
def execAmoSwap (w : Bool) (o : Order) (z : Scope) (d a b : Reg) (s : State) : Out := s.amo 8 w o z d a b
/-- `amo.cas` (R237). -/
def execAmoCas (w : Bool) (o : Order) (z : Scope) (d a b : Reg) (s : State) : Out := s.amo 9 w o z d a b
/-- `amoupd.add` (R238). -/
def execAmoupdAdd (w : Bool) (a b : Reg) (s : State) : Out := s.amoupd 0 w a b
/-- `amoupd.min` (R238). -/
def execAmoupdMin (w : Bool) (a b : Reg) (s : State) : Out := s.amoupd 1 w a b
/-- `amoupd.max` (R238). -/
def execAmoupdMax (w : Bool) (a b : Reg) (s : State) : Out := s.amoupd 2 w a b
/-- `amoupd.and` (R238). -/
def execAmoupdAnd (w : Bool) (a b : Reg) (s : State) : Out := s.amoupd 5 w a b
/-- `amoupd.or` (R238). -/
def execAmoupdOr (w : Bool) (a b : Reg) (s : State) : Out := s.amoupd 6 w a b
/-- `amoupd.xor` (R238). -/
def execAmoupdXor (w : Bool) (a b : Reg) (s : State) : Out := s.amoupd 7 w a b

end Sys2Proof.Machine
end

