-- ==== Sys2Proof/Machine/EventUnit.lean ====
section
/-!
DEFINITION. The cluster's event unit: barriers (R255 to R260), mutexes (R261), events (R262), `waitt` and its timeout (R265),
the barrier messages of the tree (R257) and of the fabric (R424), and a waiting instruction abandoned (R244, R50).
-/

namespace Sys2Proof.Machine

open Sys2Proof

/-- The address of a word of the event-unit window. -/
def euAddr (off : Nat) : Nat := 0xFF * 2 ^ 48 + 0x200000 + off

/-- A barrier of a cluster replaced. -/
def Cluster.setBarrier (c : Cluster) (b : Nat) (x : Barrier) : Cluster :=
  if h : b < 16 then { c with barriers := c.barriers.set b x h } else c
/-- A mutex of a cluster replaced. -/
def Cluster.setMutex (c : Cluster) (m : Nat) (x : Mutex) : Cluster :=
  if h : m < 16 then { c with mutexes := c.mutexes.set m x h } else c
/-- An event of a cluster replaced. -/
def Cluster.setEvent (c : Cluster) (e : Nat) (x : EuEvent) : Cluster :=
  if h : e < 32 then { c with events := c.events.set e x h } else c

/-- A barrier of a cluster changed. -/
def State.onBarrier (s : State) (cl b : Nat) (f : Barrier → Barrier) : State :=
  s.onCluster cl (fun c => c.setBarrier b (f (c.barrier b)))
/-- A mutex of a cluster changed. -/
def State.onMutex (s : State) (cl m : Nat) (f : Mutex → Mutex) : State :=
  s.onCluster cl (fun c => c.setMutex m (f (c.mutex m)))
/-- An event of a cluster changed. -/
def State.onEvent (s : State) (cl e : Nat) (f : EuEvent → EuEvent) : State :=
  s.onCluster cl (fun c => c.setEvent e (f (c.event e)))

/-- What a context waits for at its event unit: the window offset, and the limit of a `waitt`. -/
def Ctx.euWait (x : Ctx) : Option (Nat × Option Word) :=
  match x.wait with
  | some w =>
    match w.why with
    | .window off lim => some (off, lim)
    | _ => none
  | none => none

/-- Has the limit of a `waitt` passed at a time (R265)? (DESIGN CHOICE, log 6) -/
def limitPassed (lim : Option Word) (t : Word) : Bool :=
  match lim with
  | some l => decide (l.toNat < t.toNat)
  | none => false

/-- A load of the event unit that completes immediately gives its status doubleword, whatever its limit, acquiring at `sc` when it is done
(R253, R258, R265). -/
def State.euNow (s : State) (n i : Nat) (v : Word) (sc : Option Scope) : State :=
  if (s.ctxAt n i).euWait.isNone then s
  else
    let s1 := match sc with
      | some z => s.acquire n z
      | none => s
    s1.answer n i (some v)

/-- A load that waits at the event unit completes with a status doubleword; a `waitt` whose limit has passed times out and acquires nothing
(R253, R258, R265). -/
def State.euAnswer (s : State) (n i : Nat) (v : Word) (sc : Option Scope) : State :=
  match (s.ctxAt n i).euWait with
  | none => s
  | some (_, lim) => if limitPassed lim s.time then s.answer n i (some (euStatus 2 0)) else s.euNow n i v sc

/-- A waiting load or store of the event unit is refused at its word (R252). -/
def State.euRefuse (s : State) (n i : Nat) : State :=
  match (s.ctxAt n i).euWait with
  | none => s
  | some (off, _) => s.trapWaiting n i (Trap.protection (euAddr off))

/-- The contexts of a core withdrawn from the queues and waiters of its event unit, and from the monitors and the rings: a waiting
instruction abandoned as not begun (R50, R244). -/
def State.abandon (s : State) (n i : Nat) : State :=
  let mine (w : EuWaiter) : Bool := w.pos == posOfCore n && w.ctx == i
  let s1 := s.onCluster (clusterOfCore n) (fun c =>
    { c with
      barriers := c.barriers.map (fun b => { b with waiters := b.waiters.filter (fun w => !mine w) })
      mutexes := c.mutexes.map (fun m => { m with queue := m.queue.filter (fun w => !mine w) })
      events := c.events.map (fun e => { e with waiters := e.waiters.filter (fun w => !mine w) }) })
  let s2 := { s1 with monitors := s1.monitors.filter (fun m => !(m.core == n && m.ctx == i)) }
  (s2.onCore n (fun c => { c with recvQueue := c.recvQueue.filter (fun q => q.2 != i) })).onCtx n i (fun x => { x with wait := none, got := [], lost := [] })

/-- A `waitt` of the event unit times out: its context leaves every queue and gets STATUS timed out (R265). -/
def State.timeOut (s : State) (n i : Nat) : State :=
  let w := (s.ctxAt n i).wait
  ((s.abandon n i).onCtx n i (fun x => { x with wait := w })).answer n i (some (euStatus 2 0))

/-- A waiting load that is not satisfied at once: it joins the waiters by `f`, or times out when its limit has passed (R265). -/
def State.euJoin (s : State) (n i : Nat) (f : EuWaiter → State → State) : State :=
  match (s.ctxAt n i).euWait with
  | none => s
  | some (off, lim) =>
    if limitPassed lim s.time then s.answer n i (some (euStatus 2 0))
    else f { pos := posOfCore n, ctx := i, off := off } s

/-- The domain masks of a core (R255). -/
def Core.masks (c : Core) : DomMasks := { cl := c.domCl, die := c.domDie, pkg := c.domPkg, fab := c.domFab }

/-- The scope of a barrier's level (R258). -/
def levelScope : Nat → Scope
  | 0 => .cluster
  | 1 => .die
  | 2 => .package
  | _ => .system

/-- Are two masks the same at the levels up to `l` (R255)? -/
def DomMasks.agree (a b : DomMasks) (l : Nat) : Bool :=
  a.cl == b.cl && (l < 1 || a.die == b.die) && (l < 2 || a.pkg == b.pkg) && (l < 3 || a.fab == b.fab)

/-- Does a core lie within its own masks at the levels up to `l` (R255)? -/
def DomMasks.holds (m : DomMasks) (n l : Nat) : Bool :=
  m.cl.getLsbD (posOfCore n) && (l < 1 || m.die.getLsbD (clusterOfCore n % 63)) && (l < 2 || m.pkg.getLsbD (dieOfCore n))
    && (l < 3 || decide (fieldOf m.fab 24 12 < fieldOf m.fab 36 12))

/-- The set bits of a mask below a bound, rising. -/
def maskList (m : Word) (n : Nat) : List Nat := (List.range n).filter (fun i => m.getLsbD i)

/-- The die root of a die: the event unit of the lowest cluster index (R255). -/
def DomMasks.dieRoot (m : DomMasks) (d : Nat) : Nat := 63 * d + (maskList m.die 63).headD 0

/-- The package root: the die root of the lowest die (R255). -/
def DomMasks.pkgRoot (m : DomMasks) : Nat := m.dieRoot ((maskList m.pkg 4).headD 0)

/-- The parent of a unit in the tree of a level, none at the package root and above (R255). -/
def DomMasks.parent (m : DomMasks) (l cl : Nat) : Option Nat :=
  let r := m.dieRoot (dieOfCluster cl)
  if 1 ≤ l ∧ cl ≠ r then some r
  else if 2 ≤ l ∧ cl ≠ m.pkgRoot then some m.pkgRoot
  else none

/-- The children of a unit in the tree of a level within the package. -/
def DomMasks.children (m : DomMasks) (l cl : Nat) : List Nat :=
  let d := dieOfCluster cl
  let own := if 1 ≤ l ∧ cl = m.dieRoot d then ((maskList m.die 63).map (fun i => 63 * d + i)).filter (fun c => c != cl) else []
  let dies := if 2 ≤ l ∧ cl = m.pkgRoot then ((maskList m.pkg 4).map (fun e => m.dieRoot e)).filter (fun c => c != cl) else []
  own ++ dies

/-- A message of a barrier's tree: the unit it goes to and comes from, the barrier, its generation, the sender's masks, and whether
it carries a break. -/
def barrierMsg (b src dst : Nat) (gen : BitVec 32) (m : DomMasks) (brk : Bool) : Ev :=
  { Ev.empty with unit := b, core := src, addr := dst, val := gen.setWidth 64, flag := brk, data := [m.cl, m.die, m.pkg, m.fab] }

/-- The masks a message carries. -/
def Ev.masks (e : Ev) : DomMasks :=
  { cl := e.data.getD 0 0, die := e.data.getD 1 0, pkg := e.data.getD 2 0, fab := e.data.getD 3 0 }

/-- The entry of rank `k` in a die's rank table (R412). (DESIGN CHOICE, log 27) -/
def State.rankEntry (s : State) (d k : Nat) : Option Word :=
  let w := s.peekWord d (fieldOf (s.dieReg d 0x328) 0 48 + 8 * k)
  if !w.2 && w.1.getLsbD 63 then some w.1 else none

/-- A barrier message to the module of a rank (R424); the sent list names that module as endpoint 256 + rank. Without a rank entry,
or with no port up, there is no message. (DESIGN CHOICE, log 27) -/
def State.sendRank (s : State) (d kind b k : Nat) (gen : BitVec 32) (m : DomMasks) : Option State :=
  match s.rankEntry d k with
  | none => none
  | some _ =>
    if !s.portUp then none else
    some (s.sendFabric { kind := kind, endpoint := 256 + k, target := b, reqid := 0,
                         arg := BitVec.ofNat 64 (fieldOf m.fab 48 16 * 2 ^ 32 + gen.toNat), payload := [] })

/-- A barrier breaks at a unit (R260): BRK is set, the cause logged, the waiters released broken, and the parent and the children
told. A unit that has no masks of its own yet takes `known`, those with which it learns of the break. (DEDUCED, log 26) -/
def State.breakBarrier (s : State) (cl b cls : Nat) (known : Option DomMasks) : State :=
  let x := (s.clusterAt cl).barrier b
  if x.brk then s else
  let s1 := (s.onBarrier cl b (fun y => { y with brk := true, waiters := [] })).logError
    { cls := cls, die := dieOfCluster cl, core := 16 * cl, unit := 0, addr := euAddr (32 * b), detail := 0 }
  let s2 := x.waiters.foldl (fun a w => a.euAnswer (16 * cl + w.pos) w.ctx (euStatus 1 x.gen.toNat) none) s1
  match x.own.or known with
  | none => s2
  | some m =>
    let up := match m.parent x.level cl with
      | some p => s2.post .barrierEventMessage (barrierMsg b cl p x.gen m true)
      | none => s2
    (m.children x.level cl).foldl (fun a c => a.post .barrierReleaseMessage (barrierMsg b cl c x.gen m true)) up

/-- A unit completes a barrier or receives its release (R257): GEN moves on, the waiters are released and acquire, and the
children are told. -/
def State.completeBarrier (s : State) (cl b : Nat) : State :=
  let x := (s.clusterAt cl).barrier b
  let g := x.gen + 1
  let s1 := s.onBarrier cl b (fun y =>
    { y with gen := g, arrived := [], own := none, clDone := false, heardDie := [], heardPkg := [], heardFab := [], waiters := [] })
  let s2 := x.waiters.foldl (fun a w =>
    a.euAnswer (16 * cl + w.pos) w.ctx (euStatus 0 g.toNat) (some (levelScope x.level))) s1
  match x.own with
  | none => s2
  | some m => (m.children x.level cl).foldl (fun a c => a.post .barrierReleaseMessage (barrierMsg b cl c x.gen m false)) s2

/-- Has every position of the unit's own mask arrived (R257)? -/
def Barrier.localDone (x : Barrier) (m : DomMasks) : Bool := (maskList m.cl 16).all (fun p => x.arrived.contains p)

/-- Has a unit's part of the tree below it arrived: its local part, and each of its children (R257)? -/
def Barrier.partDone (x : Barrier) (m : DomMasks) (cl : Nat) : Bool :=
  x.localDone m && (m.children x.level cl).all (fun c => x.heardDie.contains c || x.heardPkg.contains c)

/-- The package part of a fabric barrier is complete (R424): rank 0 completes with every rank's event, another rank tells rank 0.
A missing rank entry or a link that is down breaks the barrier. -/
def State.fabricPart (s : State) (cl b : Nat) (m : DomMasks) : State :=
  let x := (s.clusterAt cl).barrier b
  let d := dieOfCluster cl
  let ranks := (List.range (fieldOf m.fab 36 12)).drop 1
  if fieldOf m.fab 24 12 ≠ 0 then
    if x.clDone then s else
    match s.sendRank d 0x05 b 0 x.gen m with
    | some s1 => s1.onBarrier cl b (fun y => { y with clDone := true })
    | none => s.breakBarrier cl b 0x05 none
  else if ranks.all (fun k => x.heardFab.contains k) then
    match ranks.foldl (fun (a : Option State) k =>
      match a with
      | some t => t.sendRank d 0x06 b k x.gen m
      | none => none) (some s) with
    | some s1 => s1.completeBarrier cl b
    | none => s.breakBarrier cl b 0x05 none
  else s

/-- A unit looks whether its part is complete, and tells its parent or completes (R257). -/
def State.barrierProgress (s : State) (cl b : Nat) : State :=
  let x := (s.clusterAt cl).barrier b
  match x.own with
  | none => s
  | some m =>
    if x.brk || !x.partDone m cl then s
    else
      match m.parent x.level cl with
      | some p =>
        if x.clDone then s
        else (s.onBarrier cl b (fun y => { y with clDone := true })).post .barrierEventMessage (barrierMsg b cl p x.gen m false)
      | none => if x.level = 3 then s.fabricPart cl b m else s.completeBarrier cl b

/-- The key of a context at its cluster's event unit. -/
def euKey (n i : Nat) : Nat := posOfCore n * 16 + i

/-- Has a context arrived in a barrier's present generation (R257)? -/
def Barrier.hasArrived (x : Barrier) (n i : Nat) : Bool := tabFind x.arrivals (euKey n i) == some x.gen.toNat

/-- An arrival received (R255, R257): one whose masks are not the unit's own, or whose core is not within them, breaks the barrier; a context
that has arrived in the generation only waits; of a core's arrivals the first counts. -/
def State.countArrival (s : State) (n i b : Nat) : State :=
  let cl := clusterOfCore n
  let x := (s.clusterAt cl).barrier b
  let m := (s.coreAt n).masks
  if !m.holds n x.level || !((x.own.getD m).agree m x.level) then s.breakBarrier cl b 0x07 (some m)
  else if x.hasArrived n i then s
  else
    let s1 := s.onBarrier cl b (fun y => { y with arrivals := tabPut y.arrivals (euKey n i) y.gen.toNat })
    if x.arrived.contains (posOfCore n) then s1
    else (s1.onBarrier cl b (fun y => { y with own := some (y.own.getD m), arrived := insertNat (posOfCore n) y.arrived })).barrierProgress cl b

/-- An access to ARRIVE (R257, R258): a load waits unless its own arrival completes the barrier, a store does not. While the release of the
arrival is not complete, the arrival is taken up again. (DEDUCED, log 26) -/
def State.arrive (s : State) (load : Bool) (row : Instr) : State :=
  let e := s.ev
  let n := e.core
  let i := e.ctx
  let cl := clusterOfCore n
  let x := (s.clusterAt cl).barrier e.unit
  let sc := levelScope x.level
  if (s.ctxAt n i).euWait.isNone then s
  else if !(s.coreAt n).domCl.getLsbD (posOfCore n) then s.euRefuse n i
  else if !x.en || x.brk then
    (if load then s.euNow n i (euStatus 1 x.gen.toNat) none else s.answer n i none)
  else
    let s1 := s.release n sc
    if s1.releaseWaits n i sc then s1.retryLater row e
    else
      let s2 := s1.countArrival n i e.unit
      let y := (s2.clusterAt cl).barrier e.unit
      if !load then s2.answer n i none
      else if y.brk then s2.euNow n i (euStatus 1 y.gen.toNat) none
      else if y.hasArrived n i then
        s2.euJoin n i (fun w a => a.onBarrier cl e.unit (fun z => { z with waiters := z.waiters ++ [w] }))
      else s2.euNow n i (euStatus 0 y.gen.toNat) (some sc)

/-- ARRIVE_LOAD (R257). -/
def execArriveLoad (s : State) : Out := .next (s.arrive true .arriveLoad)
/-- ARRIVE_STORE (R257). -/
def execArriveStore (s : State) : Out := .next (s.arrive false .arriveStore)

/-- WAIT_LOAD (R257): it waits while its context has arrived in the present generation. (DEDUCED, log 26) -/
def execWaitLoad (s : State) : Out :=
  let e := s.ev
  let cl := clusterOfCore e.core
  let x := (s.clusterAt cl).barrier e.unit
  if (s.ctxAt e.core e.ctx).euWait.isNone then .next s
  else if !x.en || x.brk then .next (s.euNow e.core e.ctx (euStatus 1 x.gen.toNat) none)
  else if x.hasArrived e.core e.ctx then
    .next (s.euJoin e.core e.ctx (fun w a => a.onBarrier cl e.unit (fun y => { y with waiters := y.waiters ++ [w] })))
  else .next (s.euNow e.core e.ctx (euStatus 0 x.gen.toNat) (some (levelScope x.level)))

/-- BARRIER_CFG_WRITE (R256): a reserved value or bit raises the protection trap; otherwise BRK and the arrival count clear, GEN
stays, and the waiters are released broken. (DEDUCED, log 26) -/
def execBarrierCfgWrite (s : State) : Out :=
  let e := s.ev
  let cl := clusterOfCore e.core
  let x := (s.clusterAt cl).barrier e.unit
  if (s.ctxAt e.core e.ctx).euWait.isNone then .next s
  else if 4 ≤ fieldOf e.val 59 3 ∨ fieldOf e.val 32 27 ≠ 0 ∨ e.val.getLsbD 62 then .next (s.euRefuse e.core e.ctx)
  else
    let s1 := s.onBarrier cl e.unit (fun y =>
      { Barrier.reset with en := e.val.getLsbD 63, level := fieldOf e.val 59 3, gen := y.gen })
    let s2 := x.waiters.foldl (fun a w => a.euAnswer (16 * cl + w.pos) w.ctx (euStatus 1 x.gen.toNat) none) s1
    .next (s2.answer e.core e.ctx none)

/-- A message of a barrier's tree that gets an error reply in place of delivery: it is logged, and the barrier breaks at the sender
(R260, R384). -/
def State.treeReached (s : State) (k : State → Out) : Out :=
  let e := s.ev
  match s.reachOneWay (dieOfCluster e.core) (dieOfCluster e.addr) false with
  | some c =>
    let s1 := s.logError { cls := 0x06, die := dieOfCluster e.core, core := 16 * e.core, unit := 0, addr := euAddr (32 * e.unit), detail := BitVec.ofNat 64 c }
    .next (s1.breakBarrier e.core e.unit 0x05 none)
  | none => k s

/-- BARRIER_EVENT_MESSAGE (R255, R257, R260): a child has its part complete, or tells of a break. (DEDUCED, log 26) -/
def execBarrierEventMessage (s : State) : Out := s.treeReached (fun s =>
  let e := s.ev
  let cl := e.addr
  let x := (s.clusterAt cl).barrier e.unit
  if e.flag then .next (s.breakBarrier cl e.unit 0x07 (some e.masks))
  else if !x.en || x.brk then .next (s.post .barrierReleaseMessage (barrierMsg e.unit cl e.core x.gen e.masks true))
  else if !((x.own.getD e.masks).agree e.masks x.level) then .next (s.breakBarrier cl e.unit 0x07 none)
  else
    let s1 := s.onBarrier cl e.unit (fun y =>
      if dieOfCluster e.core = dieOfCluster cl then { y with own := some (y.own.getD e.masks), heardDie := insertNat e.core y.heardDie }
      else { y with own := some (y.own.getD e.masks), heardPkg := insertNat e.core y.heardPkg })
    .next (s1.barrierProgress cl e.unit))

/-- BARRIER_RELEASE_MESSAGE (R257, R260). -/
def execBarrierReleaseMessage (s : State) : Out := s.treeReached (fun s =>
  let e := s.ev
  if e.flag then .next (s.breakBarrier e.addr e.unit 0x07 (some e.masks)) else .next (s.completeBarrier e.addr e.unit))

/-- The masks of the fabric domain with an identifier on this module: those of a core that holds it (R254). -/
def State.fabricMasks (s : State) (fid : Nat) : Option DomMasks :=
  (s.cores.find? (fun nc => fieldOf nc.2.domFab 48 16 == fid && fieldOf nc.2.domFab 36 12 != 0)).map (fun nc => nc.2.masks)

/-- The switched-out partition whose cores hold a fabric domain: the messages of its tree are held with it (R259). -/
def State.fabricSaved (s : State) (fid : Nat) : Option Nat :=
  (s.parts.find? (fun p => p.2.switchedOut && p.2.saved.any (fun v =>
    decide (v.slot < 16) && fieldOf v.image.domFab 48 16 == fid && fieldOf v.image.domFab 36 12 != 0))).map (fun p => p.1)

/-- A message of the fabric leg of a barrier on this module: held while its partition is switched out, else for the unit of its package root
(R255, R259); one for a domain that nobody holds is logged. -/
def State.fabricLeg (s : State) (row : Instr) (k : DomMasks → Out) : Out :=
  match s.fabricSaved (fieldOf s.ev.val 32 16) with
  | some part => .next (s.onPart part (fun p => { p with held := p.held ++ [.event row s.ev] }))
  | none =>
    match s.fabricMasks (fieldOf s.ev.val 32 16) with
    | none => .next (s.logHearth 0 0x0A 6 0 0)
    | some m => k m

/-- FABRIC_BARRIER_EVENT (R424): an event of rank `aux` reaches the package root of rank 0; one for another domain, or of another
generation, breaks the barrier. (DESIGN CHOICE, log 27) -/
def execFabricBarrierEvent (s : State) : Out :=
  let e := s.ev
  s.fabricLeg .fabricBarrierEvent (fun m =>
    let cl := m.pkgRoot
    let x := (s.clusterAt cl).barrier e.unit
    if e.aux = 0 ∨ fieldOf m.fab 36 12 ≤ e.aux ∨ fieldOf e.val 0 32 ≠ x.gen.toNat ∨ fieldOf m.fab 24 12 ≠ 0 then
      .next (s.breakBarrier cl e.unit 0x07 (some m))
    else
      .next ((s.onBarrier cl e.unit (fun y => { y with heardFab := insertNat e.aux y.heardFab })).barrierProgress cl e.unit))

/-- FABRIC_BARRIER_RELEASE (R424): rank 0's release completes the fabric leg. -/
def execFabricBarrierRelease (s : State) : Out :=
  s.fabricLeg .fabricBarrierRelease (fun m => .next (s.completeBarrier m.pkgRoot s.ev.unit))

/-- A mutex passed to the head of its queue (R261); a waiter whose limit has passed is not granted (R265). -/
def State.passMutex (s : State) (cl m : Nat) : List EuWaiter → State
  | [] => s.onMutex cl m (fun x => { x with holder := none, queue := [] })
  | w :: rest =>
    let n := 16 * cl + w.pos
    match (s.ctxAt n w.ctx).euWait with
    | some (_, lim) =>
      if limitPassed lim s.time then (s.answer n w.ctx (some (euStatus 2 0))).passMutex cl m rest
      else (s.onMutex cl m (fun x => { x with holder := some (w.pos, w.ctx), queue := rest })).euAnswer n w.ctx (euStatus 0 0) (some .cluster)
    | none => s.passMutex cl m rest

/-- LOCK_LOAD (R261, R274). -/
def execLockLoad (s : State) : Out :=
  let e := s.ev
  let cl := clusterOfCore e.core
  let x := (s.clusterAt cl).mutex e.unit
  if (s.ctxAt e.core e.ctx).euWait.isNone then .next s
  else if x.broken then .next (s.euNow e.core e.ctx (euStatus 1 0) none)
  else if x.holder.isNone then
    .next ((s.onMutex cl e.unit (fun y => { y with holder := some (posOfCore e.core, e.ctx) })).euNow e.core e.ctx (euStatus 0 0) (some .cluster))
  else .next (s.euJoin e.core e.ctx (fun w a => a.onMutex cl e.unit (fun y => { y with queue := y.queue ++ [w] })))

/-- TRY_LOAD (R261, R274). -/
def execTryLoad (s : State) : Out :=
  let e := s.ev
  let cl := clusterOfCore e.core
  let x := (s.clusterAt cl).mutex e.unit
  if x.broken then .next (s.euNow e.core e.ctx (euStatus 1 0) none)
  else if x.holder.isNone && (s.ctxAt e.core e.ctx).euWait.isSome then
    .next ((s.onMutex cl e.unit (fun y => { y with holder := some (posOfCore e.core, e.ctx) })).euNow e.core e.ctx (euStatus 0 0) (some .cluster))
  else .next (s.euNow e.core e.ctx (euStatus 3 0) none)

/-- LOCK_STORE (R261, R274): the holder's store releases at cluster scope and frees the mutex; another context's is refused. -/
def execLockStore (s : State) : Out :=
  let e := s.ev
  let cl := clusterOfCore e.core
  let x := (s.clusterAt cl).mutex e.unit
  if (s.ctxAt e.core e.ctx).euWait.isNone then .next s
  else if x.broken then .next (s.answer e.core e.ctx none)
  else if x.holder ≠ some (posOfCore e.core, e.ctx) then .next (s.euRefuse e.core e.ctx)
  else
    let s1 := s.release e.core .cluster
    if s1.releaseWaits e.core e.ctx .cluster then .next (s1.retryLater .lockStore e)
    else .next ((s1.answer e.core e.ctx none).passMutex cl e.unit x.queue)

/-- EVT_STORE (R262): the event is set, its payload written and its waiters released; a release at cluster scope. -/
def execEvtStore (s : State) : Out :=
  let e := s.ev
  let cl := clusterOfCore e.core
  let x := (s.clusterAt cl).event e.unit
  if (s.ctxAt e.core e.ctx).euWait.isNone then .next s
  else
    let s1 := s.release e.core .cluster
    if s1.releaseWaits e.core e.ctx .cluster then .next (s1.retryLater .evtStore e)
    else
      let s2 := (s1.answer e.core e.ctx none).onEvent cl e.unit (fun y => { y with set := true, payload := e.val.setWidth 32, waiters := [] })
      .next (x.waiters.foldl (fun a w => a.euAnswer (16 * cl + w.pos) w.ctx (euStatus 0 (e.val.toNat % 2 ^ 32)) (some .cluster)) s2)

/-- EVT_LOAD (R262, R274). -/
def execEvtLoad (s : State) : Out :=
  let e := s.ev
  let cl := clusterOfCore e.core
  let x := (s.clusterAt cl).event e.unit
  if x.broken then .next (s.euNow e.core e.ctx (euStatus 1 0) none)
  else if x.set then .next (s.euNow e.core e.ctx (euStatus 0 x.payload.toNat) (some .cluster))
  else .next (s.euJoin e.core e.ctx (fun w a => a.onEvent cl e.unit (fun y => { y with waiters := y.waiters ++ [w] })))

/-- ESTAT_STORE (R262): the bit clears, whatever the data. -/
def execEstatStore (s : State) : Out :=
  let e := s.ev
  .next ((s.onEvent (clusterOfCore e.core) e.unit (fun y => { y with set := false })).answer e.core e.ctx none)

/-- `waitt` (R265): the load of an ARRIVE, WAIT, LOCK or EVT word with a limit; any other address is refused. (DEDUCED, log 30) -/
def execWaitt (_d a b : Reg) (s : State) : Out :=
  let p := s.g a
  let lim := some (s.g b)
  let refuse (s : State) : Out := s.trapped { (Trap.protection 0) with addr := p }
  s.densePtr p 0 8 (fun s ea =>
    match windowOf s.ctx.priv ea with
    | .unit off =>
      match euWord off with
      | some (.arrive k) => s.euAsk .arriveLoad k off lim
      | some (.wait k) => s.euAsk .waitLoad k off lim
      | some (.lock k) => s.euAsk .lockLoad k off lim
      | some (.evt k) => s.euAsk .evtLoad k off lim
      | _ => refuse s
    | _ => refuse s)

/-- Is an access of a context still on its way to the event unit? -/
def State.euUnderWay (s : State) (row : Instr) (n i : Nat) : Bool :=
  s.agenda.any (fun m => match m with
    | .event r e => r == row && e.core == n && e.ctx == i
    | _ => false)

/-- WAITT_TIMEOUT (R265): a `waitt` past its limit returns timed out; a LOCK leaves the queue, an arrival stays counted, and one that has not
been received yet is received first. -/
def execWaittTimeout (s : State) : Out :=
  let e := s.ev
  match (s.ctxAt e.core e.ctx).euWait with
  | some (_, lim) =>
    .next (if !limitPassed lim s.time then s
      else if s.euUnderWay .arriveLoad e.core e.ctx then s.retryLater .waittTimeout e
      else s.timeOut e.core e.ctx)
  | none => .next s

/-- The timeouts that are due: those of the contexts whose limit TIME has passed, each at the first tick after it (R265). -/
def State.limitEvents (s : State) (n : Nat) (c : Core) : List Move :=
  (List.range 11).flatMap (fun i =>
    match (c.ctx i).euWait with
    | some (_, lim) => if limitPassed lim s.time && !s.euUnderWay .waittTimeout n i then [.event .waittTimeout (Ev.ofCtx n i)] else []
    | none => [])

end Sys2Proof.Machine
end

