-- ==== Sys2Proof/Machine/Agents.lean ====
section
/-!
DEFINITION. How an asynchronous agent of a core reaches memory (R327): rights, reads and writes at the homes, the waits for fault
service, host memory, records through the format-record cache, and the decrement of a completion signal.
-/

namespace Sys2Proof.Machine

open Sys2Proof

/-- An agent at work: the core and die it acts for, the domain whose rights hold, its requester code, the context its work belongs to,
whether that context was at service level, and the event that takes its work up again. -/
structure Agent where
  core : Nat
  die : Nat
  dom : Nat
  kind : Nat
  ctx : Nat
  svc : Bool
  row : Instr
  ev : Ev
deriving DecidableEq, Repr

/-- How an access of an agent fails: refused (R308, R302), an uncorrectable error, or an error reply of a code (R384, R422). -/
inductive AgentErr where
  | refused (a : Nat)
  | poison (a : Nat)
  | reply (a code : Nat)
deriving DecidableEq, Repr

/-- The address an access failed at. -/
def AgentErr.addr : AgentErr → Nat
  | .refused a => a
  | .poison a => a
  | .reply a _ => a

/-- The CLASS of an agent's failure (R434). -/
def AgentErr.cls : AgentErr → Nat
  | .poison _ => 0x02
  | _ => 0x06

/-- An agent's failure logged (R292, R384, R434). -/
def State.logAgent (s : State) (n : Nat) (e : AgentErr) (detail : Nat) : State :=
  s.logCore n e.cls e.addr (BitVec.ofNat 64 (match e with
    | .reply _ c => if detail = 0 then c else detail
    | _ => detail))

/-- The failure that the event of a parked request brings back (R308, R313). -/
def agentErrOf (code va : Nat) : AgentErr :=
  if code = 2 then .poison va else if 16 ≤ code then .reply va (code - 16) else .refused va

/-- The first byte of a run that an agent may not access (R76, R282, R302): core-local space but the scratchpad, the physical window
but for work of service level, and units over which the domain lacks a right. (DEDUCED, log 33) -/
def State.agentRefused (s : State) (ag : Agent) (need : Need) (ea n : Nat) : Option Nat :=
  let last := ea + n - 1
  if n = 0 then none
  else if topByte ea = 0xFF || topByte last = 0xFF then (if isSpad ea && isSpad last then none else some ea)
  else if topByte ea = 0xFE || topByte last = 0xFE then
    let a := ea % 2 ^ 48
    let b := last % 2 ^ 48
    if ag.svc && topByte ea = 0xFE && topByte last = 0xFE && ((paHbm a && paHbm b) || (paHost a && paHost b)) then none else some ea
  else
    (((List.range (last / 65536 + 1 - ea / 65536)).map (fun i => ea / 65536 + i)).find? (fun u =>
      !need.granted (s.domainRights ag.die ag.dom u))).map (fun u => max ea (u * 65536))

/-- The first refused byte of several runs. -/
def State.agentRefusedAny (s : State) (ag : Agent) (need : Need) (runs : List (Nat × Nat)) : Option Nat :=
  runs.findSome? (fun r => s.agentRefused ag need r.1 r.2)

/-- The segments of the agent's domain read for some runs of bytes, with what is wrong with them logged (R302). (DEDUCED, log 14) -/
def State.readSegments (s : State) (ag : Agent) (runs : List (Nat × Nat)) : State :=
  let units := runs.flatMap (fun r => if r.2 = 0 then [] else
    (List.range ((r.1 + r.2 - 1) / 65536 + 1 - r.1 / 65536)).map (fun i => r.1 / 65536 + i))
  let pas := (units.filter (fun u => isTranslated (u * 65536))).foldl (fun acc u =>
    let read := s.segmentsRead ag.die ag.dom u
    if acc.length < read.length then read else acc) []
  (s.segmentErrors ag.die ag.dom pas).foldl (fun a e =>
    if ag.kind = 7 then a.logHearth ag.die e.1 6 e.2 0
    else if ag.kind = 4 then a.logEngine ag.core e.1 e.2 0 else a.logCore ag.core e.1 e.2 0) s

/-- An agent's access to runs of bytes goes on when none of them is refused; `refused` gets the first refused byte. -/
def State.agentAllowed (s : State) (ag : Agent) (need : Need) (runs : List (Nat × Nat)) (refused : State → Nat → Out) (k : State → Out) : Out :=
  let s1 := s.readSegments ag runs
  match s1.agentRefusedAny ag need runs with
  | some a => refused s1 a
  | none => k s1

/-- The words of a line that came from host memory for the agents of a core (R420). -/
def Core.remoteLine (c : Core) (ws : List Nat) : Option L2Line :=
  ws.foldl (fun (acc : Option L2Line) w =>
    match acc, tabFind c.remoteData w with
    | some l, some v => some (l.put (w % 16 * 4) (bytesLE 4 v.toNat))
    | _, _ => none)
    (some { data := 0, poison := 0, dirty := 0, ver := 0, verDirty := false })

/-- The access of an agent's work at which its parked request ended without data, with how it ended: the request is retired by that
answer, whatever the page's leaf says by now (R313). -/
def State.agentEnded (s : State) (va : Nat) : Option (AgentErr × State) :=
  if s.ev.aux ≠ 0 ∧ s.ev.addr / 64 = va / 64 then some (agentErrOf s.ev.aux va, { s with ev := { s.ev with aux := 0 } }) else none

/-- The work of an agent waits at a missing translation (R310); the matrix unit shows that it waits on a fault (R226). -/
def State.agentFault (s : State) (ag : Agent) (slice va : Nat) (leaf : Leaf) (ws : List Nat) : Out :=
  let s := if ag.kind = 5 then s.onCore ag.core (fun c => { c with mx := { c.mx with wait := .fault } }) else s
  .next (s.park slice va leaf { kind := ag.kind, core := ag.core, ctx := ag.ctx, va := va, ea := va, words := ws, again := some (ag.row, ag.ev), stale := false })

/-- The work of an agent waits for words of host memory: its home asks the remote endpoint (R420). -/
def State.agentRemote (s : State) (ag : Agent) (slice pa va : Nat) (ws : List Nat) : Out :=
  .next ((s.sendRma (dieOfCore slice) pa false []).onCore ag.core (fun c =>
    { c with remoteWaits := c.remoteWaits ++
        [(((s.remoteOf (dieOfCore slice) pa).1 : Nat), { kind := ag.kind, core := ag.core, ctx := ag.ctx, va := va, ea := va, words := ws, again := some (ag.row, ag.ev), stale := false })] }))

/-- The line of an address as an agent reads it at its home (R317, R327). -/
def State.agentLine (s : State) (ag : Agent) (va : Nat) (ws : List Nat) (fail : State → AgentErr → Out)
    (k : State → L2Line → Out) : Out :=
  match s.agentEnded va with
  | some (e, s1) => fail s1 e
  | none =>
    match s.homeLine ag.die va none with
    | (.line slice l leaf, s1) => k (s1.countAccess slice va ag.die leaf) l
    | (.fault slice leaf, s1) => s1.agentFault ag slice va leaf ws
    | (.remote slice pa, s1) =>
      match (s1.coreAt ag.core).remoteLine ws with
      | some l => k s1 l
      | none => s1.agentRemote ag slice pa va ws
    | (.refused, s1) => fail s1 (.refused va)
    | (.poison, s1) => fail s1 (.poison va)
    | (.reply c, s1) => fail s1 (.reply va c)

/-- The absolute numbers of the words that `n` bytes at `ea` touch. -/
def wordsAt (ea n : Nat) : List Nat := wordsTouched ea n

/-- The poisoned addresses among the words that `n` bytes at `off` of a line touch; the first byte accessed stands for its word. -/
def L2Line.badWords (l : L2Line) (line off n : Nat) : List Nat :=
  ((wordsTouched off n).filter (fun w => l.poison.getLsbD w)).map (fun w => line * 64 + max off (4 * w))

/-- Lines read at their homes one after the other: the bytes, and the addresses of poisoned words. -/
def State.agentLines (s : State) (ag : Agent) (fail : State → AgentErr → Out) (k : State → List Byte → List Nat → Out) :
    List (Nat × Nat × Nat) → List Byte → List Nat → Out
  | [], bs, bad => k s bs bad
  | (line, off, n) :: rest, bs, bad =>
    s.agentLine ag (line * 64 + off) (wordsAt (line * 64 + off) n) fail (fun s l =>
      s.agentLines ag fail k rest (bs ++ l.bytes off n) (bad ++ l.badWords line off n))

/-- Bytes read by an agent after its rights are checked: at their homes, or from the scratchpad of its core (R295). -/
def State.agentRead (s : State) (ag : Agent) (ea n : Nat) (fail : State → AgentErr → Out)
    (k : State → List Byte → List Nat → Out) : Out :=
  if n = 0 then k s [] []
  else if topByte ea = 0xFF then
    let c := s.coreAt ag.core
    let off := ea % 2 ^ 48
    k s (c.getSpad off n) (((wordsTouched off n).filter (fun w => c.spadPoison.contains w)).map (fun w => 0xFF * 2 ^ 48 + max off (4 * w)))
  else s.agentLines ag fail k (linesOf ea n) [] []

/-- Runs of bytes read by an agent: each run's bytes, and its poisoned addresses. -/
def State.agentReads (s : State) (ag : Agent) (fail : State → AgentErr → Out)
    (k : State → List (List Byte × List Nat) → Out) : List (Nat × Nat) → List (List Byte × List Nat) → Out
  | [], acc => k s acc.reverse
  | (ea, n) :: rest, acc => s.agentRead ag ea n fail (fun s bs bad => s.agentReads ag fail k rest ((bs, bad) :: acc))

/-- A missing translation or an error among lines to be written, found before any byte moves. -/
def State.agentProbe (s : State) (ag : Agent) (fail : State → AgentErr → Out) (k : State → Out) : List (Nat × Nat × Nat) → Out
  | [] => k s
  | (line, off, _) :: rest =>
    match s.agentEnded (line * 64 + off) with
    | some (e, s1) => fail s1 e
    | none =>
      match s.homeLine ag.die (line * 64 + off) none with
      | (.fault slice leaf, s1) => s1.agentFault ag slice (line * 64 + off) leaf []
      | (.refused, s1) => fail s1 (.refused (line * 64 + off))
      | (.poison, s1) => fail s1 (.poison (line * 64 + off))
      | (.reply c, s1) => fail s1 (.reply (line * 64 + off) c)
      | (_, s1) => s1.agentProbe ag fail k rest

/-- Bytes of one line written at its home by an agent, or forwarded to host memory (R321, R420). -/
def State.agentPutLine (s : State) (ag : Agent) (line off : Nat) (bs : List Byte) : State :=
  match s.homeLine ag.die (line * 64 + off) none with
  | (.line slice l leaf, s1) => (s1.countAccess slice (line * 64 + off) ag.die leaf).homeStore slice line l off bs
  | (.remote slice pa, s1) =>
    (s1.sendRma (dieOfCore slice) pa true (bs.map (fun b => b.setWidth 64))).onCore ag.core (fun c => { c with hostWrites := c.hostWrites ++ [(s1.remoteOf (dieOfCore slice) pa).1] })
  | (_, s1) => s1

/-- Bytes written by an agent after every check: at their homes, or into the scratchpad of its core. -/
def State.agentPut (s : State) (ag : Agent) (ea : Nat) (bs : List Byte) : State :=
  if bs.isEmpty then s
  else if topByte ea = 0xFF then s.storeSpad ag.core (ea % 2 ^ 48) bs
  else (linesOf ea bs.length).foldl (fun a l => a.agentPutLine ag l.1 l.2.1 ((bs.drop (l.1 * 64 + l.2.1 - ea)).take l.2.2)) s

/-- The poison of a word that an agent has written in parts, all of it, taken away (R77, R163). -/
def State.agentClean (s : State) (ag : Agent) (a : Nat) : State :=
  if topByte a = 0xFF then s.onCore ag.core (fun c => { c with spadPoison := setMember c.spadPoison (a % 2 ^ 48 / 4) false })
  else
    match s.homeLine ag.die a none with
    | (.line slice l _, s1) => s1.setSliceLine slice (a / 64) { l with poison := setBit l.poison (a % 64 / 4) false }
    | _ => s

/-- The lines outside core-local space that runs of bytes touch. -/
def runLines (runs : List (Nat × List Byte)) : List (Nat × Nat × Nat) :=
  runs.flatMap (fun r => if topByte r.1 = 0xFF then [] else linesOf r.1 r.2.length)

/-- Runs of bytes written by an agent as a whole: nothing moves before every line can be reached (R277). -/
def State.agentWrites (s : State) (ag : Agent) (runs : List (Nat × List Byte)) (fail : State → AgentErr → Out) (k : State → Out) : Out :=
  s.agentProbe ag fail (fun s => k (runs.foldl (fun a r => a.agentPut ag r.1 r.2) s)) (runLines runs)

/-- Host words that were read for the agents of a core are used up: a later read asks again (R420). -/
def State.dropRemote (s : State) (n : Nat) : State :=
  if (s.coreAt n).remoteData.isEmpty then s else s.onCore n (fun c => { c with remoteData := [] })

/-- The words of a line brought to the L1 for a unit that reads through it (R102, R176). -/
def State.agentFill (s : State) (ag : Agent) (fail : State → AgentErr → Out) (k : State → Out) : List (Nat × Nat × Nat) → Out
  | [] => k s
  | (line, off, n) :: rest =>
    match (wordsAt (line * 64 + off) n).filter (fun w => (s.l1Word ag.core w).isNone) with
    | [] => s.agentFill ag fail k rest
    | w :: ws => s.agentLine ag (4 * w) (w :: ws) fail (fun s l => (s.fillWords ag.core line (w :: ws) l).agentFill ag fail k rest)

/-- A byte as the L1 holds it: a unit of the core does not see held bytes (R190). -/
def State.l1Byte (s : State) (n a : Nat) : Byte :=
  match s.l1Word n (a / 4) with
  | some w => w.val.extractLsb' (8 * (a % 4)) 8
  | none => 0

/-- Bytes read by a unit of a core through its L1, or from its scratchpad. -/
def State.unitRead (s : State) (ag : Agent) (ea n : Nat) (fail : State → AgentErr → Out)
    (k : State → List Byte → List Nat → Out) : Out :=
  if n = 0 ∨ topByte ea = 0xFF then s.agentRead ag ea n fail k
  else
    s.agentFill ag fail (fun s =>
      k s ((bytesAt ea n).map (fun a => s.l1Byte ag.core a))
        ((bytesAt ea n).filter (fun a =>
          match s.l1Word ag.core (a / 4) with
          | some w => w.poison
          | none => false))) (linesOf ea n)

/-- Bytes with those that the core's hold buffer holds put in their place, as a load of the core reads them (R102, R167). -/
def Core.withHeld (c : Core) (ea : Nat) (bs : List Byte) : List Byte :=
  ((bytesAt ea bs.length).zip bs).map (fun p => (c.heldByte p.1).getD p.2)

/-- Doublewords of records (`n` = 8) or level-table entries (`n` = 2) for a unit of a core: from the format-record cache, or refilled
through its L1 exactly as a load would, so with held bytes in place of memory (R102, R167). -/
def State.agentWords (s : State) (ag : Agent) (n : Nat) (fail : State → AgentErr → Out) (k : State → List Word → Out) :
    List Nat → List Word → Out
  | [], acc => k s acc.reverse
  | a :: rest, acc =>
    match tabFind (s.coreAt ag.core).fmtCache (fmtKey a n) with
    | some w => s.agentWords ag n fail k rest (w :: acc)
    | none =>
      s.agentAllowed ag (Need.load false) [(a, n)] (fun s x => fail s (.refused x)) (fun s =>
        s.unitRead ag a n fail (fun s bs bad =>
          let c := s.coreAt ag.core
          match bad.filter (fun x => (c.heldByte x).isNone) with
          | x :: _ => fail s (.poison x)
          | [] =>
            let w : Word := BitVec.ofNat 64 (fromBytesLE (c.withHeld a bs))
            (s.onCore ag.core (fun c => { c with fmtCache := tabPut c.fmtCache (fmtKey a n) w })).agentWords ag n fail k rest (w :: acc)))

/-- The addresses of `n` doublewords from an address up. -/
def tableAddrs (a n : Nat) : List Nat := (List.range n).map (fun i => (a + 8 * i) % 2 ^ 56)

/-- A format record for a unit of a core (R98, R102). -/
def State.agentRecord (s : State) (ag : Agent) (code : Nat) (fail : State → AgentErr → Out) (k : State → FmtRecord → Out) : Out :=
  s.agentWords ag 8 fail (fun s ws => k s { dw0 := ws.getD 0 0, dw1 := ws.getD 1 0, dw2 := ws.getD 2 0, dw3 := ws.getD 3 0 })
    (tableAddrs ((s.coreAt ag.core).recordAddr code) 4) []

/-- The level table of a record for a unit of a core: none is read where no level code can need it, else the entries of the codes (R100). -/
def State.agentLevels (s : State) (ag : Agent) (fam : Family) (rec : FmtRecord) (codes : List Nat) (fail : State → AgentErr → Out)
    (k : State → List Int → Out) : Out :=
  if codes.isEmpty || rec.ltab = 0 then k s []
  else
    s.agentWords ag 2 fail (fun s _ =>
      k s ((List.range (2 ^ fam.codeBits)).map (fun c =>
        levelOf ((tabFind (s.coreAt ag.core).fmtCache (fmtKey (levelAddr rec c) 2)).getD 0)))) (codes.map (levelAddr rec)) []

/-- A completion signal decremented at its home as one indivisible step, a release at system scope (R293); on a pinned page a
decrement message goes to the region's endpoint, which acknowledges it as it does an RMA write (R421). `unit` names the work for a failure
message. (DESIGN CHOICE, log 105) -/
def State.agentDecrement (s : State) (ag : Agent) (va : Nat) (amount : Word) (unit : Nat) (fail : State → AgentErr → Out)
    (k : State → Out) : Out :=
  s.agentAllowed ag (Need.both false) [(va, 8)] (fun s a => fail s (.refused a)) (fun s =>
    match s.agentEnded va with
    | some (e, s1) => fail s1 e
    | none =>
      match s.homeLine ag.die va none with
      | (.line slice l leaf, s1) =>
        if l.poisoned (va % 64) 8 then fail s1 (.poison va)
        else k ((s1.countAccess slice va ag.die leaf).decrementLine slice va l amount)
      | (.fault slice leaf, s1) => s1.agentFault ag slice va leaf []
      | (.remote slice pa, s1) =>
        let r := s1.remoteOf (dieOfCore slice) pa
        let s2 := s1.sendFabric { kind := 0x03, endpoint := r.1, target := 0, reqid := 0, arg := r.2, payload := [amount] }
        let s2 := if ag.kind = 7 then s2 else s2.onCore ag.core (fun c => { c with hostWrites := c.hostWrites ++ [r.1] })
        k { s2 with remoteDecs := s2.remoteDecs ++ [{ agent := ag.kind, core := ag.core, unit := unit, addr := r.2.toNat, data := [ag.ev.val, BitVec.ofNat 64 va, BitVec.ofNat 64 ag.ctx] }] }
      | (.refused, s1) => fail s1 (.refused va)
      | (.poison, s1) => fail s1 (.poison va)
      | (.reply c, s1) => fail s1 (.reply va c))

/-- Is an asynchronous event one of the units of core `n`? Those of a task leave the agenda when the task is saved (R50). -/
def Move.ofUnit (n : Nat) : Move → Bool
  | .event i e => e.core == n && (i == .engineUnit || i == .engineCompletion || i == .streamContextArrive || i == .streamElementPass
      || i == .progressMark || i == .streamRecallArrive || i == .streamContextReturn || i == .streamSink || i == .mmaStep
      || i == .matrixCommandRetire || i == .mzero || i == .mma || i == .mmab || i == .mrload || i == .mqst || i == .mcvt
      || i == .mstw || i == .mldw || i == .mspec || i == .mcommit || i == .mdiscard || i == .mfence || i == .msignal)
  | _ => false

/-- Is a parked request one whose event `p` names? -/
def Req.resumes (r : Req) (p : Move → Bool) : Bool := r.again.any (fun q => p (.event q.1 q.2))

/-- The moves that `p` names leave the agenda, and the requests that would bring them back leave the miss tables and the waits for host
words. -/
def State.dropMoves (s : State) (p : Move → Bool) : State :=
  { s with
    agenda := s.agenda.filter (fun m => !p m)
    cores := s.cores.map (fun nc => (nc.1, { nc.2 with
      parked := nc.2.parked.filter (fun r => !r.resumes p)
      router := nc.2.router.filter (fun r => !r.resumes p)
      remoteWaits := nc.2.remoteWaits.filter (fun r => !r.2.resumes p) })) }

/-- The units of a core stop: what they have still to do leaves the agenda, the miss tables and the waits for host words. -/
def State.stopUnits (s : State) (n : Nat) : State := s.dropMoves (fun m => m.ofUnit n)

end Sys2Proof.Machine
end

