-- ==== Sys2Proof/Machine/Vector.lean ====
section
/-!
DEFINITION. The vector unit: configuration (R120 to R123), register legality (R126), masks and policies (R127 to R129),
and the frames in which the vector compute instructions work (R133).
An element is the natural number of its bits.
-/

namespace Sys2Proof.Machine

open Sys2Proof

/-- The vector configuration of a context: SEW in bits, GM, VL, and the two policies (R121, R122). -/
structure VCfg where
  n : Nat
  gm : Nat
  vl : Nat
  tz : Bool
  mz : Bool
deriving DecidableEq, Repr

/-- The configuration that `VCFG` and `VL` hold. -/
def Ctx.vcfgOf (x : Ctx) : VCfg where
  n := 8 * 2 ^ fieldOf x.vcfg 0 2
  gm := 2 ^ fieldOf x.vcfg 2 2
  vl := fieldOf x.vl 0 12
  tz := x.vcfg.getLsbD 4
  mz := x.vcfg.getLsbD 5

/-- VLMAX of a configuration (R120). -/
def vlmaxOf (cfg : Word) : Nat := 2048 * 2 ^ fieldOf cfg 2 2 / (8 * 2 ^ fieldOf cfg 0 2)

/-- `setvl` and `setvli` with a configuration and a requested count (R123). -/
def State.setVector (s : State) (d a : Reg) (cfg : Word) : Out :=
  let vlmax := vlmaxOf cfg
  let avl := if a = 0 then vlmax else (s.g a).toNat
  let vl := BitVec.ofNat 64 (min avl vlmax)
  .next (((s.mapCtx (fun x => { x with vcfg := cfg, vl := vl })).setG d vl).finish 4)

/-- `setvl` (R123): a configuration with a reserved bit set is an illegal instruction with detail 1. -/
def execSetvl (d a b : Reg) (s : State) : Out :=
  if (s.g b).extractLsb' 6 58 ≠ 0 then s.trapped (Trap.illegal 1) else s.setVector d a (s.g b)

/-- `setvli` (R123). -/
def execSetvli (d a : Reg) (c : BitVec 6) (s : State) : Out := s.setVector d a (c.setWidth 64)

/-- E(vn, i, w): element `i` of width `w` of the group that starts at a register (R120). -/
def Ctx.elem (x : Ctx) (vn i w : Nat) : Nat := fieldOf (x.getV (vn + i * w / 2048)) (i * w % 2048) w

/-- The elements of a group of `g` registers, lowest first. -/
def Ctx.elems (x : Ctx) (vn w : Nat) : Nat → List Nat
  | 0 => []
  | g + 1 => chunks w (2048 / w) (x.getV vn).toNat ++ x.elems (vn + 1) w g

/-- A group of `g` registers written with its elements, lowest first. -/
def Ctx.putElems (x : Ctx) (vn w : Nat) : Nat → List Nat → Ctx
  | 0, _ => x
  | g + 1, els =>
    (x.setV vn (BitVec.ofNat 2048 (joinChunks w (els.take (2048 / w))))).putElems (vn + 1) w g (els.drop (2048 / w))

/-- Active(i) for an element below VL (R127). -/
def Ctx.active (x : Ctx) (m : Bool) (i : Nat) : Bool := m || (x.getV 0).getLsbD i

/-- ApplyPolicy over a group of width `w`: element `i` as computed, or as R128 gives it. (DEDUCED, log 83) -/
def Ctx.policy (x : Ctx) (vd w egm : Nat) (computed : Nat → Option Nat) : List Nat :=
  let c := x.vcfgOf
  let old := x.elems vd w egm
  ((List.range (2048 * egm / w)).zip old).map (fun p =>
    match computed p.1 with
    | some v => v
    | none => if p.1 < c.vl then (if c.mz then 0 else p.2) else (if c.tz then 0 else p.2))

/-- Do two groups share a register? -/
def overlaps (a ga b gb : Nat) : Bool := decide (a < b + gb) && decide (b < a + ga)

/-- A vector operand: its first register and its effective grouping. -/
abbrev VGroup := Nat × Nat

/-- The checks of R61 and R126 on an instruction's vector operands, then the instruction: a register number that is no multiple
of its grouping or a combination that `ok` refuses gives detail 2; a helper that reaches `v8` to `v31` gives detail 4 (R35). -/
def State.vecCheck (s : State) (ok : Bool) (groups : List VGroup) (k : Out) : Out :=
  if !ok || groups.any (fun g => g.1 % g.2 != 0) then s.trapped (Trap.illegal 2)
  else if s.ctx.cidx ≠ 0 && groups.any (fun g => decide (8 < g.1 + g.2)) then s.trapped (Trap.illegal 4)
  else k

/-- A destination group as an instruction writes it, with the flags raised; the instruction is complete (R128, R141). -/
def State.vecWrite (s : State) (vd w egm : Nat) (els : List Nat) (fl : Flags) : Out :=
  .next ((s.mapCtx (fun x => (x.putElems vd w egm els).orFlags fl)).finish 4)

/-- Results of the active elements below VL, with the union of their flags (R127, R141). -/
def Ctx.compute (x : Ctx) (m : Bool) (f : Nat → Nat × Flags) : List (Option Nat) × Flags :=
  (List.range x.vcfgOf.vl).foldr (fun i acc =>
    if x.active m i then (some (f i).1 :: acc.1, (f i).2 ||| acc.2) else (none :: acc.1, acc.2)) ([], 0)

/-- An instruction that computes its active elements and leaves the rest to the policies; with VL = 0 it writes nothing (R129). -/
def State.vecMap (s : State) (m : Bool) (vd w egm : Nat) (f : Nat → Nat × Flags) : Out :=
  if s.ctx.vcfgOf.vl = 0 then .next (s.finish 4) else
  let r := s.ctx.compute m f
  s.vecWrite vd w egm (s.ctx.policy vd w egm (fun i => (r.1[i]?).getD none)) r.2

/-- Operand(i) (R133). `idx` marks the index forms, which read imm5 unsigned. -/
def State.operand (s : State) (k : Kind) (b : BitVec 5) (n : Nat) (idx : Bool) (i : Nat) : Nat :=
  match k with
  | .vv => s.ctx.elem b.toNat i n
  | .vx => (s.g b).toNat % 2 ^ n
  | .vi => if idx then b.toNat else wrapInt b.toInt n

/-- The group of the second operand, if it is a vector register. -/
def secondGroup (k : Kind) (b : BitVec 5) (gm : Nat) : List VGroup := if k = .vv then [(b.toNat, gm)] else []

/-- What an element-wise instruction is like: `wd` doubles its destination, `wa` doubles its first source, `float` takes float
elements, `idx` reads its immediate unsigned (R133, R135 to R138). -/
structure VShape where
  wd : Bool
  wa : Bool
  float : Bool
  idx : Bool

/-- The plain shape. -/
def VShape.plain : VShape := { wd := false, wa := false, float := false, idx := false }

/-- The combinations that an element-wise instruction accepts (R126, R136, R137). -/
def vecOk (c : VCfg) (sh : VShape) (m : Bool) (k : Kind) (d a : VRegNo) (b : BitVec 5) : Bool :=
  (!(sh.wd || sh.wa) || (c.n != 64 && c.gm != 8)) && (!sh.float || c.n != 8) && (m || d != 0)
    && (!sh.wd || !overlaps d.toNat (2 * c.gm) a.toNat c.gm)
    && (!sh.wd || k != .vv || !overlaps d.toNat (2 * c.gm) b.toNat c.gm)
    && (!sh.wa || !overlaps d.toNat c.gm a.toNat (2 * c.gm))

/-- An element-wise instruction (R135, R138): `op` gets N, x, y and the old destination element. -/
def State.vecArith (s : State) (sh : VShape) (m : Bool) (k : Kind) (d a : VRegNo) (b : BitVec 5)
    (op : Nat → Nat → Nat → Nat → Nat × Flags) : Out :=
  let c := s.ctx.vcfgOf
  let ed := if sh.wd then 2 * c.n else c.n
  let gd := if sh.wd then 2 * c.gm else c.gm
  let ea := if sh.wa then 2 * c.n else c.n
  let ga := if sh.wa then 2 * c.gm else c.gm
  s.vecCheck (vecOk c sh m k d a b) ((d.toNat, gd) :: (a.toNat, ga) :: secondGroup k b c.gm)
    (s.vecMap m d.toNat ed gd (fun i => op c.n (s.ctx.elem a.toNat i ea) (s.operand k b c.n sh.idx i) (s.ctx.elem d.toNat i ed)))

/-- An integer instruction of R135: `op` is over the integers and its result wraps to `ed` bits. -/
def State.vecInt (s : State) (sh : VShape) (m : Bool) (k : Kind) (d a : VRegNo) (b : BitVec 5)
    (op : Nat → Nat → Nat → Nat → Int) : Out :=
  s.vecArith sh m k d a b (fun n x y o => (wrapInt (op n x y o) (if sh.wd then 2 * n else n), 0))

/-- A float instruction of R138, with the mode of `FRM`. -/
def State.vecFloat (s : State) (m : Bool) (k : Kind) (d a : VRegNo) (b : BitVec 5)
    (op : FFmt → RMode → Nat → Nat → Nat → Nat × Flags) : Out :=
  s.vecArith { VShape.plain with float := true } m k d a b (fun n x y o => op (fmtOfWidth n) s.frmMode x y o)

/-- SatS(v, N) (R135). -/
def satS (v : Int) (n : Nat) : Int := maxInt (-(2 : Int) ^ (n - 1)) (minInt v ((2 : Int) ^ (n - 1) - 1))

/-- SatU(v, N) (R135). -/
def satU (v : Int) (n : Nat) : Int := maxInt 0 (minInt v ((2 : Int) ^ n - 1))

/-- RoundShift(z, s): to nearest, ties to even (R135). -/
def roundShift (z : Int) (s : Nat) : Int :=
  let p : Int := (2 : Int) ^ s
  let q := z / p
  let r := z % p
  if p < 2 * r ∨ (2 * r = p ∧ q % 2 = 1) then q + 1 else q

/-- A mask register as an instruction computes its bits below VL; the bits past VL follow TZ (R127, R128, R142). -/
def Ctx.maskPolicy (x : Ctx) (vd : Nat) (bits : List (Option Bool)) : VReg :=
  let c := x.vcfgOf
  let old := x.getV vd
  let low := joinChunks 1 ((List.range c.vl).map (fun i =>
    match (bits[i]?).getD none with
    | some b => if b then 1 else 0
    | none => if c.mz then 0 else if old.getLsbD i then 1 else 0))
  let high := if c.tz then 0 else old.toNat / 2 ^ c.vl * 2 ^ c.vl
  BitVec.ofNat 2048 (low + high)

/-- A compare (R142): `op` gets N and both elements. -/
def State.vecCompare (s : State) (float m : Bool) (k : Kind) (d a : VRegNo) (b : BitVec 5)
    (op : Nat → Nat → Nat → Bool × Flags) : Out :=
  let c := s.ctx.vcfgOf
  let ok := (!float || c.n != 8) && !overlaps d.toNat 1 a.toNat c.gm && (k != .vv || !overlaps d.toNat 1 b.toNat c.gm)
  s.vecCheck ok ((d.toNat, 1) :: (a.toNat, c.gm) :: secondGroup k b c.gm) (
    if c.vl = 0 then .next (s.finish 4) else
    let rs := (List.range c.vl).map (fun i =>
      if s.ctx.active m i then some (op c.n (s.ctx.elem a.toNat i c.n) (s.operand k b c.n false i)) else none)
    let fl := rs.foldl (fun f r =>
      match r with
      | some p => f ||| p.2
      | none => f) (0 : Flags)
    let v := s.ctx.maskPolicy d.toNat (rs.map (fun r => r.map (fun p => p.1)))
    .next ((s.mapCtx (fun x => (x.setV d.toNat v).orFlags fl)).finish 4))

/-- A mask-logic instruction (R143). -/
def State.maskLogic (s : State) (d a b : VRegNo) (op : Bool → Bool → Bool) : Out :=
  s.vecCheck true [(d.toNat, 1), (a.toNat, 1), (b.toNat, 1)] (
    let vl := s.ctx.vcfgOf.vl
    if vl = 0 then .next (s.finish 4) else
    let bits := (List.range vl).map (fun i => some (op ((s.ctx.getV a.toNat).getLsbD i) ((s.ctx.getV b.toNat).getLsbD i)))
    let v := s.ctx.maskPolicy d.toNat bits
    .next ((s.mapCtx (fun x => x.setV d.toNat v)).finish 4))

/-- A permute whose destination may not overlap a source group (R144). (DEDUCED, log 22) -/
def State.vecPermute (s : State) (m : Bool) (d a : VRegNo) (others : List VGroup) (f : VCfg → Nat → Option Nat) : Out :=
  let c := s.ctx.vcfgOf
  let ok := (m || d != 0) && !overlaps d.toNat c.gm a.toNat c.gm && others.all (fun g => !overlaps d.toNat c.gm g.1 g.2)
  s.vecCheck ok ((d.toNat, c.gm) :: (a.toNat, c.gm) :: others) (
    if c.vl = 0 then .next (s.finish 4) else
    let r := (s.ctx.compute m (fun i => ((f c i).getD (s.ctx.elem d.toNat i c.n), 0))).1
    s.vecWrite d.toNat c.n c.gm (s.ctx.policy d.toNat c.n c.gm (fun i => (r[i]?).getD none)) 0)

/-- A scalar index: an immediate unsigned, or all 64 bits of a register (R144). -/
def State.vecIndex (s : State) (k : Kind) (b : BitVec 5) : Nat :=
  match k with
  | .vx => (s.g b).toNat
  | _ => b.toNat

/-- A reduction (R148): `combine` gets the width of a source element; `wide` doubles the width of the accumulator. With VL = 0 only the
scalar result is written, under either policy (R129). (DEDUCED, log 23) -/
def State.vecReduce (s : State) (wide float m : Bool) (d a b : VRegNo) (combine : Nat → Nat → Nat → Nat × Flags) : Out :=
  let c := s.ctx.vcfgOf
  let er := if wide then 2 * c.n else c.n
  let ok := (!wide || (c.n != 64 && c.gm != 8 && !overlaps d.toNat 1 a.toNat c.gm)) && (!float || c.n != 8) && (m || d != 0)
  s.vecCheck ok [(d.toNat, 1), (a.toNat, c.gm), (b.toNat, 1)] (
    let r := (List.range c.vl).foldl (fun (acc : Nat × Flags) i =>
      if s.ctx.active m i then
        let q := combine c.n acc.1 (s.ctx.elem a.toNat i c.n)
        (q.1, acc.2 ||| q.2)
      else acc) (s.ctx.elem b.toNat 0 er, 0)
    let old := s.ctx.elems d.toNat er 1
    s.vecWrite d.toNat er 1 (r.1 :: (old.drop 1).map (fun o => if c.tz && c.vl != 0 then 0 else o)) r.2)

/-- An integer reduction on elements of one width (R148). -/
def State.vecReduceInt (s : State) (m : Bool) (d a b : VRegNo) (f : Nat → Nat → Nat → Nat) : Out :=
  s.vecReduce false false m d a b (fun n acc x => (f n acc x, 0))

/-- A conversion from elements of one width to elements of another (R149). -/
def State.vecConvert (s : State) (wd wa m : Bool) (r : VRound) (d a : VRegNo) (op : Nat → RMode → Nat → Nat × Flags) : Out :=
  s.vecArith { wd := wd, wa := wa, float := true, idx := false } m .vi d a 0 (fun n x _ _ => op n (s.roundOf r) x)

end Sys2Proof.Machine
end

