-- ==== Sys2Proof/Machine/VectorMemory.lean ====
section
/-!
DEFINITION. Vector memory instructions: plain, strided, indexed and first-fault loads and stores (R155 to R159, R131, R132),
the billet load and decode (R151, R152, R160, R161) and the quantising store (R162, R163).
-/

namespace Sys2Proof.Machine

open Sys2Proof

/-- The active elements below VL, in order (R127). -/
def Ctx.activeList (x : Ctx) (m : Bool) : List Nat := (List.range x.vcfgOf.vl).filter (fun i => x.active m i)

/-- A plain or dense pointer of a vector access: its format is checked (R157); `far` says that an element lies out of range. (DEDUCED, log 24) -/
def State.vecPtr (s : State) (p : Word) (far : Bool) (k : State → Out) : Out :=
  s.withRecord p (if far then some (Trap.range p) else none) (fun s rec =>
    match rec with
    | some r => if r.family ≠ some .dense then s.trapped (Trap.format p) else k s
    | none => k s)

/-- Element accesses as runs of bytes, none when one lies outside the address space (R158). -/
def runsOf (els : List (Nat × Int)) (w : Nat) : Option (List (Nat × Nat)) :=
  if els.any (fun e => outOfRange e.2 w) then none else some (els.map (fun e => (e.2.toNat, w)))

/-- The offsets of the addressing forms: unit stride, a stride in a register, an index group (R157). -/
inductive VAddrForm where
  | unit
  | stride (b : Reg)
  | index (b : VRegNo)

/-- The offset of element `i` (R157). -/
def State.vecOffset (s : State) (f : VAddrForm) (n i : Nat) : Int :=
  match f with
  | .unit => (i * (n / 8) : Nat)
  | .stride b => i * (s.g b).toInt
  | .index b => s.ctx.elem b.toNat i n

/-- The active elements with their addresses (R157). -/
def State.vecElements (s : State) (m : Bool) (p : Word) (f : VAddrForm) : List (Nat × Int) :=
  (s.ctx.activeList m).map (fun i => (i, (ptrAddr p : Int) + s.vecOffset f s.ctx.vcfgOf.n i))

/-- The index group of a form. -/
def VAddrForm.groups (f : VAddrForm) (gm : Nat) : List VGroup :=
  match f with
  | .index b => [(b.toNat, gm)]
  | _ => []

/-- Loaded elements written to a destination group; the other elements follow the policies (R128, R159). -/
def State.vecLoaded (s : State) (d : VRegNo) (vals : List (Nat × Nat)) : Out :=
  let c := s.ctx.vcfgOf
  s.vecWrite d.toNat c.n c.gm (s.ctx.policy d.toNat c.n c.gm (fun i => tabFind vals i)) 0

/-- A plain vector load (R157 to R159). -/
def State.vecLoad (s : State) (m : Bool) (d : VRegNo) (a : Reg) (f : VAddrForm) : Out :=
  let c := s.ctx.vcfgOf
  let p := s.g a
  s.vecCheck (m || d != 0) ((d.toNat, c.gm) :: f.groups c.gm) (
    if c.vl = 0 then .next (s.finish 4) else
    let far := (runsOf (s.vecElements m p f) (c.n / 8)).isNone
    s.vecPtr p far (fun s =>
      let els := s.vecElements m p f
      match runsOf els (c.n / 8) with
      | none => s.trapped (Trap.range p)
      | some runs =>
        s.loadRuns (Need.load (ptrCode p ≠ 0)) runs none (fun s bss =>
          s.vecLoaded d ((els.map (fun e => e.1)).zip (bss.map fromBytesLE)))))

/-- Element stores placed in order from the element the context has come to; an element that the hold buffer cannot take
leaves the context not ready (R159, R166). -/
def State.placeFrom (s : State) : List (Nat × List Byte) → Out
  | [] => .next (s.finish 4)
  | (ea, bs) :: rest =>
    if s.storeBlocked (bytesAt ea bs.length) then .next (s.wait .busy)
    else ((s.storeRun ea bs).placedOne rest).placeFrom rest

/-- A vector store of element runs: every check is made before any byte is placed (R158, R166). -/
def State.vecStoreRuns (s : State) (need : Need) (els : List (Nat × List Byte)) : Out :=
  let ranges := els.map (fun e => (e.1, e.2.length))
  s.checked need ranges none (fun s => s.served true ranges (fun s => s.placeFrom els))

/-- A plain vector store (R157 to R159). A store that has placed bytes goes on where it was (R166). -/
def State.vecStore (s : State) (m : Bool) (d : VRegNo) (a : Reg) (f : VAddrForm) : Out :=
  let c := s.ctx.vcfgOf
  let p := s.g a
  s.vecCheck true ((d.toNat, c.gm) :: f.groups c.gm) (
    if c.vl = 0 then .next (s.finish 4) else
    let els := s.vecElements m p f
    let data (s : State) : List (Nat × List Byte) :=
      els.map (fun e => (e.2.toNat, bytesLE (c.n / 8) (s.ctx.elem d.toNat e.1 c.n)))
    if s.ctx.placed ≠ 0 then s.placeFrom s.ctx.unplaced else
    s.vecPtr p (runsOf els (c.n / 8)).isNone (fun s =>
      match runsOf els (c.n / 8) with
      | none => s.trapped (Trap.range p)
      | some _ => s.vecStoreRuns (Need.store (ptrCode p ≠ 0)) (data s)))

/-- `vld` (R157). -/
def execVld (m : Bool) (d : VRegNo) (a : Reg) (s : State) : Out := s.vecLoad m d a .unit
/-- `vlds` (R157). -/
def execVlds (m : Bool) (d : VRegNo) (a b : Reg) (s : State) : Out := s.vecLoad m d a (.stride b)
/-- `vldx` (R157). -/
def execVldx (m : Bool) (d : VRegNo) (a : Reg) (b : VRegNo) (s : State) : Out := s.vecLoad m d a (.index b)
/-- `vst` (R157). -/
def execVst (m : Bool) (d : VRegNo) (a : Reg) (s : State) : Out := s.vecStore m d a .unit
/-- `vsts` (R157). -/
def execVsts (m : Bool) (d : VRegNo) (a b : Reg) (s : State) : Out := s.vecStore m d a (.stride b)
/-- `vstx` (R157). -/
def execVstx (m : Bool) (d : VRegNo) (a : Reg) (b : VRegNo) (s : State) : Out := s.vecStore m d a (.index b)

/-- What a later element of a first-fault load finds (R130): its data, a fault, poisoned data, or words of host memory to wait for. -/
inductive Probe where
  | ok (s : State)
  | fault
  | poison
  | remote (va : Nat)

/-- The homing fields of a page as a load finds them: known to the core, or as its walk slice answers (R306). -/
def State.probeHint (s : State) (n va : Nat) : Option Leaf :=
  match s.hint n va with
  | some l => some l
  | none =>
    if !isTranslated va then none else
    match (s.queryLeaf (dieOfCore n) va).1 with
    | .leaf l => some l
    | _ => none

/-- The words of one line brought to the L1 for a first-fault load. A page without a valid leaf, or with no known home, would
fault; nothing is parked and no message is sent (R130, R131). A home that answers with an error reply, or with poison in a table entry,
truncates the load as well, and nothing is logged: R131 lets no entry be written but at poisoned data of the element. (DESIGN CHOICE, log 97) -/
def State.probeLine (s : State) (n : Nat) (addrs : List Nat) (line : Nat) : Probe :=
  let ws := s.missingIn n addrs line
  let va := match ws with
    | w :: _ => w * 4
    | [] => line * 64
  let known := if isTranslated va then s.hint n va else none
  if s.ctx.lost.contains line then .fault
  else if ws.isEmpty && !known.any (fun l => !l.v || l.migratable) then .ok s
  else
    match s.askHome (dieOfCore n) va (s.probeHint n va) with
    | (.line _ l _, s1) => .ok (if ws.isEmpty then s1 else s1.fillWords n line ws l)
    | (.remote _ _, _) => if ws.isEmpty then .ok s else .remote va
    | _ => .fault

/-- A later element of a first-fault load (R130, R131). (DESIGN CHOICE, log 97) -/
def State.probe (s : State) (need : Need) (ea : Int) (w : Nat) : Probe :=
  if outOfRange ea w then .fault
  else if (s.core.refusedByte s.ctx.priv need ea.toNat w).isSome then .fault
  else
    let addrs := bytesAt ea.toNat w
    let filled := if isSpad ea.toNat then Probe.ok s else
      (linesOf ea.toNat w).foldl (fun acc l =>
        match acc with
        | .ok s => s.probeLine s.focus addrs l.1
        | p => p) (Probe.ok s)
    match filled with
    | .ok s1 => if (s1.badByte ea.toNat w).isSome then .poison else .ok s1
    | p => p

/-- The elements of a first-fault load after the first, in order: the values read, or where the load is truncated (R131). (DEDUCED, log 24) -/
def State.probeAll (s : State) (need : Need) (w : Nat) :
    List (Nat × Int) → List (Nat × Nat) → (State → List (Nat × Nat) → Option (Nat × Option Nat) → Out) → Out
  | [], vals, k => k s vals.reverse none
  | (i, ea) :: rest, vals, k =>
    match s.probe need ea w with
    | .ok s1 => s1.probeAll need w rest ((i, fromBytesLE ((bytesAt ea.toNat w).map (fun a => s1.byteAt a))) :: vals) k
    | .fault => k s vals.reverse (some (i, none))
    | .poison => k s vals.reverse (some (i, some ea.toNat))
    | .remote va =>
      .next ((s.post .homeMiss (s.missEvent 0 va (s.missingIn s.focus (bytesAt ea.toNat w) (va / 64)).reverse ea.toNat)).wait (.probe va))

/-- `vldff` (R131, R132): the lowest active element as `vld` loads it, the later ones until one would fault. (DEDUCED, log 83) -/
def execVldff (m : Bool) (d : VRegNo) (a : Reg) (s : State) : Out :=
  let c := s.ctx.vcfgOf
  let p := s.g a
  let w := c.n / 8
  s.vecCheck (m || d != 0) [(d.toNat, c.gm)] (
    if c.vl = 0 then .next (s.finish 4) else
    s.vecPtr p ((s.vecElements m p .unit).head?.any (fun e => outOfRange e.2 w)) (fun s =>
      match s.vecElements m p .unit with
      | [] => s.vecLoaded d []
      | (i, ea) :: rest =>
        if outOfRange ea w then s.trapped (Trap.range p) else
        let need := Need.load (ptrCode p ≠ 0)
        s.loadRuns need [(ea.toNat, w)] none (fun s bss =>
          let later := (rest.filter (fun e => !outOfRange e.2 w)).map (fun e => (e.2.toNat, w))
          match s.core.plbMiss later with
          | some u => .next ((s.post .plbRefill { Ev.ofCtx s.focus s.curCtx with addr := u * 65536 }).wait (.plb (u * 65536)))
          | none =>
            s.probeAll need w rest [(i, fromBytesLE (bss.headD []))] (fun s vals stop =>
              match stop with
              | none => s.vecLoaded d vals
              | some (j, bad) =>
                let s1 := match bad with
                  | some a => s.logCore s.focus 0x02 a 0
                  | none => s
                (s1.mapCtx (fun x => { x with vl := BitVec.ofNat 64 j })).vecLoaded d vals))))

/-- A billet pointer: its record and family, or a format mismatch (R160, R162). -/
def State.billetPtr (s : State) (p : Word) (k : State → FmtRecord → Family → Out) : Out :=
  if ptrCode p = 0 then s.trapped (Trap.format p) else
  s.withRecord p none (fun s rec =>
    match rec with
    | some r =>
      match r.family with
      | some .billet8 => k s r .billet8
      | some .billet4 => k s r .billet4
      | _ => s.trapped (Trap.format p)
    | none => s.trapped (Trap.format p))

/-- The entries of a level table that some codes need, read through the format-record cache: each entry is read, checked and cached by
itself, for the spec gives a refill no other size (R99, R100, R102, R164). `bad` gets what is poisoned among them and names the address of
the trap, if there is one. (DEDUCED, log 24; DESIGN CHOICE, log 98) -/
def State.readLevels (s : State) (fam : Family) (rec : FmtRecord) (codes : List Nat) (bad : (Nat → Option Nat) → Option Nat)
    (k : State → List Int → Out) : Out :=
  let missing := (codes.foldl (fun acc c => insertNat (levelAddr rec c) acc) []).filter (fun a => (s.cachedWord (fmtKey a 2)).isNone)
  s.loadRaw (Need.load false) (missing.map (fun a => (a, 2))) none (fun s bss _ =>
    match bad (fun c => if missing.contains (levelAddr rec c) then s.badByte (levelAddr rec c) 2 else none) with
    | some a => s.trapped (Trap.poison a)
    | none =>
      let put (c : Core) : Core := { c with fmtCache := (missing.zip bss).foldl (fun t p =>
        tabPut t (fmtKey p.1 2) (BitVec.ofNat 64 (fromBytesLE p.2))) c.fmtCache }
      let s1 := if missing.isEmpty then s else s.mapCore put
      k s1 (if codes.isEmpty then [] else
        (List.range (2 ^ fam.codeBits)).map (fun c => levelOf ((s1.cachedWord (fmtKey (levelAddr rec c) 2)).getD 0))))

/-- A billet element as an instruction reads it: its number, its header and its code. -/
structure BilletIn where
  i : Nat
  header : Nat
  code : Nat

/-- The first poisoned level-table entry that some elements need, in their order. -/
def badLevel (rec : FmtRecord) (els : List BilletIn) (bad : Nat → Option Nat) : Option Nat :=
  els.findSome? (fun e => if usesLevels rec e.header then bad e.code else none)

/-- Decoded elements as `vbdec` and `vldb` write them at a width of 32 or 64 bits, with their flags (R151). -/
def decodeElems (n : Nat) (mode : RMode) (fam : Family) (rec : FmtRecord) (table : List Int) (els : List BilletIn) :
    List (Nat × Nat) × Flags :=
  els.foldr (fun e acc =>
    let r := billetDecode fam e.header e.code rec table
    if n = 32 then
      let q := decodedF32 mode r
      ((e.i, q.1) :: acc.1, q.2 ||| acc.2)
    else ((e.i, decodedGrid r) :: acc.1, acc.2)) ([], 0)

/-- Decoded billets delivered to a destination, or the billet-corruption trap (R105, R152, R161). `bad` lists the corrupt
headers in order by the address they are logged with. -/
def State.billetDeliver (s : State) (d : VRegNo) (bad : List Nat) (detail : Word) (vals : List (Nat × Nat)) (fl : Flags) : Out :=
  let c := s.ctx.vcfgOf
  match bad with
  | h :: _ =>
    if s.ctx.bcte then
      ((s.flag flagBFLT).logCore s.focus 0x03 h detail).trapped (Trap.billet h)
    else
      let s1 := bad.foldl (fun a h => a.logCore a.focus 0x03 h detail) s
      s1.vecWrite d.toNat c.n c.gm (s1.ctx.policy d.toNat c.n c.gm (fun i => tabFind vals i)) (fl ||| flagBFLT)
  | [] => s.vecWrite d.toNat c.n c.gm (s.ctx.policy d.toNat c.n c.gm (fun i => tabFind vals i)) fl

/-- The headers among a list, once each in order, that are selector corruptions (R105). -/
def corruptHeaders (rec : FmtRecord) (hs : List (Nat × Nat)) : List Nat :=
  hs.foldl (fun acc h => if headerCorrupt h.2 rec && !acc.contains h.1 then acc ++ [h.1] else acc) []

/-- The element code in a payload byte: billet-4 takes the nibble of its number (R110). -/
def codeIn (fam : Family) (i byte : Nat) : Nat := if fam = .billet4 then bitsOf byte (4 * (i % 2)) 4 else byte

/-- `vldb` (R160, R161). -/
def execVldb (m : Bool) (r : VRound) (d : VRegNo) (a : Reg) (s : State) : Out :=
  let c := s.ctx.vcfgOf
  let p := s.g a
  s.vecCheck (decide (32 ≤ c.n) && (m || d != 0)) [(d.toNat, c.gm)] (
    if c.vl = 0 then .next (s.finish 4) else
    s.billetPtr p (fun s rec fam =>
      let blen := blenOf (ptrBlc p)
      let pay := fam.payload blen
      let l := ptrAddr p
      if l % pay ≠ 0 then s.trapped (Trap.shape p) else
      let els := s.ctx.activeList m
      let hdr (i : Nat) : Nat := headerOf pay (l + i / blen * pay)
      let byte (i : Nat) : Nat := storeOf pay (l + i / blen * pay + i % blen * fam.codeBits / 8)
      if els.any (fun i => decide (2 ^ 56 ≤ hdr i + 1) || decide (2 ^ 56 ≤ byte i)) then s.trapped (Trap.range p) else
      s.loadRaw (Need.load true) (els.flatMap (fun i => [(hdr i, 2), (byte i, 1)])) none (fun s bss _ =>
        let vs := bss.map fromBytesLE
        let ins := (List.range els.length).map (fun k =>
          { i := els.getD k 0, header := vs.getD (2 * k) 0, code := codeIn fam (els.getD k 0) (vs.getD (2 * k + 1) 0) : BilletIn })
        let good := ins.filter (fun e => (s.badByte (hdr e.i) 2).isNone && (s.badByte (byte e.i) 1).isNone && usesLevels rec e.header)
        s.readLevels fam rec (good.map (fun e => e.code))
          (fun badCode => ins.findSome? (fun e =>
            ((s.badByte (hdr e.i) 2).orElse (fun _ => s.badByte (byte e.i) 1)).orElse (fun _ => badLevel rec [e] badCode)))
          (fun s table =>
            let out := decodeElems c.n (s.roundOf r) fam rec table ins
            s.billetDeliver d (corruptHeaders rec (ins.map (fun e => (hdr e.i, e.header)))) 0 out.1 out.2))))

/-- K of R151: the registers of codes that a billet image has. -/
def imageRegs (fam : Family) (c : VCfg) : Nat := if fam = .billet8 ∧ c.n = 32 ∧ c.gm = 8 then 2 else 1

/-- The checks of `vbdec` that name K and give detail 2 (R151). (DESIGN CHOICE, log 99) -/
def imageOk (c : VCfg) (d a : VRegNo) (k : Nat) : Bool := decide (a.toNat + k ≤ 31) && !overlaps d.toNat c.gm a.toNat (k + 1)

/-- `vbdec` (R151, R152). With VL = 0 every check is made with K = 1 in the order of R61; otherwise those that name K, with `va` itself
among them, follow the record. (DESIGN CHOICE, log 99) -/
def execVbdec (m : Bool) (r : VRound) (d a : VRegNo) (s : State) : Out :=
  let c := s.ctx.vcfgOf
  let p := s.ctx.getOx 0
  let ok := decide (32 ≤ c.n) && (m || d != 0)
  if c.vl = 0 then s.vecCheck (ok && imageOk c d a 1) [(d.toNat, c.gm), (a.toNat + 1, 1)] (.next (s.finish 4)) else
  s.vecCheck ok [(d.toNat, c.gm)] (
    s.billetPtr p (fun s rec fam =>
      let k := imageRegs fam c
      s.vecCheck (imageOk c d a k) [(a.toNat + k, 1)] (
        let blen := blenOf (ptrBlc p)
        let ins := (s.ctx.activeList m).map (fun i =>
          { i := i, header := s.ctx.elem a.toNat (i / blen) 16, code := s.ctx.elem (a.toNat + 1) i fam.codeBits : BilletIn })
        s.readLevels fam rec ((ins.filter (fun e => usesLevels rec e.header)).map (fun e => e.code)) (badLevel rec ins) (fun s table =>
          let out := decodeElems c.n (s.roundOf r) fam rec table ins
          let detail := BitVec.ofNat 64 (2 ^ 63 + a.toNat * 256 + s.ctx.cidx)
          s.billetDeliver d (corruptHeaders rec (ins.map (fun e => (2 * (e.i / blen), e.header)))) detail out.1 out.2))))

/-- The candidate selectors of `vqst` (R162). -/
def qselCands (z : QSel) (rec : FmtRecord) : List Nat :=
  match z with
  | .mask => maskSels rec.mask
  | .forceI => [0]
  | .forceF => [1]
  | .forceM => [2]
  | .forceL => [3]

/-- The stores of some quenched billets in their order, each the storage address and the header halfword, then those of the payload (R162,
R163). Both headers of a pair are written as their one word, so that writing every header of the pair clears its poison (R77, R163). -/
def billetStores (fam : Family) : List (Nat × Nat × Nat × List Nat) → List (Nat × List Byte)
  | [] => []
  | [(ha, h, pa, cs)] => [(ha, bytesLE 2 h), (pa, packCodes fam cs)]
  | (ha, h, pa, cs) :: (ha', h', pa', cs') :: rest =>
    if ha % 4 = 0 ∧ ha' = ha + 2 then
      (ha, bytesLE 2 h ++ bytesLE 2 h') :: (pa, packCodes fam cs) :: (pa', packCodes fam cs') :: billetStores fam rest
    else (ha, bytesLE 2 h) :: (pa, packCodes fam cs) :: billetStores fam ((ha', h', pa', cs') :: rest)

/-- The level table of a quench read for stores to come: the rights of the table and of every stored byte are checked and all fault service
is waited for before poison in the table is looked at (R77, R158, R162). -/
def State.quenchRead (s : State) (need : Need) (fam : Family) (rec : FmtRecord) (cands : List Nat) (ranges : List (Nat × Nat))
    (k : State → List Int → Out) : Out :=
  let codes := quenchCodes fam cands
  let missing := (codes.map (levelAddr rec)).filter (fun a => (s.cachedWord (fmtKey a 2)).isNone)
  s.checked (Need.load false) (missing.map (fun a => (a, 2))) none (fun s =>
    s.checked need ranges none (fun s =>
      s.served true ranges (fun s => s.readLevels fam rec codes (fun bad => codes.findSome? bad) k)))

/-- `vqst` (R162, R163). A storage address out of range, then a refusal of the table and of the stores, then poison in the table: the
lowest CAUSE is taken (R51, R158). -/
def execVqst (z : QSel) (d : VRegNo) (a : Reg) (s : State) : Out :=
  let c := s.ctx.vcfgOf
  let p := s.g a
  s.vecCheck (c.n == 16 || c.n == 32) [(d.toNat, c.gm)] (
    if c.vl = 0 then .next (s.finish 4) else
    if s.ctx.placed ≠ 0 then s.placeFrom s.ctx.unplaced else
    s.billetPtr p (fun s rec fam =>
      let cands := qselCands z rec
      if cands.contains 3 ∧ rec.ltab = 0 then s.trapped (Trap.format p) else
      let blen := blenOf (ptrBlc p)
      let pay := fam.payload blen
      let l := ptrAddr p
      if c.vl % blen ≠ 0 ∨ l % pay ≠ 0 then s.trapped (Trap.shape p) else
      let places := (List.range (c.vl / blen)).map (fun j => (headerOf pay (l + j * pay), storeOf pay (l + j * pay)))
      if places.any (fun x => decide (2 ^ 56 < x.1 + 2) || decide (2 ^ 56 < x.2 + pay)) then s.trapped (Trap.range p) else
      s.quenchRead (Need.store true) fam rec cands (places.flatMap (fun x => [(x.1, 2), (x.2, pay)])) (fun s table =>
        let els := (List.range (c.vl / blen)).map (fun j =>
          let xs := (List.range blen).map (fun i => qinOfFloat (fmtOfWidth c.n) (s.ctx.elem d.toNat (j * blen + i) c.n))
          let q := quench fam rec table cands xs
          (headerOf pay (l + j * pay), q.1, storeOf pay (l + j * pay), q.2.1))
        s.vecStoreRuns (Need.store true) (billetStores fam els))))

end Sys2Proof.Machine
end

