-- ==== Sys2Proof/Machine/Engines.lean ====
section
/-!
DEFINITION. The cluster engine (R277 to R297): the checks at issue, the units of the five operations, completion, and `estat`.
-/

namespace Sys2Proof.Machine

open Sys2Proof

/-- COUNT (R279). -/
def EngOp.count (o : EngOp) : Nat := fieldOf o.ox[0] 0 32
/-- TAG (R279). -/
def EngOp.tag (o : EngOp) : Nat := fieldOf o.ox[0] 48 16
/-- CMODE (R279). -/
def EngOp.cmode (o : EngOp) : Nat := fieldOf o.ox[0] 46 2
/-- CONV (R279). -/
def EngOp.conv (o : EngOp) : Nat := fieldOf o.ox[0] 44 2
/-- CRC (R279). -/
def EngOp.crcOn (o : EngOp) : Bool := o.ox[0].getLsbD 43
/-- SEL (R279). -/
def EngOp.sel (o : EngOp) : Nat := fieldOf o.ox[0] 40 3
/-- RM (R279). -/
def EngOp.rm (o : EngOp) : RMode := rmodeOf (fieldOf o.ox[0] 38 2)
/-- ETYPE (R279). -/
def EngOp.etype (o : EngOp) : Nat := fieldOf o.ox[0] 34 4
/-- SRCW (R279). -/
def EngOp.srcw (o : EngOp) : Bool := o.ox[0].getLsbD 33
/-- SIG (R279). -/
def EngOp.sig (o : EngOp) : Nat := fieldOf o.ox[1] 0 56
/-- IDXB (R280). -/
def EngOp.idxb (o : EngOp) : Nat := fieldOf o.ox[2] 0 56
/-- W (R280). -/
def EngOp.w (o : EngOp) : Int := signExt (fieldOf o.ox[2] 48 16) 16
/-- SRCK (R280). -/
def EngOp.srck (o : EngOp) : Nat := fieldOf o.ox[2] 4 4
/-- OP (R280). -/
def EngOp.op (o : EngOp) : Nat := fieldOf o.ox[2] 0 4
/-- STYPE (R280). -/
def EngOp.stype (o : EngOp) : Nat := fieldOf o.ox[2] 0 4
/-- RPE (R280). -/
def EngOp.rpe (o : EngOp) : Nat := fieldOf o.ox[3] 0 16

/-- Does an operation gather or scatter? -/
def EngOp.indexed (o : EngOp) : Bool := o.kind == .gather || o.kind == .scatter
/-- Is an operation a window sum (R287)? -/
def EngOp.windowSum (o : EngOp) : Bool := o.kind == .reduce && o.op == 3

/-- The float format of a dense type code, if it is a float type (R93). -/
def floatOf (t : Nat) : Option FFmt :=
  match t with
  | 8 => some fmtF16
  | 9 => some fmtBF16
  | 10 => some fmtF32
  | 11 => some fmtF64
  | _ => none

/-- Is a dense type a signed integer type (R93)? -/
def signedType (t : Nat) : Bool := decide (t < 4)

/-- The type of one side of an operation (R281): none known, dense, or billets; or its record cannot be read, with the trap that R99 gives. -/
inductive Side where
  | unknown
  | unread (t : Trap)
  | dense (t : Nat)
  | billet (r : FmtRecord) (f : Family)
deriving DecidableEq, Repr

/-- Is a side billets? -/
def Side.isBillet : Side → Bool
  | .billet _ _ => true
  | _ => false

/-- The record of a side. -/
def Side.record : Side → FmtRecord
  | .billet r _ => r
  | _ => FmtRecord.zero

/-- The trap of a side whose record cannot be read, if it is of this CAUSE. -/
def Side.unreadTrap (x : Side) (cause : Nat) : Option Trap :=
  match x with
  | .unread t => if t.cause = cause then some t else none
  | _ => none

/-- Does a side have a type (R282)? -/
def Side.known : Side → Bool
  | .dense _ => true
  | .billet _ _ => true
  | _ => false

/-- The dense type of a side. -/
def Side.type : Side → Nat
  | .dense t => t
  | _ => 0

/-- The type of a side whose pointer is `p`, `t` being the type of a plain pointer (R281). -/
def State.engSide (s : State) (p : Word) (t : Nat) (k : State → Side → Out) : Out :=
  if 3 < ptrBlc p then k s .unknown
  else if ptrCode p = 0 then k s (.dense t)
  else
    s.tryTable (s.core.recordAddr (ptrCode p)) 4 (fun s t => k s (.unread t)) (fun s ws =>
      let r : FmtRecord := { dw0 := ws.getD 0 0, dw1 := ws.getD 1 0, dw2 := ws.getD 2 0, dw3 := ws.getD 3 0 }
      k s (match r.family with
        | some .dense => .dense r.etype
        | some f => .billet r f
        | none => .unknown))

/-- Does an operation round, so that RM is a field it uses (R279)? An `ereduce` add of integers does not; a tagged destination's type is
looked at once its record is read. (DEDUCED, log 34) -/
def EngOp.rounds (o : EngOp) : Bool :=
  o.kind == .conv || (o.kind == .copy && decide (2 ≤ o.conv))
    || (o.kind == .reduce && o.op == 0 && (ptrCode o.dst != 0 || (floatOf o.etype).isSome))

/-- Must the type of the destination's record be known before row 1 of R282 can be decided: RM of a tagged `ereduce` add? -/
def EngOp.lateRm (o : EngOp) : Bool := o.kind == .reduce && o.op == 0 && fieldOf o.ox[0] 38 2 != 0 && ptrCode o.dst != 0

/-- Row 1 of R282: reserved and unused fields are zero. -/
def EngOp.reservedOk (o : EngOp) : Bool :=
  !o.ox[0].getLsbD 32 && fieldOf o.ox[1] 56 8 == 0 && (o.sel == 0 || o.conv == 1)
  && (!o.srcw || o.kind == .conv) && (fieldOf o.ox[0] 38 2 == 0 || o.rounds)
  && (match o.kind with
    | .copy => true
    | .gather => fieldOf o.ox[2] 56 8 == 0
    | .scatter => fieldOf o.ox[2] 56 8 == 0
    | .reduce => fieldOf o.ox[2] 8 40 == 0 && fieldOf o.ox[3] 16 48 == 0 && (o.op == 3 || (fieldOf o.ox[2] 48 16 == 0 && o.srck == 0))
        && (o.srck == 1 || o.rpe == 0)
    | .conv => fieldOf o.ox[2] 4 44 == 0 && (o.srcw || fieldOf o.ox[2] 48 16 == 0))

/-- Does a plain pointer of the operation take its type from ETYPE (R281)? -/
def EngOp.usesEtype (o : EngOp) : Bool :=
  ptrCode o.dst == 0 || (ptrCode o.src == 0 && o.kind != .conv && o.conv != 1)

/-- Row 2 of R282 but for the type combination. -/
def EngOp.fieldsOk (o : EngOp) : Bool :=
  o.cmode != 0 && o.conv != 3 && (o.sel == 0 || decide (4 ≤ o.sel)) && (o.conv == 0 || o.kind == .copy)
  && (!o.crcOn || (o.kind == .copy && o.conv != 1)) && (o.cmode != 1 || o.sig == 0) && (o.cmode == 1 || o.sig % 8 == 0)
  && (!o.indexed || o.idxb % 4 == 0)
  && (o.kind != .reduce || (decide (o.op ≤ 3) && decide (o.srck ≤ 1) && (o.srck != 1 || o.rpe != 0)))
  && (o.etype == 0 || o.usesEtype) && (o.kind != .conv || !(o.srcw || ptrCode o.src != 0) || o.stype == 0)
  && (!o.windowSum || (ptrAddr o.dst % 32 == 0 && ptrAddr o.src % (if o.srck = 0 then 32 else 8) == 0))
  && (!o.srcw || ptrAddr o.src % 32 == 0)

/-- Does the operation's rule allow billets on its destination? -/
def EngOp.billetDst (o : EngOp) : Bool := o.kind == .copy && o.conv == 1
/-- Does the operation's rule allow billets on its source? -/
def EngOp.billetSrc (o : EngOp) : Bool := o.kind == .copy && o.conv == 2

/-- A type that a quench reads or a decode writes (R284). -/
def quenchType (t : Nat) : Bool := t == 8 || t == 9 || t == 10

/-- The type combination of an operation (R283 to R290). -/
def EngOp.typesOk (o : EngOp) (d s : Side) : Bool :=
  if o.billetDst then d.isBillet && !s.isBillet && quenchType s.type
  else if o.billetSrc then s.isBillet && !d.isBillet && quenchType d.type
  else if o.kind = .conv then (floatOf d.type).isSome && (if o.srcw then ptrCode o.src == 0 else (floatOf s.type).isSome)
  else if o.windowSum then ptrCode o.dst == 0 && ptrCode o.src == 0 && o.etype == 0
  else d.type == s.type && decide (d.type ≤ 11) && !(o.kind == .reduce && o.op == 0 && d.type == 8)

/-- The selector candidates of a quench (R284). -/
def EngOp.cands (o : EngOp) : List Nat := if o.sel = 0 then maskSels o.recD.mask else [o.sel - 4]

/-- The family of the billets of an operation. -/
def EngOp.fam (o : EngOp) : Family := ((if o.billetDst then o.recD else o.recS).family).getD .billet8
/-- The elements of a billet of the operation. -/
def EngOp.blen (o : EngOp) : Nat := blenOf (ptrBlc (if o.billetDst then o.dst else o.src))
/-- The payload bytes of a billet of the operation. -/
def EngOp.payload (o : EngOp) : Nat := o.fam.payload o.blen

/-- The bytes of a destination element. -/
def EngOp.dstBytes (o : EngOp) : Nat := if o.windowSum then 32 else etypeBytes o.typeD
/-- The bytes of a source element; for partial records those of one destination element. -/
def EngOp.srcBytes (o : EngOp) : Nat :=
  if o.windowSum then (if o.srck = 0 then 32 else 16 * o.rpe) else if o.kind = .conv && o.srcw then 32 else etypeBytes o.typeS

/-- The storage bytes from the first billet's group offset to the end of the last one, as an end address (R113). -/
def billetEnd (p l n : Nat) : Nat := if n = 0 then 0 else storeOf p (l + n * p - 1) + 1

/-- The address of the CRC doubleword (R285). -/
def EngOp.crcAddr (o : EngOp) : Nat := (ptrAddr o.dst + o.count * o.dstBytes + 7) / 8 * 8

/-- The contiguous ranges of an operation: the pointer to report, the first address, and the end address (R282). (DEDUCED, log 34) -/
def EngOp.ranges (o : EngOp) : List (Word × Nat × Nat) :=
  let n := o.count
  let d := ptrAddr o.dst
  let s := ptrAddr o.src
  if n = 0 then [] else
  (if o.kind = .scatter then [] else
    [if o.billetDst then (o.dst, headerOf o.payload d, billetEnd o.payload d ((n + o.blen - 1) / o.blen))
     else (o.dst, d, d + n * o.dstBytes)])
  ++ (if o.kind = .gather then [] else
    [if o.billetSrc then (o.src, headerOf o.payload s, billetEnd o.payload s ((n + o.blen - 1) / o.blen))
     else (o.src, s, s + n * o.srcBytes)])
  ++ (if o.indexed then [(o.ox[2], o.idxb, o.idxb + 4 * n)] else [])
  ++ (if o.crcOn then [(o.dst, o.crcAddr, o.crcAddr + 8)] else [])

/-- Does a range from `a` to the end address `b` touch core-local space without lying wholly within the scratchpad (R282)? -/
def leavesSpad (a b : Nat) : Bool :=
  decide (0xFF * 2 ^ 48 < b) && (decide (a < 0xFF * 2 ^ 48) || decide (0xFF * 2 ^ 48 + 0x80000 < b))

/-- Rows 3 to 6 of R282 and the traps of records that cannot be read (R99), lowest CAUSE first (R51). The ranges of a side without a type
are not known. -/
def EngOp.lateTrap (o : EngOp) (d s : Side) : Option Trap :=
  let badD := d == .unknown || (d.isBillet && !o.billetDst) || (d.isBillet && o.billetDst && o.cands.contains 3 && o.recD.ltab == 0)
  let badS := s == .unknown || (s.isBillet && !o.billetSrc)
  let ranges := o.ranges.filter (fun r => (d.known || r.1 != o.dst) && (s.known || r.1 != o.src))
  if badD then some (Trap.format o.dst)
  else if badS then some (Trap.format o.src)
  else
    match ranges.find? (fun r => decide (2 ^ 56 < r.2.2)) with
    | some r => some (Trap.range r.1)
    | none =>
      match (d.unreadTrap 4).orElse (fun _ => s.unreadTrap 4), ranges.find? (fun r => leavesSpad r.2.1 r.2.2) with
      | some t, _ => some t
      | none, some r => some { Trap.protection 0 with addr := r.1 }
      | none, none =>
        if o.cmode ≠ 1 ∧ topByte o.sig = 0xFF then some (Trap.protection o.sig)
        else
        match (d.unreadTrap 5).orElse (fun _ => s.unreadTrap 5) with
        | some t => some t
        | none =>
        if o.billetDst && (o.count % o.blen != 0 || ptrAddr o.dst % o.payload != 0) then some (Trap.shape o.dst)
        else if o.billetSrc && (o.count % o.blen != 0 || ptrAddr o.src % o.payload != 0) then some (Trap.shape o.src)
        else none

/-- An operation started: it counts among the core's eight until it completes (R277). (DEDUCED, log 34) -/
def State.engStart (s : State) (o : EngOp) : Out :=
  let id := s.core.opNext
  let s1 := s.mapCore (fun c => { c with ops := c.ops ++ [{ o with id := id }], opNext := id + 1 })
  .next ((s1.post .engineUnit { Ev.ofCtx s.focus s.curCtx with unit := id }).finish 4)

/-- The checks of an engine instruction and its start (R282). (DEDUCED, log 34) -/
def State.engIssue (s : State) (kind : EngKind) (a b : Reg) : Out :=
  if 8 ≤ s.core.ops.length then .next (s.wait .busy) else
  let x := s.ctx
  let o2 : Word := if kind = .copy then 0 else x.ox[2]
  let o3 : Word := if kind = .copy ∨ kind = .conv then 0 else x.ox[3]
  let o : EngOp := {
    id := 0, kind := kind, ctx := s.curCtx, dst := s.g a, src := s.g b, svc := x.priv == 2
    ox := #v[x.ox[0], x.ox[1], o2, o3], recD := FmtRecord.zero, recS := FmtRecord.zero, typeD := 0, typeS := 0, levels := []
    done := 0, phase := 0, crc := 0, crcBack := 0, flags := 0, err := 0, errDw := 0 }
  if !o.reservedOk then s.trapped (Trap.illegal 1)
  else if !o.lateRm && !o.fieldsOk then s.trapped (Trap.illegal 2)
  else
    s.engSide o.dst o.etype (fun s d =>
      if o.lateRm && d.known && !d.isBillet && (floatOf d.type).isNone then s.trapped (Trap.illegal 1)
      else if !o.fieldsOk then s.trapped (Trap.illegal 2)
      else
      let plainS := if kind = .conv then o.stype else if o.conv = 1 && d.isBillet then d.record.etype else o.etype
      s.engSide o.src plainS (fun s r =>
        let o1 := { o with recD := d.record, recS := r.record, typeD := d.type, typeS := r.type }
        let known := d.known && r.known && (o.conv != 0 || (!d.isBillet && !r.isBillet))
        if known && !o1.typesOk d r then s.trapped (Trap.illegal 2)
        else
          match o1.lateTrap d r with
          | some t => s.trapped t
          | none => s.engStart o1))

/-- `ecopy` (R283, R284). -/
def execEcopy (a b : Reg) (s : State) : Out := s.engIssue .copy a b
/-- `egather` (R286). -/
def execEgather (a b : Reg) (s : State) : Out := s.engIssue .gather a b
/-- `escatter` (R286). -/
def execEscatter (a b : Reg) (s : State) : Out := s.engIssue .scatter a b
/-- `ereduce` (R287). -/
def execEreduce (a b : Reg) (s : State) : Out := s.engIssue .reduce a b
/-- `econv` (R290). -/
def execEconv (a b : Reg) (s : State) : Out := s.engIssue .conv a b

/-- `estat` (R294). -/
def execEstat (d : Reg) (s : State) : Out :=
  let c := s.core
  let v := c.opLerr % 256 * 2 ^ 40 + c.opLtag % 65536 * 65536 + (if c.opLv then 256 else 0) + c.ops.length % 16
  .next ((s.setG d (BitVec.ofNat 64 v)).finish 4)

/-- The destination lines of a contiguous destination of `n` bytes, counted as units. (DESIGN CHOICE, log 35) -/
def lineUnits (a n : Nat) : Nat := if n = 0 then 0 else (a + n - 1) / 64 + 1 - a / 64

/-- The units of an operation (R277). (DESIGN CHOICE, log 35) -/
def EngOp.units (o : EngOp) : Nat :=
  match o.kind with
  | .copy => if o.conv = 0 then lineUnits (ptrAddr o.dst) (o.count * o.dstBytes) else o.count / o.blen
  | .gather => o.count
  | .scatter => o.count
  | .reduce => o.count
  | .conv => lineUnits (ptrAddr o.dst) (o.count * o.dstBytes)

/-- The destination bytes of a unit of a dense `ecopy` or of `econv`, as address and length. (DESIGN CHOICE, log 35) -/
def EngOp.copyRange (o : EngOp) (u : Nat) : Nat × Nat :=
  let d := ptrAddr o.dst
  if o.conv = 0 then
    let lo := max d ((d / 64 + u) * 64)
    (lo, min (d + o.count * o.dstBytes) ((d / 64 + u + 1) * 64) - lo)
  else (d + u * o.blen * o.dstBytes, o.blen * o.dstBytes)

/-- One bit of the CRC-64 of R285. -/
def crcBit (c : Word) : Word := if c.getLsbD 63 then (c <<< 1) ^^^ 0x42F0E1EBA9EA3693 else c <<< 1

/-- One byte taken into the CRC-64 of R285. -/
def crcByte (c : Word) (b : Byte) : Word :=
  (List.range 8).foldl (fun c _ => crcBit c) (c ^^^ (b.setWidth 64 <<< 56))

/-- Bytes taken into the CRC-64 of R285: polynomial 0x42F0E1EBA9EA3693, initial value 0, no reflection, no final XOR. -/
def crc64 (c : Word) (bs : List Byte) : Word := bs.foldl crcByte c

/-- Two dense elements combined by `ereduce` OP 0 to 2 (R287). -/
def combineElem (t op : Nat) (mode : RMode) (x y : Nat) : Nat × Flags :=
  let w := 8 * etypeBytes t
  match floatOf t with
  | some f => if op = 0 then fAdd f mode x y else fMinMax f (op == 2) x y
  | none =>
    if op = 0 then ((x + y) % 2 ^ w, 0)
    else if signedType t then (amoNew (if op = 1 then 1 else 2) w x y, 0)
    else (amoNew (if op = 1 then 3 else 4) w x y, 0)

/-- A partial record (R288): its contribution at W, its poison bit, and whether its reserved bits are wrong. (DEDUCED, log 84) -/
def recordPart (w : Int) (bs : List Byte) : Int × Bool × Bool :=
  let p : Word := BitVec.ofNat 64 (fromBytesLE (bs.take 8))
  let q := fromBytesLE ((bs.drop 8).take 8)
  let bad := bitsOf q 16 47 != 0
  (if bad then 0 else contribution p.toInt (signExt q 16) w, bad || bitOf q 63, bad)

/-- An engine operation as the agent of its core (R295, R310 code 4). -/
def State.engAgent (s : State) (n : Nat) (o : EngOp) (row : Instr) : Agent :=
  { core := n, die := dieOfCore n, dom := (s.coreAt n).domain, kind := 4, ctx := o.ctx, svc := o.svc, row := row
    ev := { Ev.ofCtx n o.ctx with unit := o.id } }

/-- An operation replaced among a core's. -/
def State.putOp (s : State) (n : Nat) (o : EngOp) : State :=
  s.onCore n (fun c => { c with ops := c.ops.map (fun x => if x.id = o.id then o else x) })

/-- A unit of an operation is applied; the next one is due, or the operation completes. -/
def State.engNext (s : State) (n : Nat) (o : EngOp) : Out :=
  let s1 := ((s.putOp n o).dropRemote n)
  let more := decide (o.done < o.units + (if o.crcOn then o.units else 0))
  let e := { Ev.ofCtx n o.ctx with unit := o.id }
  .next (if more then s1.retryLater .engineUnit e else s1.post .engineCompletion e)

/-- An error stops an operation at the unit that meets it; it is logged (R292). -/
def State.engError (s : State) (n : Nat) (o : EngOp) (err : Nat) (dw : Word) (cls addr : Nat) : Out :=
  .next ((((s.putOp n { o with err := err, errDw := dw }).dropRemote n).logEngine n cls addr (BitVec.ofNat 64 err)).post .engineCompletion
    { Ev.ofCtx n o.ctx with unit := o.id })

/-- The ERR of a failed access and the address it reports: 1 and the refused address, or 3 and the address of the word (R292). -/
def engErrOf : AgentErr → Nat × Nat
  | .refused a => (1, a)
  | e => (3, e.addr / 4 * 4)

/-- A failed access stops an operation (R292). -/
def State.engFail (s : State) (n : Nat) (o : EngOp) (e : AgentErr) : Out :=
  s.engError n o (engErrOf e).1 (BitVec.ofNat 64 (engErrOf e).2) e.cls (engErrOf e).2

/-- Runs read by an operation after their rights are checked; poisoned data stops it with ERR 3. -/
def State.engReads (s : State) (n : Nat) (o : EngOp) (ag : Agent) (need : Need) (runs : List (Nat × Nat))
    (k : State → List (List Byte) → Out) : Out :=
  s.agentAllowed ag need runs (fun s a => s.engFail n o (.refused a)) (fun s =>
    s.agentReads ag (fun s e => s.engFail n o e) (fun s rs =>
      match rs.findSome? (fun r => r.2.head?) with
      | some a => s.engFail n o (.poison a)
      | none => k s (rs.map (fun r => r.1))) runs [])

/-- Runs written by an operation, and its unit done. `clean` is a word that this unit and the last one have written in parts, all of it. -/
def State.engWrites (s : State) (n : Nat) (o : EngOp) (ag : Agent) (runs : List (Nat × List Byte)) (clean : Option Nat) (o1 : EngOp) : Out :=
  s.agentAllowed ag (Need.store (ptrCode o.dst ≠ 0)) (runs.map (fun r => (r.1, r.2.length))) (fun s a => s.engFail n o (.refused a)) (fun s =>
    s.agentWrites ag runs (fun s e => s.engFail n o e) (fun s =>
      let s1 := match clean with
        | some a => s.agentClean ag a
        | none => s
      s1.engNext n { o1 with done := o.done + 1 }))

/-- Level-table entries of an operation's billets: each is read once and kept for the whole operation (R164, R284). -/
def State.engLevels (s : State) (n : Nat) (o : EngOp) (ag : Agent) (codes : List Nat) (k : State → EngOp → List Int → Out) : Out :=
  let rec' := if o.billetDst then o.recD else o.recS
  let new := codes.filter (fun c => (tabFind o.levels c).isNone)
  s.agentWords ag 2 (fun s e => s.engFail n o e) (fun s ws =>
    let lv := (new.zip ws).foldl (fun t p => tabPut t p.1 (levelOf p.2)) o.levels
    k s { o with levels := lv } (if codes.isEmpty then [] else (List.range (2 ^ o.fam.codeBits)).map (fun c => (tabFind lv c).getD 0)))
    (new.map (levelAddr rec')) []

/-- The right that a source needs. -/
def EngOp.needSrc (o : EngOp) : Need := Need.load (ptrCode o.src ≠ 0)

/-- A unit of a dense `ecopy` (R283). -/
def State.unitCopy (s : State) (n : Nat) (o : EngOp) (ag : Agent) (u : Nat) : Out :=
  let r := o.copyRange u
  s.engReads n o ag o.needSrc [(ptrAddr o.src + (r.1 - ptrAddr o.dst), r.2)] (fun s bss =>
    let bs := bss.headD []
    s.engWrites n o ag [(r.1, bs)] none { o with crc := if o.crcOn then crc64 o.crc bs else o.crc })

/-- A billet quenched by `ecopy` (R284). The second header of a pair that the operation has written clears the pair's poison (R163). -/
def State.unitQuench (s : State) (n : Nat) (o : EngOp) (ag : Agent) (u : Nat) : Out :=
  let w := o.srcBytes
  s.engReads n o ag o.needSrc [(ptrAddr o.src + u * o.blen * w, o.blen * w)] (fun s bss =>
    let f := (floatOf o.typeS).getD fmtF32
    let xs := (chunks (8 * w) o.blen (fromBytesLE (bss.headD []))).map (qinOfFloat f)
    s.engLevels n o ag (quenchCodes o.fam o.cands) (fun s o table =>
      let q := quench o.fam o.recD table o.cands xs
      let l := ptrAddr o.dst + u * o.payload
      let hd := headerOf o.payload l
      s.engWrites n o ag (billetStores o.fam [(hd, q.1, storeOf o.payload l, q.2.1)])
        (if u ≠ 0 ∧ hd % 4 = 2 ∧ headerOf o.payload (l - o.payload) + 2 = hd then some (hd - 2) else none)
        { o with flags := o.flags ||| q.2.2 }))

/-- A billet decoded by `ecopy` (R284); corruption that was met sets BFLT at the completion whether or not the billet's elements could be
written (R105). -/
def State.unitDecode (s : State) (n : Nat) (o : EngOp) (ag : Agent) (u : Nat) : Out :=
  let l := ptrAddr o.src + u * o.payload
  let hd := headerOf o.payload l
  s.engReads n o ag o.needSrc [(hd, 2), (storeOf o.payload l, o.payload)] (fun s bss =>
    let h := fromBytesLE (bss.headD [])
    let f := (floatOf o.typeD).getD fmtF32
    let codes := chunks o.fam.codeBits o.blen (fromBytesLE (bss.getD 1 []))
    s.engLevels n o ag (if usesLevels o.recS h then codes.foldl (fun acc c => insertNat c acc) [] else []) (fun s o table =>
      let rs := codes.map (fun c =>
        match billetDecode o.fam h c o.recS table with
        | none => (f.nan, (0 : Flags))
        | some (q, x) => f.roundInt o.rm q x)
      let corrupt := headerCorrupt h o.recS
      let s1 := if corrupt then s.logEngine n 0x03 hd 0 else s
      let bs := bytesLE (o.blen * o.dstBytes) (joinChunks (8 * o.dstBytes) (rs.map (fun r => r.1)))
      let met := if corrupt then o.flags ||| flagBFLT else o.flags
      let fl := rs.foldl (fun a r => a ||| r.2) met
      s1.engWrites n { o with flags := met } ag [((o.copyRange u).1, bs)] none
        { o with flags := fl, crc := if o.crcOn then crc64 o.crc bs else o.crc }))

/-- An element of `egather` or `escatter` (R286). -/
def State.unitIndexed (s : State) (n : Nat) (o : EngOp) (ag : Agent) (u : Nat) : Out :=
  let w := o.dstBytes
  s.engReads n o ag (Need.load false) [(o.idxb + 4 * u, 4)] (fun s bss =>
    let j := BitVec.ofNat 64 (fromBytesLE (bss.headD []))
    let far (base : Word) : Word := BitVec.ofNat 64 (ptrAddr base) + j * o.ox[3]
    let a := far (if o.kind = .gather then o.src else o.dst)
    if a.toInt < 0 ∨ (2 : Int) ^ 56 - w < a.toInt then s.engError n o 2 a 0x07 (fieldOf a 0 56)
    else
      let sa := if o.kind = .gather then a.toNat else ptrAddr o.src + u * w
      let da := if o.kind = .gather then ptrAddr o.dst + u * w else a.toNat
      s.engReads n o ag o.needSrc [(sa, w)] (fun s bss => s.engWrites n o ag [(da, bss.headD [])] none o))

/-- An element of `ereduce` OP 0 to 2 (R287). (DEDUCED, log 34) -/
def State.unitReduce (s : State) (n : Nat) (o : EngOp) (ag : Agent) (u : Nat) : Out :=
  let w := o.dstBytes
  let da := ptrAddr o.dst + u * w
  s.engReads n o ag o.needSrc [(ptrAddr o.src + u * w, w)] (fun s src =>
    s.engReads n o ag (Need.store (ptrCode o.dst ≠ 0)) [(da, w)] (fun s dst =>
      let r := combineElem o.typeD o.op o.rm (fromBytesLE (dst.headD [])) (fromBytesLE (src.headD []))
      s.engWrites n o ag [(da, bytesLE w r.1)] none { o with flags := o.flags ||| r.2 }))

/-- An element of a window sum (R287 to R289): poisoned words set the element's poison bit. (DEDUCED, log 84) -/
def State.unitWindow (s : State) (n : Nat) (o : EngOp) (ag : Agent) (u : Nat) : Out :=
  let da := ptrAddr o.dst + u * 32
  let sa := ptrAddr o.src + u * o.srcBytes
  let refuse (s : State) (a : Nat) : Out := s.engFail n o (.refused a)
  s.agentAllowed ag o.needSrc [(sa, o.srcBytes)] refuse (fun s => s.agentAllowed ag (Need.store false) [(da, 32)] refuse (fun s =>
    s.agentReads ag (fun s e => s.engFail n o e) (fun s rs =>
      let img := (rs.getD 0 ([], [])).1
      let src := (rs.getD 1 ([], [])).1
      let bads := rs.flatMap (fun r => r.2)
      let s1 := bads.foldl (fun a x => a.logEngine n 0x02 x 0) s
      let acc := winOfImage img
      let acc := { acc with poison := acc.poison || !bads.isEmpty }
      if o.srck = 0 then
        let y := winOfImage src
        s1.engWrites n o ag [(da, (windowAdd acc y.a.toInt y.poison).image)] none o
      else
        let parts := (List.range o.rpe).map (fun k => recordPart o.w ((src.drop (16 * k)).take 16))
        let s2 := (List.range o.rpe).foldl (fun a k => if (parts.getD k (0, false, false)).2.2 then a.logEngine n 0x07 (sa + 16 * k) 0 else a) s1
        s2.engWrites n o ag [(da, (parts.foldl (fun a p => windowAdd a p.1 p.2.1) acc).image)] none o) [(da, 32), (sa, o.srcBytes)] []))

/-- A destination line of `econv` (R277, R290): the bytes in it of the elements that touch it. -/
def State.unitConv (s : State) (n : Nat) (o : EngOp) (ag : Agent) (u : Nat) : Out :=
  let w := o.dstBytes
  let d := ptrAddr o.dst
  let r := o.copyRange u
  let first := (r.1 - d) / w
  let last := (r.1 - d + r.2 + w - 1) / w
  let sw := o.srcBytes
  s.engReads n o ag o.needSrc [(ptrAddr o.src + first * sw, (last - first) * sw)] (fun s bss =>
    let bs := bss.headD []
    let f := (floatOf o.typeD).getD fmtF32
    let g := (floatOf o.typeS).getD fmtF32
    let rs := (List.range (last - first)).map (fun i =>
      let e := (bs.drop (i * sw)).take sw
      if o.srcw then windowOut f o.rm (winOfImage e) o.w else fToF g f o.rm (fromBytesLE e))
    s.engWrites n o ag [(r.1, ((rs.flatMap (fun x => bytesLE w x.1)).drop (r.1 - d - first * w)).take r.2)] none
      { o with flags := rs.foldl (fun a r => a ||| r.2) o.flags })

/-- The read-back of a unit's destination bytes (R285). -/
def State.unitBack (s : State) (n : Nat) (o : EngOp) (ag : Agent) (u : Nat) : Out :=
  let r := o.copyRange u
  s.agentRead ag r.1 r.2 (fun s e => s.engFail n o e) (fun s bs bad =>
    match bad with
    | a :: _ => s.engFail n o (.poison a)
    | [] => s.engNext n { o with done := o.done + 1, crcBack := crc64 o.crcBack bs })

/-- The operation of a core with a number. -/
def Core.findOp (c : Core) (id : Nat) : Option EngOp := c.ops.find? (fun o => o.id == id)

/-- ENGINE_UNIT (R277): one unit of an operation is applied at its homes, whole or not at all. (DESIGN CHOICE, log 35) -/
def execEngineUnit (s : State) : Out :=
  let n := s.ev.core
  match (s.coreAt n).findOp s.ev.unit with
  | none => .next s
  | some o =>
    let ag := s.engAgent n o .engineUnit
    if o.err ≠ 0 ∨ o.units + (if o.crcOn then o.units else 0) ≤ o.done then .next (s.post .engineCompletion ag.ev)
    else if o.units ≤ o.done then
      (if (s.coreAt n).hostWrites.isEmpty then s.unitBack n o ag (o.done - o.units) else .next (s.retryLater .engineUnit ag.ev))
    else
      match o.kind with
      | .copy => if o.conv = 0 then s.unitCopy n o ag o.done else if o.conv = 1 then s.unitQuench n o ag o.done else s.unitDecode n o ag o.done
      | .gather => s.unitIndexed n o ag o.done
      | .scatter => s.unitIndexed n o ag o.done
      | .reduce => if o.op = 3 then s.unitWindow n o ag o.done else s.unitReduce n o ag o.done
      | .conv => s.unitConv n o ag o.done

/-- The CRC doubleword of a finished operation (R285): written when the read-back agrees, or ERR 4. -/
def State.engCrc (s : State) (n : Nat) (o : EngOp) (ag : Agent) (k : State → EngOp → Out) : Out :=
  let fail (s : State) (e : AgentErr) : Out :=
    let r := engErrOf e
    k (s.logEngine n e.cls r.2 (BitVec.ofNat 64 r.1)) { o with err := r.1, errDw := BitVec.ofNat 64 r.2 }
  if o.err ≠ 0 ∨ !o.crcOn ∨ o.count = 0 then k s o
  else if o.crc ≠ o.crcBack then k (s.logEngine n 0x02 (ptrAddr o.dst) 4) { o with err := 4, errDw := o.crc }
  else
    s.agentAllowed ag (Need.store (ptrCode o.dst ≠ 0)) [(o.crcAddr, 8)] (fun s a => fail s (.refused a)) (fun s =>
      s.agentWrites ag [(o.crcAddr, bytesLE 8 o.crc.toNat)] fail (fun s => k s o))

/-- The decrement of a completion signal (R293); a failure is ERR 5, which does not replace an earlier error. -/
def State.engSignal (s : State) (n : Nat) (o : EngOp) (ag : Agent) (k : State → EngOp → Out) : Out :=
  if o.cmode = 1 then k s o
  else
    s.agentDecrement { ag with ev := { ag.ev with val := BitVec.ofNat 64 o.err } } o.sig 1 o.id (fun s e =>
      k (s.logEngine n e.cls o.sig 5) (if o.err = 0 then { o with err := 5, errDw := BitVec.ofNat 64 o.sig } else o)) (fun s => k s o)

/-- The completion entry of an operation (R291). -/
def EngOp.entry (o : EngOp) : Word × Word :=
  let low := o.err % 16 * 2 ^ 48 + o.tag * 2 ^ 32 + min o.done o.units % 2 ^ 32
  (inboxDw0 0x13 (if o.err = 0 then 0 else 1) low, if o.err ≠ 0 then o.errDw else if o.crcOn then o.crc else 0)

/-- The end of an operation (R291, R294): its flags, its inbox entry, and its place is free. -/
def State.engEnd (s : State) (n : Nat) (o : EngOp) : State :=
  let s1 := s.flagOf n ((s.coreAt n).inboxCtx o.ctx) o.flags
  let s2 := if o.cmode = 2 then s1 else s1.postInbox n o.ctx 0x1300 o.entry.1 o.entry.2
  (s2.onCore n (fun c =>
    { c with
      ops := c.ops.filter (fun x => x.id != o.id)
      opLerr := if o.err = 0 then c.opLerr else o.err
      opLv := true
      opLtag := o.tag })).wakeBusy n

/-- An operation kept as far as its completion has come while host memory has still to acknowledge a write of its core, or `k`. -/
def State.engAcked (s : State) (n : Nat) (o : EngOp) (k : State → Out) : Out :=
  if (s.coreAt n).hostWrites.isEmpty then k s
  else .next ((s.putOp n o).retryLater .engineCompletion { Ev.ofCtx n o.ctx with unit := o.id })

/-- ENGINE_COMPLETION (R291 to R294): the CRC doubleword, then once every write is performed the signal's decrement, then the flags and
the inbox entry, which a refused decrement of a pinned page's signal precedes. -/
def execEngineCompletion (s : State) : Out :=
  let n := s.ev.core
  match (s.coreAt n).findOp s.ev.unit with
  | none => .next s
  | some o =>
    let ag := s.engAgent n o .engineCompletion
    let last (s : State) (o : EngOp) : Out := s.engAcked n o (fun s => .next (s.engEnd n o))
    let signal (s : State) (o : EngOp) : Out :=
      s.engAcked n o (fun s => s.engSignal n o ag (fun s o1 => last s { o1 with phase := 2 }))
    if o.phase = 0 then s.engCrc n o ag (fun s o1 => signal s { o1 with phase := 1 })
    else if o.phase = 1 then signal s o
    else last s o

end Sys2Proof.Machine
end

