-- ==== Sys2Proof/Machine/Matrix.lean ====
section
/-!
DEFINITION. The matrix unit (R199 to R231): the queue, the rings, the checks at a command's start, the units of the commands,
the broadcast bus and retirement.
-/

namespace Sys2Proof.Machine

open Sys2Proof

/-- OPC of a command image (R209). -/
def MxCmd.opc (h : MxCmd) : Nat := fieldOf (h.image.getD 0 0) 56 8
/-- TAG of a command image (R209). -/
def MxCmd.tag (h : MxCmd) : Nat := fieldOf (h.image.getD 0 0) 40 16
/-- ACC of a command image (R209). -/
def MxCmd.acc (h : MxCmd) : Nat := fieldOf (h.image.getD 0 0) 38 2
/-- A field of doubleword 0 (R209). -/
def MxCmd.f0 (h : MxCmd) (lo n : Nat) : Nat := fieldOf (h.image.getD 0 0) lo n
/-- A doubleword of a command image. -/
def MxCmd.dw (h : MxCmd) (i : Nat) : Word := h.image.getD i 0
/-- K of `mma` and `mmab` (R209). -/
def MxCmd.k (h : MxCmd) : Nat := h.f0 24 8
/-- BUS (R209). -/
def MxCmd.bus (h : MxCmd) : Bool := h.opc == 2 && bitOf (h.image.getD 0 0).toNat 23
/-- BCAST (R209). -/
def MxCmd.bcast (h : MxCmd) : Bool := h.opc == 2 && bitOf (h.image.getD 0 0).toNat 22
/-- RA (R209). -/
def MxCmd.ra (h : MxCmd) : Nat := h.f0 16 3
/-- RB (R209). -/
def MxCmd.rb (h : MxCmd) : Nat := h.f0 12 3
/-- The signed STRIDE of a command (R213). -/
def MxCmd.stride (h : MxCmd) : Int := (h.dw 3).toInt
/-- TRANS (R209). -/
def MxCmd.trans (h : MxCmd) : Bool := (h.dw 4).getLsbD 0

/-- Does a command take an operand from a ring, or fill one? -/
def MxCmd.names (h : MxCmd) (r : Nat) : Bool :=
  (h.opc == 2 && (h.ra == r || (!h.bus && h.rb == r))) || ((h.opc == 3 || h.opc == 4) && h.ra == r)

/-- The row of a command code (R209); an unassigned code goes to its retirement. -/
def mxRow (opc : Nat) : Instr :=
  match opc with
  | 1 => .mzero
  | 2 => .mma
  | 3 => .mmab
  | 4 => .mrload
  | 5 => .mqst
  | 6 => .mcvt
  | 7 => .mstw
  | 8 => .mldw
  | 9 => .mspec
  | 10 => .mcommit
  | 11 => .mdiscard
  | 12 => .mfence
  | 13 => .msignal
  | _ => .matrixCommandRetire

/-- The bits of doublewords 0 to 4 that are not reserved in an image of a code (R209); descriptor bits [3:0] are (R212). -/
def mxMasks (opc : Nat) : List Nat :=
  let names := 0xFFFFFFC000000000
  let plain := 0xFFFFFF0000000000
  let all := 2 ^ 64 - 1
  match opc with
  | 1 => [names + 0xFFFF, 0, 0, 0, 0]
  | 2 => [names + 0xFFF77000, 0xFFF0FFF000000000, 0, 0, 0]
  | 3 => [names + 0xFF270000, 0xFFF0FFF000000000, all, all, 1]
  | 4 => [plain + 0x70000, 0xFFF0000000000000, all, all, 1]
  | 5 => [names + 7, 0, all, all, 0]
  | 6 => [names + 0xF8000000, 0, all, all, 0]
  | 7 => [names, 0, all, 0, 0]
  | 8 => [names + 0xFFFF, 0, all, 0, 0]
  | 12 => [plain, 0, 0, 0, 0]
  | 13 => [plain + 3, all, all, 0, 0]
  | _ => [names, 0, 0, 0, 0]

/-- Is a reserved bit of an image set (ERR 2)? -/
def MxCmd.reservedSet (h : MxCmd) : Bool :=
  (List.range 8).any (fun i => (h.dw i).toNat &&& ((2 ^ 64 - 1) ^^^ (mxMasks h.opc).getD i 0) != 0)

/-- The matrix unit of a core changed. -/
def State.onMx (s : State) (n : Nat) (f : Matrix → Matrix) : State := s.onCore n (fun c => { c with mx := f c.mx })

/-- A ring of a matrix unit. -/
def Matrix.ring (m : Matrix) (r : Nat) : MxRing := m.rings.toList.getD r MxRing.reset

/-- A ring replaced. -/
def Matrix.setRing (m : Matrix) (r : Nat) (x : MxRing) : Matrix := if h : r < 8 then { m with rings := m.rings.set r x h } else m

/-- An accumulator of a matrix unit. -/
def Matrix.accAt (m : Matrix) (a : Nat) : Acc := m.accs.toList.getD a { live := Tile.zero, shadow := Tile.zero, spec := false }

/-- An accumulator replaced. -/
def Matrix.setAcc (m : Matrix) (a : Nat) (x : Acc) : Matrix := if h : a < 4 then { m with accs := m.accs.set a x h } else m

/-- The tile a command acts on: the shadow while SPEC = 1 (R207). -/
def Acc.target (x : Acc) : Tile := if x.spec then x.shadow else x.live

/-- The tile a command acts on replaced. -/
def Acc.setTarget (x : Acc) (t : Tile) : Acc := if x.spec then { x with shadow := t } else { x with live := t }

/-- A window element of a tile. -/
def Tile.el (t : Tile) (i : Nat) : WinElem := tabGet WinElem.zero t.els i

/-- The signed window base of a tile. -/
def Tile.base (t : Tile) : Int := t.w.toInt

/-- A tile out of its 1024 elements. -/
def tileOf (w : BitVec 16) (f : Nat → WinElem) : Tile :=
  { w := w, els := (List.range 1024).filterMap (fun i => let e := f i; if e = WinElem.zero then none else some (i, e)) }

/-- The agent that a command's accesses are made as (R310 code 5). -/
def State.mxAgent (s : State) (n : Nat) (h : MxCmd) (row : Instr) (unit : Nat) : Agent :=
  { core := n, die := dieOfCore n, dom := (s.coreAt n).domain, kind := 5, ctx := h.ctx, svc := h.svc, row := row
    ev := { Ev.ofCtx n h.ctx with unit := unit } }

/-- The retirement of the executing command is due; `err` is 0 for a command that completes (R199, R209). -/
def State.mxEnd (s : State) (n err : Nat) (dw1 : Word) : State :=
  (s.onMx n (fun m => { m with wait := .none, ending := some (err, dw1) })).post .matrixCommandRetire { Ev.ofCtx n 0 with aux := err, val := dw1 }

/-- A command stops with an error. -/
def State.mxErr (s : State) (n err : Nat) (dw1 : Word) : Out := .next ((s.dropRemote n).mxEnd n err dw1)

/-- The sequencer turns to the first command of its queue. -/
def State.mxKick (s : State) (n : Nat) : State :=
  match (s.coreAt n).mx.queue with
  | [] => s
  | h :: _ => s.post (mxRow h.opc) { Ev.ofCtx n h.ctx with aux := if mxRow h.opc = .matrixCommandRetire then 1 else 0 }

/-- `mpush` (R200): the image enters the queue; a full queue makes the context wait. -/
def execMpush (v : VRegNo) (s : State) : Out :=
  s.vecCheck true [(v.toNat, 1)] (
    let q := s.core.mx.queue
    if 32 ≤ q.length then .next (s.wait .busy) else
    let x := s.ctx
    let h : MxCmd := { image := (List.range 8).map (fun i => (x.getV v.toNat).extractLsb' (64 * i) 64)
                       ctx := s.curCtx, rm := fieldOf x.frm 0 2, svc := x.priv == 2 }
    let s1 := s.onMx s.focus (fun m => { m with queue := m.queue ++ [h] })
    .next ((if q.isEmpty then s1.mxKick s.focus else s1).finish 4))

/-- STATE of `mstat` (R201). (DEDUCED, log 38) -/
def Matrix.stateCode (m : Matrix) : Nat :=
  match m.wait with
  | .tile => 2
  | .fault => 3
  | .none => if m.started then 1 else 0

/-- `mstat` (R201). -/
def execMstat (d : Reg) (s : State) : Out :=
  let m := s.core.mx
  let v := m.lerr * 2 ^ 40 + m.stateCode * 2 ^ 37 + (if m.lv then 2 ^ 32 else 0) + m.ltag * 65536 + m.kprog * 256 + m.queue.length
  .next ((s.setG d (BitVec.ofNat 64 v)).finish 4)

/-- A step that waits for a tile or for the bus is looked at again (R205, R228). -/
def State.mxWake (s : State) (n : Nat) : State :=
  let m := (s.coreAt n).mx
  if m.wait = .tile then s.post .mmaStep { Ev.ofCtx n 0 with unit := m.kprog } else s

/-- `rput` (R203). -/
def execRput (a : Reg) (r : BitVec 3) (s : State) : Out :=
  let c := (s.g a).toNat
  let x := s.core.mx.ring r.toNat
  if x.cap = 0 ∨ c = 0 ∨ x.cap < x.fill + c then s.trapped (Trap.illegal 2)
  else
    .next (((s.onMx s.focus (fun m => m.setRing r.toNat { x with tail := (x.tail + c) % x.cap, fill := x.fill + c })).mxWake s.focus).finish 4)

/-- RING_CONFIG_WRITE (R202): doubleword 0 of a ring descriptor, refused with the protection trap or set with the ring emptied. -/
def execRingConfigWrite (s : State) : Out :=
  let n := s.ev.core
  let v := s.ev.val
  let r := s.ev.unit
  let cap := fieldOf v 40 12
  let ts := fieldOf v 24 16
  let base := fieldOf v 0 19
  let range := ts % 64 == 0 && decide (64 ≤ ts) && decide (ts ≤ 32768) && base % 64 == 0 && decide (base + cap * ts ≤ 0x80000)
  let bad := fieldOf v 52 12 != 0 || fieldOf v 19 5 != 0 || (cap != 0 && !range) || decide (0x80000 < base + cap * ts)
    || (s.coreAt n).mx.queue.any (fun h => h.names r)
  if bad then .next (s.trapWaiting n s.ev.ctx (Trap.protection (0xFF * 2 ^ 48 + 0x110000 + 32 * r)))
  else
    .next ((s.onMx n (fun m => m.setRing r { cap := cap, tsize := ts, base := base, head := 0, tail := 0, fill := 0 })).answer n s.ev.ctx none)

/-- An operand as its descriptor and record give it (R212). -/
inductive MxOperand where
  | dense (t : Nat)
  | billet (r : FmtRecord) (f : Family) (blc : Nat)
deriving DecidableEq, Repr

/-- The operand types that the unit supports (R212): dense I8, F16 and BF16, billets of length 16, 32 and 64. -/
def MxOperand.ok : MxOperand → Bool
  | .dense t => t == 0 || t == 8 || t == 9
  | .billet _ _ blc => decide (blc ≤ 2)

/-- The pairs of operands that the unit supports (R212). -/
def MxOperand.pairs : MxOperand → MxOperand → Bool
  | .dense t, .dense u => t == u
  | .billet _ _ b, .billet _ _ c => b == c
  | _, _ => false

/-- The blocks of a line: 64 elements, or 64/blen billets. -/
def MxOperand.blocks : MxOperand → Nat
  | .dense _ => 64
  | .billet _ _ blc => 64 / blenOf blc

/-- The bytes of a block: an element's, or a billet's payload. -/
def MxOperand.size : MxOperand → Nat
  | .dense t => etypeBytes t
  | .billet _ f blc => f.payload (blenOf blc)

/-- TS (R204). -/
def MxOperand.ts : MxOperand → Nat
  | .dense t => 2048 * etypeBytes t
  | .billet _ f blc => (64 / blenOf blc) * (32 * f.payload (blenOf blc) + 64)

/-- The record of an operand. -/
def MxOperand.record : MxOperand → FmtRecord
  | .dense _ => FmtRecord.zero
  | .billet r _ _ => r

/-- The operand that a code, a block-length code and ETYPE name, its record read (R212); ERR 7 otherwise, with `ref` to report. (DEDUCED, log 38) -/
def State.mxOperand (s : State) (n : Nat) (ag : Agent) (code blc etype : Nat) (ref : Word) (k : State → MxOperand → Out) : Out :=
  if 3 < blc then s.mxErr n 7 ref
  else if code = 0 then k s (.dense etype)
  else if etype ≠ 0 then s.mxErr n 7 ref
  else
    s.agentRecord ag code (fun s e =>
      match e with
      | .refused a => s.mxErr n 5 (BitVec.ofNat 64 a)
      | _ => s.mxErr n 7 ref) (fun s r =>
      match r.family with
      | none => s.mxErr n 7 ref
      | some .dense => k s (.dense r.etype)
      | some f => k s (.billet r f blc))

/-- The operand of a 16-bit descriptor (R212). -/
def State.mxDesc (s : State) (n : Nat) (ag : Agent) (d : Nat) (k : State → MxOperand → Out) : Out :=
  s.mxOperand n ag (bitsOf d 11 5) (bitsOf d 8 3) (bitsOf d 4 4) (BitVec.ofNat 64 d) k

/-- The memory operand of a pointer with its descriptor (R212). -/
def State.mxPtr (s : State) (n : Nat) (ag : Agent) (p : Word) (d : Nat) (k : State → MxOperand → Out) : Out :=
  if bitsOf d 8 8 ≠ 0 then s.mxErr n 7 p else s.mxOperand n ag (ptrCode p) (ptrBlc p) (bitsOf d 4 4) p k

/-- The alignment and transposition of a memory operand that R213 accepts. -/
def MxOperand.memOk (x : MxOperand) (h : MxCmd) : Bool :=
  (match x with
    | .dense _ => true
    | .billet _ _ _ => !h.trans)
  && ptrAddr (h.dw 2) % x.size == 0 && h.stride % x.size == 0

/-- The first ring that is not configured, too small or too short, among rings with the TS and the tiles they need (R215). -/
def Matrix.badRing (m : Matrix) : List (Nat × Nat × Nat) → Option Nat
  | [] => none
  | (r, ts, k) :: rest =>
    if (m.ring r).cap = 0 ∨ (m.ring r).tsize < ts ∨ (m.ring r).cap < k then some r else m.badRing rest

/-- The command begins: its records, its group and its ring slot are kept until it retires (R209, R212, R217, R271). -/
def State.mxStart (s : State) (n : Nat) (a b : FmtRecord) (slot : Nat) : State :=
  s.onCore n (fun c => { c with mx := { c.mx with
    started := true, kprog := 0, wait := .none, slot := slot, group := c.bcastGrp, recA := a, recB := b, flags := 0 } })

/-- The first command of a queue when it has the code of the row; a retired one has no further units. -/
def State.mxHead (s : State) (n opc : Nat) (k : State → MxCmd → Out) : Out :=
  match (s.coreAt n).mx.queue with
  | h :: _ => if h.opc = opc then k (s.onMx n (fun m => { m with wait := .none })) h else .next s
  | [] => .next s

/-- The reserved bits of a command, then its own checks (R209). (DEDUCED, log 38) -/
def State.mxChecked (s : State) (n : Nat) (h : MxCmd) (k : State → Out) : Out :=
  if h.reservedSet then s.mxErr n 2 0 else k s

/-- A command of a single unit: the checks, the effect, the retirement. -/
def State.mxSimple (s : State) (n opc : Nat) (err : Matrix → MxCmd → Nat) (f : State → MxCmd → State) : Out :=
  s.mxHead n opc (fun s h => s.mxChecked n h (fun s =>
    let e := err (s.coreAt n).mx h
    if e ≠ 0 then s.mxErr n e 0
    else .next ((f (s.mxStart n FmtRecord.zero FmtRecord.zero 0) h).mxEnd n 0 0)))

/-- The target accumulator of a command changed. -/
def State.onAcc (s : State) (n : Nat) (h : MxCmd) (f : Acc → Acc) : State := s.onMx n (fun m => m.setAcc h.acc (f (m.accAt h.acc)))

/-- `mzero` (R214). -/
def execMzero (s : State) : Out :=
  s.mxSimple s.ev.core 1 (fun _ _ => 0) (fun s h =>
    s.onAcc s.ev.core h (fun x => x.setTarget { els := [], w := BitVec.ofNat 16 (h.f0 0 16) }))

/-- `mspec` (R221): ERR 9 where SPEC is set. -/
def execMspec (s : State) : Out :=
  s.mxSimple s.ev.core 9 (fun m h => if (m.accAt h.acc).spec then 9 else 0) (fun s h =>
    s.onAcc s.ev.core h (fun x => { x with shadow := x.live, spec := true }))

/-- `mcommit` (R221). -/
def execMcommit (s : State) : Out :=
  s.mxSimple s.ev.core 10 (fun _ _ => 0) (fun s h =>
    s.onAcc s.ev.core h (fun x => if x.spec then { x with live := x.shadow, spec := false } else x))

/-- `mdiscard` (R221). -/
def execMdiscard (s : State) : Out :=
  s.mxSimple s.ev.core 11 (fun _ _ => 0) (fun s h => s.onAcc s.ev.core h (fun x => { x with spec := false }))

/-- A tile's bytes: as one number, with its poisoned words, the address of its first byte and its size. -/
structure RawTile where
  num : Nat
  bad : List Nat
  addr : Nat
  size : Nat
deriving DecidableEq, Repr

/-- A tile as the scratchpad holds it. -/
def Core.slotTile (c : Core) (off ts : Nat) : RawTile :=
  { num := fromBytesLE (c.getSpad off ts), bad := (List.range (ts / 4)).filter (fun w => c.spadPoison.contains (off / 4 + w))
    addr := 0xFF * 2 ^ 48 + off, size := ts }

/-- The scratchpad offset of the slot that step `k` reads (R205). -/
def MxRing.slotOff (r : MxRing) (k : Nat) : Nat := r.base + (r.head + k) % r.cap * r.tsize

/-- Is any word among `n` bytes at `off` poisoned? -/
def badBytes (bad : List Nat) (off n : Nat) : Bool := (wordsTouched off n).any (fun w => bad.contains w)

/-- A block as read: header and payload, poison, and the address of its header. -/
structure MxBlock where
  header : Nat
  payload : Nat
  bad : Bool
  addr : Nat
deriving DecidableEq, Repr

/-- The offsets in a slot of a block's header and payload (R204). -/
def MxOperand.offsets (x : MxOperand) (i kb : Nat) : Nat × Nat :=
  match x with
  | .dense t => (0, (64 * i + kb) * etypeBytes t)
  | .billet _ _ blc =>
    let b := (i * (64 / blenOf blc) + kb) * x.size
    (headerOf x.size b, storeOf x.size b)

/-- A block of a tile. -/
def RawTile.block (t : RawTile) (x : MxOperand) (i kb : Nat) : MxBlock :=
  let o := x.offsets i kb
  let p := bitsOf t.num (8 * o.2) (8 * x.size)
  match x with
  | .dense _ => { header := 0, payload := p, bad := badBytes t.bad o.2 x.size, addr := t.addr }
  | .billet _ _ _ =>
    { header := bitsOf t.num (8 * o.1) 16, payload := p, bad := badBytes t.bad o.1 2 || badBytes t.bad o.2 x.size, addr := t.addr + o.1 }

/-- The blocks of a tile, line by line. -/
def RawTile.lines (t : RawTile) (x : MxOperand) : List (List MxBlock) :=
  (List.range 32).map (fun i => (List.range x.blocks).map (fun kb => t.block x i kb))

/-- A block's grid integers with their common exponent, or none for poison (R106, R215). -/
def MxBlock.decode (b : MxBlock) (x : MxOperand) (table : List Int) : Option (List Int × Int) :=
  if b.bad then none else
  match x with
  | .dense t =>
    match floatOf t with
    | none => some ([signExt b.payload 8], 0)
    | some f =>
      match f.unpack b.payload with
      | .fin sg m e => some ([signedMag sg m], e)
      | _ => none
  | .billet r f blc =>
    let ds := (chunks f.codeBits (blenOf blc) b.payload).map (fun c => billetDecode f b.header c r table)
    if ds.any (fun d => d.isNone) then none
    else some (ds.map (fun d => (d.getD (0, 0)).1), ((ds.headD none).getD (0, 0)).2)

/-- Is a block a selector corruption (R105)? -/
def MxBlock.corrupt (b : MxBlock) (x : MxOperand) : Bool :=
  match x with
  | .dense _ => false
  | .billet r _ _ => !b.bad && headerCorrupt b.header r

/-- The dot product of two integer lists. -/
def dotInt : List Int → List Int → Int
  | x :: xs, y :: ys => x * y + dotInt xs ys
  | _, _ => 0

/-- The contribution of a line of A and a line of B (R115, R215). -/
def lineDot (w : Int) : List (Option (List Int × Int)) → List (Option (List Int × Int)) → Int × Bool
  | a :: as, b :: bs =>
    let r := lineDot w as bs
    match a, b with
    | some x, some y => (contribution (dotInt x.1 y.1) (x.2 + y.2) w + r.1, r.2)
    | _, _ => (r.1, true)
  | _, _ => (0, false)

/-- One step applied to a tile (R215). -/
def Tile.step (t : Tile) (as bs : List (List (Option (List Int × Int)))) : Tile :=
  tileOf t.w (fun e =>
    let c := lineDot t.base (as.getD (e / 32) []) (bs.getD (e % 32) [])
    windowAdd (t.el e) c.1 c.2)

/-- Corrupt headers of blocks logged, and the flag they raise (R105). -/
def State.mxCorrupt (s : State) (n : Nat) (x : MxOperand) (ls : List (List MxBlock)) : State × Flags :=
  (ls.flatten.filter (fun b => b.corrupt x)).foldl (fun a b => (a.1.logCore n 0x03 b.addr 0, flagBFLT)) (s, 0)

/-- The level codes that blocks hold (R100, R212). -/
def levelsNeeded (r : FmtRecord) (f : Family) (blc : Nat) (ls : List (List MxBlock)) : List Nat :=
  (ls.flatten.filter (fun b => !b.bad && usesLevels r b.header)).foldl (fun acc b =>
    (chunks f.codeBits (blenOf blc) b.payload).foldl (fun a c => insertNat c a) acc) []

/-- The level table of an operand whose blocks are read; a refusal is ERR 5, an error in the table ERR 7 (R210, R212). -/
def State.mxLevels (s : State) (n : Nat) (ag : Agent) (x : MxOperand) (ref : Word) (ls : List (List MxBlock))
    (k : State → List Int → Out) : Out :=
  match x with
  | .dense _ => k s []
  | .billet r f blc =>
    s.agentLevels ag f r (levelsNeeded r f blc ls) (fun s e =>
      match e with
      | .refused a => s.mxErr n 5 (BitVec.ofNat 64 a)
      | _ => s.mxErr n 7 ref) k

/-- The contributions of one step computed and added to the target tile (R215); the flags wait for retirement. -/
def State.mxApply (s : State) (n : Nat) (h : MxCmd) (ag : Agent) (xa xb : MxOperand) (ta tb : List (List MxBlock))
    (refB : Word) (k : State → Out) : Out :=
  s.mxLevels n ag xa (BitVec.ofNat 64 (fieldOf (h.dw 1) 48 16)) ta (fun s la =>
    s.mxLevels n ag xb refB tb (fun s lb =>
      let r1 := s.mxCorrupt n xa ta
      let r2 := r1.1.mxCorrupt n xb tb
      let das := ta.map (fun l => l.map (fun b => b.decode xa la))
      let dbs := tb.map (fun l => l.map (fun b => b.decode xb lb))
      let s1 := r2.1.onMx n (fun m =>
        let x := m.accAt h.acc
        { m.setAcc h.acc (x.setTarget (x.target.step das dbs)) with flags := m.flags ||| r1.2 ||| r2.2, kprog := m.kprog + 1 })
      k (s1.dropRemote n)))

/-- After a step: the next one is due, or the command retires (R215). -/
def State.mxNext (s : State) (n : Nat) (h : MxCmd) : State :=
  let m := (s.coreAt n).mx
  if h.k ≤ m.kprog then s.mxEnd n 0 0 else s.post .mmaStep { Ev.ofCtx n h.ctx with unit := m.kprog }

/-- An operand of the executing command from the record it captured; its descriptor was accepted at the start. -/
def operandOf (code blc etype : Nat) (r : FmtRecord) : MxOperand :=
  if code = 0 then .dense etype else
  match r.family with
  | some .dense => .dense r.etype
  | some f => .billet r f blc
  | none => .dense etype

/-- Operand A of the executing command. -/
def Matrix.opA (m : Matrix) (h : MxCmd) : MxOperand :=
  let d := fieldOf (h.dw 1) 48 16
  operandOf (bitsOf d 11 5) (bitsOf d 8 3) (bitsOf d 4 4) m.recA

/-- Operand B of the executing command: from its descriptor, or from the pointer of `mmab`. -/
def Matrix.opB (m : Matrix) (h : MxCmd) : MxOperand :=
  let d := fieldOf (h.dw 1) 32 16
  if h.opc = 3 then operandOf (ptrCode (h.dw 2)) (ptrBlc (h.dw 2)) (bitsOf d 4 4) m.recB
  else operandOf (bitsOf d 11 5) (bitsOf d 8 3) (bitsOf d 4 4) m.recB

/-- The memory operand of `mrload`, whose descriptor stands where OPA does (R209). -/
def Matrix.opD (m : Matrix) (h : MxCmd) : MxOperand :=
  operandOf (ptrCode (h.dw 2)) (ptrBlc (h.dw 2)) (bitsOf (fieldOf (h.dw 1) 48 16) 4 4) m.recA

/-- A valid broadcast group for a core at position `p` (R271). -/
def groupValid (g : Word) (p : Nat) : Bool := g.getLsbD 63 && bitOf (fieldOf g 0 16) (fieldOf g 32 4) && bitOf (fieldOf g 0 16) p

/-- The combinations that the broadcast bus refuses (R224). -/
def Core.busBad (c : Core) (p : Nat) (h : MxCmd) : Bool :=
  (h.bus && h.bcast) || (h.bus && !groupValid c.bcastGrp p)
  || (h.bcast && !(groupValid c.bcastGrp p && fieldOf c.bcastGrp 32 4 == p))

/-- `mma` (R215, R224): the checks at its start; the steps follow. -/
def execMma (s : State) : Out :=
  let n := s.ev.core
  s.mxHead n 2 (fun s h => s.mxChecked n h (fun s =>
    let ag := s.mxAgent n h .mma 0
    s.mxDesc n ag (fieldOf (h.dw 1) 48 16) (fun s xa => s.mxDesc n ag (fieldOf (h.dw 1) 32 16) (fun s xb =>
      let c := s.coreAt n
      if !xa.ok || !xb.ok || !xa.pairs xb || h.k == 0 || (h.ra == h.rb && !h.bus) || c.busBad (posOfCore n) h then s.mxErr n 3 0
      else
        match c.mx.badRing ((h.ra, xa.ts, h.k) :: (if h.bus then [] else [(h.rb, xb.ts, h.k)])) with
        | some r => s.mxErr n 4 (BitVec.ofNat 64 r)
        | none => .next (((s.mxStart n xa.record xb.record 0).dropRemote n).mxNext n h)))))

/-- `mmab` (R216): the checks at its start; the steps follow. -/
def execMmab (s : State) : Out :=
  let n := s.ev.core
  s.mxHead n 3 (fun s h => s.mxChecked n h (fun s =>
    let ag := s.mxAgent n h .mmab 0
    s.mxDesc n ag (fieldOf (h.dw 1) 48 16) (fun s xa => s.mxPtr n ag (h.dw 2) (fieldOf (h.dw 1) 32 16) (fun s xb =>
      if !xa.ok || !xb.ok || !xa.pairs xb || h.k == 0 || !xb.memOk h then s.mxErr n 3 0
      else
        match (s.coreAt n).mx.badRing [(h.ra, xa.ts, h.k)] with
        | some r => s.mxErr n 4 (BitVec.ofNat 64 r)
        | none => .next (((s.mxStart n xa.record xb.record 0).dropRemote n).mxNext n h)))))

/-- The runs of a block of line `i` of step `k` in memory (R213): for an element itself, for a billet its header and its payload. -/
def MxOperand.memRuns (x : MxOperand) (h : MxCmd) (k i kb : Nat) : List (Int × Nat) :=
  let base : Int := ptrAddr (h.dw 2)
  let w := x.size
  match x with
  | .dense _ =>
    if h.trans then [(base + ((64 * k + kb : Nat) : Int) * h.stride + ((i * w : Nat) : Int), w)]
    else [(base + (i : Int) * h.stride + (((64 * k + kb) * w : Nat) : Int), w)]
  | .billet _ _ blc =>
    let l := base + (i : Int) * h.stride + (((64 * k / blenOf blc + kb) * w : Nat) : Int)
    if l < 0 then [(l, 2), (l, w)] else [((headerOf w l.toNat : Int), 2), ((storeOf w l.toNat : Int), w)]

/-- Runs read by a command (R213): a refusal is ERR 5, and data that cannot be delivered counts as poison and is logged. (DEDUCED, log 39) -/
def State.mxReads (s : State) (n : Nat) (ag : Agent) (k : State → List (List Byte × List Nat) → Out) :
    List (Nat × Nat) → List (List Byte × List Nat) → Out
  | [], acc => k s acc.reverse
  | (ea, b) :: rest, acc =>
    s.agentRead ag ea b (fun s e =>
      match e with
      | .refused a => s.mxErr n 5 (BitVec.ofNat 64 a)
      | _ => (s.logAgent n e 0).mxReads n ag k rest ((List.replicate b 0, (wordsTouched ea b).map (fun w => 4 * w)) :: acc))
      (fun s bs bad => s.mxReads n ag k rest ((bs, bad) :: acc))

/-- The poisoned words that runs met, each logged once (R7). -/
def State.mxPoison (s : State) (n : Nat) (rs : List (List Byte × List Nat)) : State :=
  (rs.foldl (fun acc r => r.2.foldl (fun a x => insertNat (x / 4) a) acc) []).foldl (fun a w => a.logCore n 0x02 (4 * w) 0) s

/-- Memory runs of an operand read after their range and their rights are checked (R213). -/
def State.mxFetch (s : State) (n : Nat) (ag : Agent) (p : Word) (runs : List (Int × Nat))
    (k : State → List (List Byte × List Nat) → Out) : Out :=
  if runs.any (fun r => outOfRange r.1 r.2) then s.mxErr n 6 p
  else
    let rs := runs.map (fun r => (r.1.toNat, r.2))
    s.agentAllowed ag (Need.load (ptrCode p ≠ 0)) rs (fun s a => s.mxErr n 5 (BitVec.ofNat 64 a)) (fun s => s.mxReads n ag (fun s bss => k (s.mxPoison n bss) bss) rs [])

/-- The blocks of a line out of the runs read for it. -/
def MxOperand.blocksOf (x : MxOperand) : List (List Byte × List Nat) → List (Int × Nat) → List MxBlock
  | (bs, bad) :: rest, r :: runs =>
    match x with
    | .dense _ => { header := 0, payload := fromBytesLE bs, bad := !bad.isEmpty, addr := 0 } :: x.blocksOf rest runs
    | .billet _ _ _ =>
      match rest, runs with
      | (ps, badP) :: rest', _ :: runs' =>
        { header := fromBytesLE bs, payload := fromBytesLE ps, bad := !bad.isEmpty || !badP.isEmpty, addr := r.1.toNat } :: x.blocksOf rest' runs'
      | _, _ => []
  | _, _ => []

/-- One step of `mmab`: B comes from memory (R216). -/
def State.stepMem (s : State) (n : Nat) (h : MxCmd) : Out :=
  let m := (s.coreAt n).mx
  let r := m.ring h.ra
  if r.fill ≤ m.kprog then .next (s.onMx n (fun m => { m with wait := .tile }))
  else
    let xa := m.opA h
    let xb := m.opB h
    let ag := s.mxAgent n h .mmaStep m.kprog
    let runs := (List.range 32).flatMap (fun i => (List.range xb.blocks).flatMap (fun kb => xb.memRuns h m.kprog i kb))
    s.mxFetch n ag (h.dw 2) runs (fun s bss =>
      let bs := xb.blocksOf bss runs
      let tb := (List.range 32).map (fun i => (bs.drop (i * xb.blocks)).take xb.blocks)
      let ta := ((s.coreAt n).slotTile (r.slotOff m.kprog) xa.ts).lines xa
      s.mxApply n h ag xa xb ta tb (h.dw 2) (fun s => .next (s.mxNext n h)))

/-- One step of `mma` with a given B tile. The step reads its tiles whole: of the mixes of old and new bytes that R206 allows for a store that
races with it, it meets none within a step. (DESIGN CHOICE, log 106) -/
def State.stepTile (s : State) (n : Nat) (h : MxCmd) (tb : RawTile) (k : State → Out) : Out :=
  let m := (s.coreAt n).mx
  let xa := m.opA h
  let xb := m.opB h
  let ta := ((s.coreAt n).slotTile ((m.ring h.ra).slotOff m.kprog) xa.ts).lines xa
  s.mxApply n h (s.mxAgent n h .mmaStep m.kprog) xa xb ta (tb.lines xb) (BitVec.ofNat 64 (fieldOf (h.dw 1) 32 16))
    (fun s => k (s.mxNext n h))

/-- The executing `mma` of a core when its next step has every ring tile it needs. -/
def Core.stepReady (c : Core) : Option MxCmd :=
  match c.mx.queue with
  | h :: _ =>
    if c.mx.started && h.opc == 2 && decide (c.mx.kprog < h.k) && decide (c.mx.kprog < (c.mx.ring h.ra).fill)
      && (h.bus || decide (c.mx.kprog < (c.mx.ring h.rb).fill)) then some h else none
  | [] => none

/-- The cores of the MEMBERS of a source but the source itself. -/
def busMembers (src : Nat) (g : Word) : List Nat :=
  ((List.range 16).filter (fun p => bitOf (fieldOf g 0 16) p && p != posOfCore src)).map (fun p => 16 * clusterOfCore src + p)

/-- Can a source drive its next tile: it and every member are ready for that step (R225)? -/
def State.busReady (s : State) (src : Nat) : Bool :=
  match (s.coreAt src).stepReady with
  | some h => h.bcast && (busMembers src (s.coreAt src).mx.group).all (fun m =>
      match (s.coreAt m).stepReady with
      | some g => g.bus
      | none => false)
  | none => false

/-- The ready source that the bus serves next, round-robin by position (R272). -/
def State.busSource (s : State) (cl : Nat) : Option Nat :=
  ((List.range 16).map (fun i => 16 * cl + ((s.clusterAt cl).busTurn + 1 + i) % 16)).find? (fun n => s.busReady n)

/-- A tile as a participant reads it: bytes beyond those the bus carries are free values. (DESIGN CHOICE, log 40) -/
def State.busTile (s : State) (t : RawTile) (ts : Nat) : RawTile × State :=
  if ts ≤ t.size then (t, s)
  else
    (List.range ((ts - t.size + 7) / 8)).foldl (fun a i =>
      let r := a.2.freeWord
      ({ a.1 with num := a.1.num + r.1.toNat * 2 ^ (8 * (t.size + 8 * i)) }, r.2)) (t, s)

/-- A tile delivered to the participants of a group, one after the other within the step. (DESIGN CHOICE, log 40) -/
def State.busDeliver (s : State) (t : RawTile) (k : State → Out) : List Nat → Out
  | [] => k s
  | n :: rest =>
    match (s.coreAt n).mx.queue with
    | h :: _ =>
      let m := (s.coreAt n).mx
      let r := s.busTile t (m.opB h).ts
      (r.2.onMx n (fun m => { m with wait := .none })).stepTile n h r.1 (fun s => s.busDeliver t k rest)
    | [] => s.busDeliver t k rest

/-- The level tables of a group's participants read before any of them takes the tile, so that the step is never partly applied. -/
def State.busLevels (s : State) (t : RawTile) (k : State → Out) : List Nat → Out
  | [] => k s
  | n :: rest =>
    match (s.coreAt n).mx.queue with
    | h :: _ =>
      let m := (s.coreAt n).mx
      let ta := ((s.coreAt n).slotTile ((m.ring h.ra).slotOff m.kprog) (m.opA h).ts).lines (m.opA h)
      let ag := s.mxAgent n h .mmaStep m.kprog
      s.mxLevels n ag (m.opA h) (BitVec.ofNat 64 (fieldOf (h.dw 1) 48 16)) ta (fun s _ =>
        s.mxLevels n ag (m.opB h) (BitVec.ofNat 64 (fieldOf (h.dw 1) 32 16)) (t.lines (m.opB h)) (fun s _ => s.busLevels t k rest))
    | [] => s.busLevels t k rest

/-- The bus serves a tile (R225, R272): a group whose members disagree ends with ERR 3 for all of them. -/
def State.busStep (s : State) (cl : Nat) : Out :=
  match s.busSource cl with
  | none => .next s
  | some src =>
    let g := (s.coreAt src).mx.group
    let parts := src :: busMembers src g
    let s1 := s.onCluster cl (fun c => { c with busTurn := posOfCore src })
    let again (s : State) : State :=
      match s.busSource cl with
      | some n => if n = src then s else s.post .mmaStep { Ev.ofCtx n 0 with unit := (s.coreAt n).mx.kprog }
      | none => s
    if parts.any (fun p => (s.coreAt p).mx.group ≠ g) then .next (again (parts.foldl (fun a p => a.mxEnd p 3 0) s1))
    else
      match (s.coreAt src).mx.queue with
      | h :: _ =>
        let m := (s.coreAt src).mx
        let t := (s.coreAt src).slotTile ((m.ring h.rb).slotOff m.kprog) (m.opB h).ts
        let s2 := match t.bad with
          | w :: _ => s1.logCore src 0x02 (t.addr + 4 * w) 0
          | [] => s1
        s2.busLevels t (fun s => s.busDeliver t (fun s => .next (again s)) parts) parts
      | [] => .next s1

/-- MMA_STEP (R205, R215, R225): a K step, once its tiles are present or the bus delivers. -/
def execMmaStep (s : State) : Out :=
  let n := s.ev.core
  let m := (s.coreAt n).mx
  match m.queue with
  | [] => .next s
  | h :: _ =>
    if !m.started ∨ m.kprog ≠ s.ev.unit ∨ h.k ≤ m.kprog ∨ (h.opc ≠ 2 ∧ h.opc ≠ 3) then .next s
    else
      let s0 := s.onMx n (fun m => { m with wait := .none })
      if h.opc = 3 then s0.stepMem n h
      else
        match (s0.coreAt n).stepReady with
        | none => .next (s0.onMx n (fun m => { m with wait := .tile }))
        | some _ =>
          if h.bus ∨ h.bcast then (s0.onMx n (fun m => { m with wait := .tile })).busStep (clusterOfCore n)
          else s0.stepTile n h ((s0.coreAt n).slotTile ((m.ring h.rb).slotOff m.kprog) (m.opB h).ts) (fun s => .next s)

/-- A unit of a row-by-row command is done: the next is due, or the command retires. -/
def State.mxRowDone (s : State) (n : Nat) (row : Instr) (ctx units : Nat) : State :=
  let s1 := (s.onMx n (fun m => { m with kprog := m.kprog + 1, wait := .none })).dropRemote n
  let k := (s1.coreAt n).mx.kprog
  if units ≤ k then s1.mxEnd n 0 0 else s1.retryLater row { Ev.ofCtx n ctx with unit := k }

/-- A scratchpad word marked poisoned, or not, for a unit's copy (R213). (DEDUCED, log 41) -/
def State.markSpad (s : State) (n off : Nat) (bad : Bool) : State :=
  s.onCore n (fun c => { c with spadPoison := setMember c.spadPoison (off / 4) bad })

/-- A block read from memory put into a ring slot of core `n`: poisoned words are copied as such (R213, R217). (DEDUCED, log 41) -/
def State.putBlock (s : State) (n : Nat) (x : MxOperand) (slot i kb : Nat) (rs : List (List Byte × List Nat)) (runs : List (Int × Nat)) : State :=
  let o := x.offsets i kb
  let data := rs.getD 0 ([], [])
  match x with
  | .dense _ =>
    let s1 := if (slot + o.2) % 4 = 0 then s.markSpad n (slot + o.2) false else s
    let s2 := s1.storeSpad n (slot + o.2) data.1
    if data.2.isEmpty then s2 else s2.markSpad n (slot + o.2) true
  | .billet _ _ _ =>
    let pay := rs.getD 1 ([], [])
    let s1 := if (slot + o.1) % 4 = 0 then s.markSpad n (slot + o.1) false else s
    let s2 := (s1.storeSpad n (slot + o.1) data.1).storeSpad n (slot + o.2) pay.1
    let s3 := if data.2.isEmpty then s2 else s2.markSpad n (slot + o.1) true
    let from' := ((runs.getD 1 (0, 0)).1).toNat
    pay.2.foldl (fun a w => a.markSpad n (slot + o.2 + (w - from')) true) s3

/-- The runs of each block taken in turn. -/
def MxOperand.perBlock (x : MxOperand) : Nat := match x with
  | .dense _ => 1
  | .billet _ _ _ => 2

/-- `mrload` (R217): the checks at its start, then one line per unit into the slot at the TAIL read at the start. -/
def execMrload (s : State) : Out :=
  let n := s.ev.core
  s.mxHead n 4 (fun s h =>
    let m := (s.coreAt n).mx
    let ag := s.mxAgent n h .mrload m.kprog
    if !m.started then
      s.mxChecked n h (fun s => s.mxPtr n ag (h.dw 2) (fieldOf (h.dw 1) 48 16) (fun s x =>
        let r := (s.coreAt n).mx.ring h.ra
        if !x.ok || !x.memOk h then s.mxErr n 3 0
        else if r.cap = 0 ∨ r.tsize < x.ts ∨ r.fill = r.cap then s.mxErr n 4 (BitVec.ofNat 64 h.ra)
        else .next (((s.mxStart n x.record FmtRecord.zero r.tail).dropRemote n).post .mrload { Ev.ofCtx n h.ctx with unit := 0 })))
    else if m.kprog ≠ s.ev.unit ∨ 32 ≤ m.kprog then .next s
    else
      let x := m.opD h
      let i := m.kprog
      let runs := (List.range x.blocks).flatMap (fun kb => x.memRuns h 0 i kb)
      s.mxFetch n ag (h.dw 2) runs (fun s bss =>
        let slot := (m.ring h.ra).base + m.slot * (m.ring h.ra).tsize
        let s1 := (List.range x.blocks).foldl (fun a kb =>
          a.putBlock n x slot i kb ((bss.drop (kb * x.perBlock)).take x.perBlock) ((runs.drop (kb * x.perBlock)).take x.perBlock)) s
        .next (s1.mxRowDone n .mrload h.ctx 32)))

/-- Runs written by a command: a refusal is ERR 5; a write that gets an error reply is dropped and logged (R384). (DEDUCED, log 39) -/
def State.mxWrites (s : State) (n : Nat) (ag : Agent) (k : State → Out) : List (Nat × List Byte) → Out
  | [] => k s
  | (ea, bs) :: rest =>
    s.agentWrites ag [(ea, bs)] (fun s e =>
      match e with
      | .refused a => s.mxErr n 5 (BitVec.ofNat 64 a)
      | _ => (s.logAgent n e 0).mxWrites n ag k rest) (fun s => s.mxWrites n ag k rest)

/-- Runs of a unit of `mqst` or `mstw` written after their rights are checked. -/
def State.mxStore (s : State) (n : Nat) (ag : Agent) (p : Word) (runs : List (Nat × List Byte)) (k : State → Out) : Out :=
  s.agentAllowed ag (Need.store (ptrCode p ≠ 0)) (runs.map (fun r => (r.1, r.2.length))) (fun s a => s.mxErr n 5 (BitVec.ofNat 64 a))
    (fun s => s.mxWrites n ag k runs)

/-- The candidate selectors of `mqst` (R218). -/
def mqstCands (sel : Nat) (r : FmtRecord) : List Nat := if sel = 0 then maskSels r.mask else [sel - 4]

/-- `mqst` (R218): the checks at its start, then one row of billets per unit. -/
def execMqst (s : State) : Out :=
  let n := s.ev.core
  s.mxHead n 5 (fun s h =>
    let m := (s.coreAt n).mx
    let p := h.dw 2
    let sel := h.f0 0 3
    let ag := s.mxAgent n h .mqst m.kprog
    if !m.started then
      s.mxChecked n h (fun s => s.mxOperand n ag (ptrCode p) (ptrBlc p) 0 p (fun s x =>
        match x with
        | .dense _ => s.mxErr n 7 p
        | .billet r _ blc =>
          if sel = 7 ∧ r.ltab = 0 then s.mxErr n 7 p
          else if 1 < blc ∨ (1 ≤ sel ∧ sel ≤ 3) ∨ ptrAddr p % x.size ≠ 0 ∨ h.stride % x.size ≠ 0 then s.mxErr n 3 0
          else .next (((s.mxStart n r FmtRecord.zero 0).dropRemote n).post .mqst { Ev.ofCtx n h.ctx with unit := 0 })))
    else if m.kprog ≠ s.ev.unit ∨ 32 ≤ m.kprog then .next s
    else
      match operandOf (ptrCode p) (ptrBlc p) 0 m.recA with
      | .dense _ => .next s
      | .billet r f blc =>
        let blen := blenOf blc
        let pay := f.payload blen
        let i := m.kprog
        let ls := (List.range (32 / blen)).map (fun kb => (ptrAddr p : Int) + (i : Int) * h.stride + ((kb * pay : Nat) : Int))
        if ls.any (fun l => decide (l < 0) || outOfRange (storeOf pay l.toNat : Int) pay || outOfRange (headerOf pay l.toNat : Int) 2) then
          s.mxErr n 6 p
        else
          let cands := mqstCands sel r
          s.agentLevels ag f r (quenchCodes f cands) (fun s e =>
            match e with
            | .refused a => s.mxErr n 5 (BitVec.ofNat 64 a)
            | _ => s.mxErr n 7 p) (fun s table =>
            let t := (m.accAt h.acc).target
            let qs := (List.range (32 / blen)).map (fun kb =>
              quench f r table cands ((List.range blen).map (fun j => qinOfWindow (t.el (32 * i + kb * blen + j)) t.base)))
            let runs := billetStores f ((List.range (32 / blen)).map (fun kb =>
              let q := qs.getD kb (0, [], 0)
              let l := (ls.getD kb 0).toNat
              (headerOf pay l, q.1, storeOf pay l, q.2.1)))
            let fl := qs.foldl (fun a q => a ||| q.2.2) (0 : Flags)
            s.mxStore n ag p runs (fun s =>
              .next ((s.onMx n (fun m => { m with flags := m.flags ||| fl })).mxRowDone n .mqst h.ctx 32))))

/-- FMT of `mcvt` (R219). -/
def mcvtFmt (f : Nat) : FFmt := if f = 0 then fmtF32 else if f = 1 then fmtBF16 else fmtF16

/-- `mcvt` (R219). -/
def execMcvt (s : State) : Out :=
  let n := s.ev.core
  let size (h : MxCmd) : Nat := if h.f0 30 2 = 0 then 4 else 2
  let off (h : MxCmd) : Int := (h.dw 2).toNat
  s.mxSimple n 6 (fun _ h =>
    let w : Int := size h
    let last := off h + 31 * h.stride
    let lo := minInt (off h) last
    let hi := maxInt (off h) last + 32 * w
    if h.f0 30 2 = 3 ∨ (1 ≤ h.f0 27 3 ∧ h.f0 27 3 ≤ 3) ∨ off h % w ≠ 0 ∨ h.stride % w ≠ 0 ∨ lo < 0 ∨ 0x80000 < hi then 3 else 0)
    (fun s h =>
      let t := ((s.coreAt n).mx.accAt h.acc).target
      let mode := rmodeOf (if h.f0 27 3 = 0 then h.rm else h.f0 27 3 - 4)
      let f := mcvtFmt (h.f0 30 2)
      (List.range 32).foldl (fun s i =>
        let rs := (List.range 32).map (fun j => windowOut f mode (t.el (32 * i + j)) t.base)
        let s1 := s.storeSpad n (off h + i * h.stride).toNat (rs.flatMap (fun r => bytesLE (size h) r.1))
        s1.onMx n (fun m => { m with flags := rs.foldl (fun a r => a ||| r.2) m.flags })) s)

/-- The checks of `mstw` and `mldw` on their pointer (R220): ERR 7 for a tag, ERR 3 for its alignment or a range outside the scratchpad.
(DEDUCED, log 38) -/
def rawErr (p : Word) : Nat :=
  let a := ptrAddr p
  if ptrCode p ≠ 0 ∨ 3 < ptrBlc p then 7
  else if a % 32 ≠ 0 ∨ (topByte a = 0xFF ∧ 0x80000 < a % 2 ^ 48 + 32768) then 3 else 0

/-- The start of `mstw` or `mldw`. -/
def State.mxRawStart (s : State) (n : Nat) (h : MxCmd) (row : Instr) : Out :=
  s.mxChecked n h (fun s =>
    let e := rawErr (h.dw 2)
    if e ≠ 0 then s.mxErr n e (if e = 7 then h.dw 2 else 0)
    else .next ((s.mxStart n FmtRecord.zero FmtRecord.zero 0).post row { Ev.ofCtx n h.ctx with unit := 0 }))

/-- `mstw` (R220): one row of 32 raw images per unit. -/
def execMstw (s : State) : Out :=
  let n := s.ev.core
  s.mxHead n 7 (fun s h =>
    let m := (s.coreAt n).mx
    if !m.started then s.mxRawStart n h .mstw
    else if m.kprog ≠ s.ev.unit ∨ 32 ≤ m.kprog then .next s
    else
      let a := ptrAddr (h.dw 2) + 1024 * m.kprog
      let t := (m.accAt h.acc).target
      if 2 ^ 56 < a + 1024 then s.mxErr n 6 (h.dw 2)
      else
        s.mxStore n (s.mxAgent n h .mstw m.kprog) (h.dw 2)
          [(a, (List.range 32).flatMap (fun j => (t.el (32 * m.kprog + j)).image))]
          (fun s => .next (s.mxRowDone n .mstw h.ctx 32)))

/-- `mldw` (R220): one row of 32 raw images per unit; an element in a poisoned word loads with poison 1. -/
def execMldw (s : State) : Out :=
  let n := s.ev.core
  s.mxHead n 8 (fun s h =>
    let m := (s.coreAt n).mx
    if !m.started then s.mxRawStart n h .mldw
    else if m.kprog ≠ s.ev.unit ∨ 32 ≤ m.kprog then .next s
    else
      let a := ptrAddr (h.dw 2) + 1024 * m.kprog
      s.mxFetch n (s.mxAgent n h .mldw m.kprog) (h.dw 2) [((a : Int), 1024)] (fun s bss =>
        let r := bss.headD ([], [])
        let els := (List.range 32).map (fun j =>
          let e := winOfImage ((r.1.drop (32 * j)).take 32)
          { e with poison := e.poison || r.2.any (fun x => (x - a) / 32 == j) })
        let load (x : Acc) : Acc :=
          let t := x.target
          x.setTarget { els := (List.range 32).foldl (fun l j => tabSet WinElem.zero l (32 * m.kprog + j) (els.getD j WinElem.zero)) t.els
                        w := BitVec.ofNat 16 (h.f0 0 16) }
        .next ((s.onAcc n h load).mxRowDone n .mldw h.ctx 32)))

/-- `mfence` (R222): it retires once the writes that left for host memory are acknowledged; the others were performed at their units. -/
def execMfence (s : State) : Out :=
  let n := s.ev.core
  s.mxHead n 12 (fun s h => s.mxChecked n h (fun s =>
    let s1 := s.mxStart n FmtRecord.zero FmtRecord.zero 0
    if !(s.coreAt n).hostWrites.isEmpty then .next (s1.retryLater .mfence s.ev) else .next (s1.mxEnd n 0 0)))

/-- The checks of `msignal` (R223): its error and what doubleword 1 shows. (DEDUCED, log 39) -/
def msignalErr (h : MxCmd) : Nat × Word :=
  let sig := h.dw 1
  let uses := decide (2 ≤ h.f0 0 2)
  if uses && (ptrCode sig != 0 || decide (3 < ptrBlc sig)) then (7, sig)
  else if h.f0 0 2 = 0 ∨ (uses && sig.toNat % 8 != 0) then (3, 0) else (0, 0)

/-- `msignal` (R223): after the earlier writes, the decrement at the signal's home; the event is posted at retirement. One sent to a pinned
page is waited for, and a refusal of it is ERR 8 (R421). (DEDUCED, log 39; DESIGN CHOICE, log 105) -/
def execMsignal (s : State) : Out :=
  let n := s.ev.core
  s.mxHead n 13 (fun s h => s.mxChecked n h (fun s =>
    let e := msignalErr h
    let a := ptrAddr (h.dw 1)
    let sig := (s.coreAt n).mx.sig
    if e.1 ≠ 0 then s.mxErr n e.1 e.2
    else if sig = 2 then s.mxErr n 8 (BitVec.ofNat 64 a)
    else
      let s1 := s.mxStart n FmtRecord.zero FmtRecord.zero 0
      if !(s.coreAt n).hostWrites.isEmpty then .next (s1.retryLater .msignal s.ev)
      else if sig = 1 ∨ h.f0 0 2 = 1 then .next (s1.mxEnd n 0 0)
      else
        if topByte a = 0xFF then s1.mxErr n 5 (BitVec.ofNat 64 a)
        else
          s1.agentDecrement (s1.mxAgent n h .msignal 0) a (h.dw 2) h.tag (fun s e =>
            match e with
            | .refused x => s.mxErr n 5 (BitVec.ofNat 64 x)
            | _ => s.mxErr n 8 (BitVec.ofNat 64 a)) (fun s =>
              let s2 := s.dropRemote n
              if (s2.coreAt n).hostWrites.isEmpty then .next (s2.mxEnd n 0 0)
              else .next ((s2.onMx n (fun m => { m with sig := 1 })).retryLater .msignal s.ev))))

/-- Tiles popped from a ring (R205). -/
def MxRing.pop (r : MxRing) (k : Nat) : MxRing := if r.cap = 0 then r else { r with head := (r.head + k) % r.cap, fill := r.fill - k }

/-- The ring effects of a retirement: `mma` and `mmab` pop what their completed steps used unless told not to; `mrload` adds its tile. -/
def Matrix.retireRings (m : Matrix) (h : MxCmd) (err : Nat) : Matrix :=
  let pop (m : Matrix) (r : Nat) : Matrix := m.setRing r ((m.ring r).pop m.kprog)
  if !m.started then m
  else if h.opc = 2 then
    let m1 := if h.f0 21 1 = 1 then m else pop m h.ra
    if h.bus || h.f0 20 1 == 1 then m1 else pop m1 h.rb
  else if h.opc = 3 then (if h.f0 21 1 = 1 then m else pop m h.ra)
  else if h.opc = 4 ∧ err = 0 then
    let r := m.ring h.ra
    m.setRing h.ra { r with tail := if r.cap = 0 then 0 else (r.tail + 1) % r.cap, fill := r.fill + 1 }
  else m

/-- The CLASS of a matrix error (R434). -/
def mxClass (err : Nat) : Nat := if err = 5 then 0x06 else if err = 8 then 0x02 else 0x07

/-- MATRIX_COMMAND_RETIRE (R199, R205, R210): the rings, the flags, the events and the log; the next command begins. -/
def execMatrixCommandRetire (s : State) : Out :=
  let n := s.ev.core
  let m := (s.coreAt n).mx
  let err := s.ev.aux
  match m.queue with
  | [] => .next s
  | h :: rest =>
    let steps := if m.started then m.kprog else 0
    let s1 := (s.flagOf n ((s.coreAt n).inboxCtx h.ctx) (if m.started then m.flags else 0)).onMx n (fun m =>
      { m.retireRings h err with
        queue := rest, started := false, kprog := 0, wait := .none, sig := 0, ending := none, flags := 0, lv := true, ltag := h.tag
        lerr := if err = 0 then m.lerr else err })
    let s2 :=
      if err ≠ 0 then
        (s1.postInbox n h.ctx 0x1400 (inboxDw0 0x14 1 (err * 2 ^ 48 + h.tag * 2 ^ 32 + steps)) s.ev.val).logCore n (mxClass err)
          (fieldOf s.ev.val 0 56) (BitVec.ofNat 64 err)
      else if h.opc = 13 && h.f0 0 1 == 1 then s1.postInbox n h.ctx 0x1400 (inboxDw0 0x14 0 (h.tag * 2 ^ 32)) (h.dw 1)
      else s1
    .next ((s2.mxKick n).wakeBusy n)

end Sys2Proof.Machine
end

