-- ==== Sys2Proof/Decode.lean ====
section
/-!
DEFINITION. Decoding and encoding (R52 to R69).
An instruction's fields are cut out here, once, and every encoding is an instruction or is rejected by name.
The three rejections are the checks of R61 that need the bits alone: check 1 gives detail 0, check 2 detail 1, check 3 detail 2.
Checks that need the state (an `ox` register's reserved bits, the privilege, a helper's `v8` to `v31`) stand in the meanings.
The encoder is written from the same grids.
-/

namespace Sys2Proof

/-- Why an encoding is no instruction (R61). -/
inductive Reject where
  /-- Check 1: a major, a short op, a function field, a scope code or a rounding code without a meaning. -/
  | unassigned
  /-- Check 2: a field that must be zero is not, or a register number lies outside its file. -/
  | reservedField
  /-- Check 3: an operand kind or a combination that the instruction does not accept. -/
  | unsupported
  /-- Fewer bytes than the instruction has. -/
  | truncated
deriving DecidableEq, Repr

/-- The DETAIL of the illegal-instruction trap (R44, R61). -/
def Reject.detail : Reject → Nat
  | .unassigned => 0
  | .reservedField => 1
  | .unsupported => 2
  | .truncated => 0

/-- The fields of the 32-bit formats (R54): every format is a reading of these six. -/
structure Fields where
  maj : BitVec 6
  d : BitVec 5
  a : BitVec 5
  f3 : BitVec 3
  b : BitVec 5
  f7 : BitVec 7
deriving DecidableEq, Repr

/-- The word the fields stand for, with the length bit 1 (R52, R54). -/
def Fields.word (f : Fields) : BitVec 32 := f.f7 ++ f.b ++ f.f3 ++ f.a ++ f.d ++ f.maj ++ 1#1

/-- The fields of a 32-bit word (R54). -/
def fieldsOf (w : BitVec 32) : Fields where
  maj := w.extractLsb' 1 6
  d := w.extractLsb' 7 5
  a := w.extractLsb' 12 5
  f3 := w.extractLsb' 17 3
  b := w.extractLsb' 20 5
  f7 := w.extractLsb' 25 7

/-- imm[11:0] of the I format (R54). -/
def Fields.immI (f : Fields) : BitVec 12 := f.f7 ++ f.b
/-- imm[11:0] of the S format and off[11:0] of the B format (R54). -/
def Fields.immS (f : Fields) : BitVec 12 := f.f7 ++ f.d
/-- imm[19:0] of the U format and off[19:0] of the J format (R54). -/
def Fields.immU (f : Fields) : BitVec 20 := f.f7 ++ f.b ++ f.f3 ++ f.a
/-- f6 of the V format (R54). -/
def Fields.f6 (f : Fields) : BitVec 6 := f.f7.extractLsb' 1 6
/-- vm of the V format: true when every element is active (R68). -/
def Fields.vm (f : Fields) : Bool := f.f7.getLsbD 0

/-- The checks of R61 in their order, on the conditions that must hold. -/
def checked (reservedZero supported : Bool) (i : Instr) : Except Reject Instr :=
  if !reservedZero then .error .reservedField
  else if !supported then .error .unsupported
  else .ok i

/-- The scope codes (R67). -/
def scopeOf (c : BitVec 3) : Option Scope :=
  if c = 0 then some .core else if c = 1 then some .cluster else if c = 2 then some .die
  else if c = 3 then some .package else if c = 4 then some .system else none

/-- The ordering codes of `amo` (R66). -/
def orderOf (c : BitVec 2) : Order :=
  if c = 0 then .none else if c = 1 then .acq else if c = 2 then .rel else .ar

/-- The operand kinds (R68). -/
def kindOf (c : BitVec 3) : Option Kind :=
  if c = 0 then some .vv else if c = 1 then some .vx else if c = 2 then some .vi else none

/-- The rounding codes (R68). -/
def roundOf (c : BitVec 5) : Option VRound :=
  if c = 0 then some .frm else if c = 4 then some .rne else if c = 5 then some .rtz
  else if c = 6 then some .rdn else if c = 7 then some .rup else none

/-- The selector codes of `vqst` (R155). -/
def qselOf (c : BitVec 5) : Option QSel :=
  if c = 0 then some .mask else if c = 4 then some .forceI else if c = 5 then some .forceF
  else if c = 6 then some .forceM else if c = 7 then some .forceL else none

/-- A field code with its meaning, or the rejection of check 1. -/
def need {α : Type} (o : Option α) (k : α → Except Reject Instr) : Except Reject Instr :=
  match o with
  | some x => k x
  | none => .error .unassigned

/-- Major 0x01 (R63). -/
def decodeLoad (f : Fields) : Except Reject Instr :=
  match f.f3.toNat with
  | 0 => .ok (.ldb f.d f.a f.immI)
  | 1 => .ok (.ldh f.d f.a f.immI)
  | 2 => .ok (.ldw f.d f.a f.immI)
  | 3 => .ok (.ldd f.d f.a f.immI)
  | 4 => .ok (.ldbn f.d f.a f.immI)
  | 5 => .ok (.ldhn f.d f.a f.immI)
  | 6 => .ok (.ldwn f.d f.a f.immI)
  | _ => .error .unassigned

/-- Major 0x02 (R63). -/
def decodeStore (f : Fields) : Except Reject Instr :=
  match f.f3.toNat with
  | 0 => .ok (.stb f.b f.a f.immS)
  | 1 => .ok (.sth f.b f.a f.immS)
  | 2 => .ok (.stw f.b f.a f.immS)
  | 3 => .ok (.std f.b f.a f.immS)
  | _ => .error .unassigned

/-- Major 0x03 (R63): the shift counts lie in imm[5:0], imm[11:6] is reserved for `slli` and selects for f3 = 5. -/
def decodeImm (f : Fields) : Except Reject Instr :=
  match f.f3.toNat with
  | 0 => .ok (.addi f.d f.a f.immI)
  | 1 => checked (f.f6 == 0) true (.slli f.d f.a (f.immI.extractLsb' 0 6))
  | 2 => .ok (.slti f.d f.a f.immI)
  | 3 => .ok (.sltni f.d f.a f.immI)
  | 4 => .ok (.xori f.d f.a f.immI)
  | 5 =>
    if f.f6 = 0 then .ok (.srli f.d f.a (f.immI.extractLsb' 0 6))
    else if f.f6 = 0x10 then .ok (.srai f.d f.a (f.immI.extractLsb' 0 6))
    else .error .unassigned
  | 6 => .ok (.ori f.d f.a f.immI)
  | _ => .ok (.andi f.d f.a f.immI)

/-- Major 0x04 (R64): f7 and f3 together select, f7[6] = 1 selects the `.w` variant. -/
def decodeReg (f : Fields) : Except Reject Instr :=
  match f.f7.toNat with
  | 0 =>
    match f.f3.toNat with
    | 0 => .ok (.add f.d f.a f.b)
    | 1 => .ok (.sll f.d f.a f.b)
    | 2 => .ok (.slt f.d f.a f.b)
    | 3 => .ok (.sltn f.d f.a f.b)
    | 4 => .ok (.xor f.d f.a f.b)
    | 5 => .ok (.srl f.d f.a f.b)
    | 6 => .ok (.or f.d f.a f.b)
    | _ => .ok (.and f.d f.a f.b)
  | 1 =>
    match f.f3.toNat with
    | 0 => .ok (.sub f.d f.a f.b)
    | 1 => .ok (.min f.d f.a f.b)
    | 2 => .ok (.max f.d f.a f.b)
    | 3 => .ok (.minn f.d f.a f.b)
    | 4 => .ok (.maxn f.d f.a f.b)
    | 5 => .ok (.sra f.d f.a f.b)
    | _ => .error .unassigned
  | 2 =>
    match f.f3.toNat with
    | 0 => .ok (.mul f.d f.a f.b)
    | 1 => .ok (.mulh f.d f.a f.b)
    | 2 => .ok (.mulhn f.d f.a f.b)
    | 4 => .ok (.div f.d f.a f.b)
    | 5 => .ok (.divn f.d f.a f.b)
    | 6 => .ok (.rem f.d f.a f.b)
    | 7 => .ok (.remn f.d f.a f.b)
    | _ => .error .unassigned
  | 3 =>
    match f.f3.toNat with
    | 0 => checked (f.b == 0) true (.clz f.d f.a)
    | 1 => checked (f.b == 0) true (.ctz f.d f.a)
    | 2 => checked (f.b == 0) true (.cpop f.d f.a)
    | _ => .error .unassigned
  | 64 =>
    match f.f3.toNat with
    | 0 => .ok (.addW f.d f.a f.b)
    | 1 => .ok (.sllW f.d f.a f.b)
    | 2 => .ok (.sltW f.d f.a f.b)
    | 3 => .ok (.sltnW f.d f.a f.b)
    | 4 => .ok (.xorW f.d f.a f.b)
    | 5 => .ok (.srlW f.d f.a f.b)
    | 6 => .ok (.orW f.d f.a f.b)
    | _ => .ok (.andW f.d f.a f.b)
  | 65 =>
    match f.f3.toNat with
    | 0 => .ok (.subW f.d f.a f.b)
    | 1 => .ok (.minW f.d f.a f.b)
    | 2 => .ok (.maxW f.d f.a f.b)
    | 3 => .ok (.minnW f.d f.a f.b)
    | 4 => .ok (.maxnW f.d f.a f.b)
    | 5 => .ok (.sraW f.d f.a f.b)
    | _ => .error .unassigned
  | 66 =>
    match f.f3.toNat with
    | 0 => .ok (.mulW f.d f.a f.b)
    | 1 => .ok (.mulhW f.d f.a f.b)
    | 2 => .ok (.mulhnW f.d f.a f.b)
    | 4 => .ok (.divW f.d f.a f.b)
    | 5 => .ok (.divnW f.d f.a f.b)
    | 6 => .ok (.remW f.d f.a f.b)
    | 7 => .ok (.remnW f.d f.a f.b)
    | _ => .error .unassigned
  | 67 =>
    match f.f3.toNat with
    | 0 => checked (f.b == 0) true (.clzW f.d f.a)
    | 1 => checked (f.b == 0) true (.ctzW f.d f.a)
    | 2 => checked (f.b == 0) true (.cpopW f.d f.a)
    | _ => .error .unassigned
  | _ => .error .unassigned

/-- Major 0x08 (R63). -/
def decodeBranch (f : Fields) : Except Reject Instr :=
  match f.f3.toNat with
  | 0 => .ok (.beq f.a f.b f.immS)
  | 1 => .ok (.bne f.a f.b f.immS)
  | 4 => .ok (.blt f.a f.b f.immS)
  | 5 => .ok (.bge f.a f.b f.immS)
  | 6 => .ok (.bltn f.a f.b f.immS)
  | 7 => .ok (.bgen f.a f.b f.immS)
  | _ => .error .unassigned

/-- Major 0x0B (R63, R81). -/
def decodePtr (f : Fields) : Except Reject Instr :=
  match f.f3.toNat with
  | 0 => if f.f7 = 0 then .ok (.padd f.d f.a f.b) else .error .unassigned
  | 1 => .ok (.paddi f.d f.a f.immI)
  | 2 => checked (f.immI.extractLsb' 8 4 == 0) true (.ptag f.d f.a (f.immI.extractLsb' 0 8))
  | 3 => if f.f7 = 0 then .ok (.pset f.d f.a f.b) else .error .unassigned
  | 4 => if f.f7 = 0 then .ok (.pchk f.d f.a f.b) else .error .unassigned
  | _ => .error .unassigned

/-- Major 0x0C (R63, R83); an `ox` field holds 0 to 7 (R56). -/
def decodeOx (f : Fields) : Except Reject Instr :=
  match f.f3.toNat with
  | 0 =>
    if f.f7 = 0 then checked (f.b == 0 && f.d.extractLsb' 3 2 == 0) true (.oxset (f.d.extractLsb' 0 3) f.a)
    else .error .unassigned
  | 1 =>
    if f.f7 = 0 then checked (f.b == 0 && f.a.extractLsb' 3 2 == 0) true (.oxget f.d (f.a.extractLsb' 0 3))
    else .error .unassigned
  | 2 => checked (f.d.extractLsb' 3 2 == 0) true (.oxld (f.d.extractLsb' 0 3) f.a f.immI)
  | _ => .error .unassigned

/-- `fence` (R65): the kinds fmt and i require scope code 0. -/
def decodeFence (f : Fields) : Except Reject Instr :=
  need (scopeOf (f.immI.extractLsb' 3 3)) fun s =>
    let zero := f.immI.extractLsb' 6 6 == 0 && f.a == 0 && f.d == 0
    match (f.immI.extractLsb' 0 3).toNat with
    | 0 => checked zero true (.fenceAcq s)
    | 1 => checked zero true (.fenceRel s)
    | 2 => checked zero true (.fenceAr s)
    | 3 => checked zero (s == .core) .fenceFmt
    | 4 => checked zero (s == .core) .fenceI
    | _ => .error .unassigned

/-- `tinval`, `purge` and `icinv` (R65). -/
def decodeMaint (f : Fields) : Except Reject Instr :=
  need (scopeOf (f.immI.extractLsb' 5 3)) fun s =>
    let zero := f.immI.extractLsb' 0 4 == 0 && f.d == 0
    let mode := f.immI.getLsbD 4
    match (f.immI.extractLsb' 8 4).toNat with
    | 0 => checked (zero && !mode) true (.tinval s f.a)
    | 1 => checked zero true (.purge s mode f.a)
    | 2 => checked (zero && !mode) true (.icinv s f.a)
    | _ => .error .unassigned

/-- Major 0x0D (R63, R65). -/
def decodeSystem (f : Fields) : Except Reject Instr :=
  match f.f3.toNat with
  | 0 => checked (f.a == 0) true (.srd f.d f.immI)
  | 1 => checked (f.d == 0) true (.swr f.a f.immI)
  | 2 => checked (f.d == 0 && f.a == 0) true (.trap f.immI)
  | 3 => decodeFence f
  | 4 => decodeMaint f
  | 5 =>
    match f.immI.toNat with
    | 0 => checked (f.d == 0 && f.a == 0) true .eret
    | 1 => checked (f.d == 0 && f.a == 0) true .halt
    | 2 => checked (f.d == 0 && f.a == 0) true .yield
    | _ => .error .unassigned
  | _ => .error .unassigned

/-- `amo` (R66): f7 holds the width, the ordering and the operation, f3 the scope. -/
def decodeAmo (f : Fields) : Except Reject Instr :=
  need (scopeOf f.f3) fun s =>
    let w := f.f7.getLsbD 6
    let o := orderOf (f.f7.extractLsb' 4 2)
    match (f.f7.extractLsb' 0 4).toNat with
    | 0 => .ok (.amoAdd w o s f.d f.a f.b)
    | 1 => .ok (.amoMin w o s f.d f.a f.b)
    | 2 => .ok (.amoMax w o s f.d f.a f.b)
    | 3 => .ok (.amoMinn w o s f.d f.a f.b)
    | 4 => .ok (.amoMaxn w o s f.d f.a f.b)
    | 5 => .ok (.amoAnd w o s f.d f.a f.b)
    | 6 => .ok (.amoOr w o s f.d f.a f.b)
    | 7 => .ok (.amoXor w o s f.d f.a f.b)
    | 8 => .ok (.amoSwap w o s f.d f.a f.b)
    | 9 => .ok (.amoCas w o s f.d f.a f.b)
    | _ => .error .unassigned

/-- `amoupd` (R66). -/
def decodeAmoupd (f : Fields) : Except Reject Instr :=
  let zero := f.f7.extractLsb' 4 2 == 0 && f.d == 0
  let w := f.f7.getLsbD 6
  match (f.f7.extractLsb' 0 4).toNat with
  | 0 => checked zero true (.amoupdAdd w f.a f.b)
  | 1 => checked zero true (.amoupdMin w f.a f.b)
  | 2 => checked zero true (.amoupdMax w f.a f.b)
  | 5 => checked zero true (.amoupdAnd w f.a f.b)
  | 6 => checked zero true (.amoupdOr w f.a f.b)
  | 7 => checked zero true (.amoupdXor w f.a f.b)
  | _ => .error .unassigned

/-- The versioned operations (R66). -/
def decodeVersioned (f : Fields) : Except Reject Instr :=
  let top := !f.f7.getLsbD 6
  let c := f.f7.extractLsb' 3 3
  match (f.f7.extractLsb' 0 3).toNat with
  | 0 => need (scopeOf c) fun s => checked (top && f.d == 0) true (.stv s f.a f.b)
  | 1 => need (scopeOf c) fun s => checked top true (.ldv s f.d f.a f.b)
  | 2 => need (scopeOf c) fun _ => checked (top && c == 0 && f.b == 0) true (.vers f.d f.a)
  | 3 => need (scopeOf c) fun _ => checked (top && c == 0 && f.b == 0 && f.d == 0) true (.reclaim f.a)
  | _ => .error .unassigned

/-- Major 0x0E (R66). -/
def decodeAtomic (f : Fields) : Except Reject Instr :=
  match f.f3.toNat with
  | 5 => decodeAmoupd f
  | 6 => decodeVersioned f
  | _ => decodeAmo f

/-- Major 0x0F (R63). -/
def decodeWait (f : Fields) : Except Reject Instr :=
  match f.f3.toNat with
  | 0 => if f.f7 = 0 then checked (true) true (.waitt f.d f.a f.b) else .error .unassigned
  | 1 => if f.f7 = 0 then checked (true) true (.sigwait f.d f.a f.b) else .error .unassigned
  | 2 => if f.f7 = 0 then checked (f.d == 0) true (.sigdec f.a f.b) else .error .unassigned
  | _ => .error .unassigned

/-- Major 0x10 (R63, R92). -/
def decodeContext (f : Fields) : Except Reject Instr :=
  match f.f3.toNat with
  | 0 => if f.f7 = 0 then checked (true) true (.hstart f.d f.a f.b) else .error .unassigned
  | 1 => if f.f7 = 0 then checked (f.d == 0 && f.b == 0) true (.hexit f.a) else .error .unassigned
  | 2 => checked (f.a == 0) true (.hjoin f.d f.immI)
  | 3 => if f.f7 = 0 then checked (f.a == 0 && f.b == 0) true (.tnext f.d) else .error .unassigned
  | 4 => if f.f7 = 0 then checked (f.d == 0 && f.b == 0) true (.tdone f.a) else .error .unassigned
  | 5 => checked (f.a == 0) true (.schrd f.d f.immI)
  | 6 => checked (f.d == 0) true (.schstage f.a f.immI)
  | 7 => if f.f7 = 0 then checked (f.a == 0 && f.b == 0) true (.schcommit f.d) else .error .unassigned
  | _ => .error .unassigned

/-- Major 0x11 (R63). -/
def decodeMessage (f : Fields) : Except Reject Instr :=
  match f.f3.toNat with
  | 0 => if f.f7 = 0 then checked (f.d == 0) true (.send f.a f.b) else .error .unassigned
  | 1 => if f.f7 = 0 then checked (f.a.extractLsb' 3 2 == 0) true (.recv f.d (f.a.extractLsb' 0 3) f.b) else .error .unassigned
  | 2 => if f.f7 = 0 then checked (f.b == 0) true (.ipop f.d f.a) else .error .unassigned
  | 3 => if f.f7 = 0 then checked (f.b == 0) true (.ipeek f.d f.a) else .error .unassigned
  | 4 => if f.f7 = 0 then checked (f.a == 0 && f.b == 0 && f.d == 0) true (.uret) else .error .unassigned
  | _ => .error .unassigned

/-- Major 0x12 (R63); an `st` field holds 0 to 15 (R56). -/
def decodeStream (f : Fields) : Except Reject Instr :=
  match f.f3.toNat with
  | 0 => if f.f7 = 0 then checked (!f.a.getLsbD 4 && f.d == 0) true (.sopen (f.a.extractLsb' 0 4) f.b) else .error .unassigned
  | 1 => if f.f7 = 0 then checked (!f.a.getLsbD 4) true (.sread (f.a.extractLsb' 0 4) f.b f.d) else .error .unassigned
  | 2 => if f.f7 = 0 then checked (!f.a.getLsbD 4) true (.swrite (f.a.extractLsb' 0 4) f.b f.d) else .error .unassigned
  | 3 => if f.f7 = 0 then checked (!f.a.getLsbD 4 && f.b == 0) true (.swait (f.a.extractLsb' 0 4) f.d) else .error .unassigned
  | 4 => if f.f7 = 0 then checked (!f.a.getLsbD 4 && f.b == 0 && f.d == 0) true (.srecall (f.a.extractLsb' 0 4)) else .error .unassigned
  | 5 => if f.f7 = 0 then checked (!f.a.getLsbD 4) true (.squery (f.a.extractLsb' 0 4) f.d f.b) else .error .unassigned
  | 6 => if f.f7 = 0 then checked (!f.a.getLsbD 4 && f.b == 0 && f.d == 0) true (.sresume (f.a.extractLsb' 0 4)) else .error .unassigned
  | 7 => if f.f7 = 0 then checked (!f.a.getLsbD 4 && f.b == 0 && f.d == 0) true (.sclose (f.a.extractLsb' 0 4)) else .error .unassigned
  | _ => .error .unassigned

/-- Major 0x13 (R63). -/
def decodeEngine (f : Fields) : Except Reject Instr :=
  match f.f3.toNat with
  | 0 => if f.f7 = 0 then checked (f.d == 0) true (.ecopy f.a f.b) else .error .unassigned
  | 1 => if f.f7 = 0 then checked (f.d == 0) true (.egather f.a f.b) else .error .unassigned
  | 2 => if f.f7 = 0 then checked (f.d == 0) true (.escatter f.a f.b) else .error .unassigned
  | 3 => if f.f7 = 0 then checked (f.d == 0) true (.ereduce f.a f.b) else .error .unassigned
  | 4 => if f.f7 = 0 then checked (f.d == 0) true (.econv f.a f.b) else .error .unassigned
  | 5 => if f.f7 = 0 then checked (f.a == 0 && f.b == 0) true (.estat f.d) else .error .unassigned
  | _ => .error .unassigned

/-- Major 0x14 (R63). -/
def decodeMatrix (f : Fields) : Except Reject Instr :=
  match f.f3.toNat with
  | 0 => if f.f7 = 0 then checked (f.a == 0 && f.d == 0) true (.mpush f.b) else .error .unassigned
  | 1 => if f.f7 = 0 then checked (f.a == 0 && f.b == 0) true (.mstat f.d) else .error .unassigned
  | 2 => if f.f7 = 0 then checked (f.b.extractLsb' 3 2 == 0 && f.d == 0) true (.rput f.a (f.b.extractLsb' 0 3)) else .error .unassigned
  | _ => .error .unassigned

/-- Major 0x18 (R123). -/
def decodeVcfg (f : Fields) : Except Reject Instr :=
  match f.f3.toNat with
  | 0 => if f.f7 = 0 then checked (true) true (.setvl f.d f.a f.b) else .error .unassigned
  | 1 => checked (f.f6 == 0) true (.setvli f.d f.a (f.immI.extractLsb' 0 6))
  | _ => .error .unassigned

/-- Major 0x19 (R155): kind is reserved. -/
def decodeVload (f : Fields) : Except Reject Instr :=
  match f.f6.toNat with
  | 0 => checked (f.f3 == 0 && f.b == 0) true (.vld f.vm f.d f.a)
  | 1 => checked (f.f3 == 0) true (.vlds f.vm f.d f.a f.b)
  | 2 => checked (f.f3 == 0) true (.vldx f.vm f.d f.a f.b)
  | 3 => checked (f.f3 == 0 && f.b == 0) true (.vldff f.vm f.d f.a)
  | 4 => need (roundOf f.b) fun r => checked (f.f3 == 0) true (.vldb f.vm r f.d f.a)
  | _ => .error .unassigned

/-- Major 0x1A (R155): kind is reserved. -/
def decodeVstore (f : Fields) : Except Reject Instr :=
  match f.f6.toNat with
  | 0 => checked (f.f3 == 0 && f.b == 0) true (.vst f.vm f.d f.a)
  | 1 => checked (f.f3 == 0) true (.vsts f.vm f.d f.a f.b)
  | 2 => checked (f.f3 == 0) true (.vstx f.vm f.d f.a f.b)
  | 3 => need (qselOf f.b) fun r => checked (f.f3 == 0) f.vm (.vqst r f.d f.a)
  | _ => .error .unassigned

/-- Major 0x1B (R135): each instruction accepts the kinds of its row. -/
def decodeVint (f : Fields) : Except Reject Instr :=
  need (kindOf f.f3) fun k =>
    match f.f6.toNat with
    | 0 => .ok (.vadd f.vm k f.d f.a f.b)
    | 1 => .ok (.vsub f.vm k f.d f.a f.b)
    | 2 => .ok (.vand f.vm k f.d f.a f.b)
    | 3 => .ok (.vor f.vm k f.d f.a f.b)
    | 4 => .ok (.vxor f.vm k f.d f.a f.b)
    | 5 => .ok (.vsll f.vm k f.d f.a f.b)
    | 6 => .ok (.vsrl f.vm k f.d f.a f.b)
    | 7 => .ok (.vsra f.vm k f.d f.a f.b)
    | 8 => .ok (.vmin f.vm k f.d f.a f.b)
    | 9 => .ok (.vmax f.vm k f.d f.a f.b)
    | 10 => .ok (.vminn f.vm k f.d f.a f.b)
    | 11 => .ok (.vmaxn f.vm k f.d f.a f.b)
    | 12 => checked true (k != .vi) (.vmul f.vm k f.d f.a f.b)
    | 13 => checked true (k != .vi) (.vmulh f.vm k f.d f.a f.b)
    | 14 => checked true (k != .vi) (.vmulhn f.vm k f.d f.a f.b)
    | 15 => checked true (k != .vi) (.vmacc f.vm k f.d f.a f.b)
    | 16 => .ok (.vsadd f.vm k f.d f.a f.b)
    | 17 => .ok (.vsaddn f.vm k f.d f.a f.b)
    | 18 => .ok (.vssub f.vm k f.d f.a f.b)
    | 19 => .ok (.vssubn f.vm k f.d f.a f.b)
    | 20 => checked true (k != .vi) (.vwadd f.vm k f.d f.a f.b)
    | 21 => checked true (k != .vi) (.vwmul f.vm k f.d f.a f.b)
    | 22 => checked true (k != .vi) (.vwmacc f.vm k f.d f.a f.b)
    | 23 => .ok (.vnclip f.vm k f.d f.a f.b)
    | _ => .error .unassigned

/-- Major 0x1C (R138): no float instruction accepts vi. -/
def decodeVfloat (f : Fields) : Except Reject Instr :=
  need (kindOf f.f3) fun k =>
    match f.f6.toNat with
    | 0 => checked true (k != .vi) (.vfadd f.vm k f.d f.a f.b)
    | 1 => checked true (k != .vi) (.vfsub f.vm k f.d f.a f.b)
    | 2 => checked true (k != .vi) (.vfmul f.vm k f.d f.a f.b)
    | 3 => checked true (k != .vi) (.vfdiv f.vm k f.d f.a f.b)
    | 4 => checked true (k != .vi) (.vfmin f.vm k f.d f.a f.b)
    | 5 => checked true (k != .vi) (.vfmax f.vm k f.d f.a f.b)
    | 6 => checked true (k != .vi) (.vfmacc f.vm k f.d f.a f.b)
    | 7 => checked true (k != .vi) (.vfnmacc f.vm k f.d f.a f.b)
    | 8 => checked (f.b == 0) (k == .vv) (.vfsqrt f.vm f.d f.a)
    | 9 => checked true (k != .vi) (.vfsgnj f.vm k f.d f.a f.b)
    | 10 => checked true (k != .vi) (.vfsgnjn f.vm k f.d f.a f.b)
    | 11 => checked (f.b == 0) (k == .vv) (.vfclass f.vm f.d f.a)
    | _ => .error .unassigned

/-- Major 0x1D (R142 to R147). -/
def decodeVmask (f : Fields) : Except Reject Instr :=
  need (kindOf f.f3) fun k =>
    match f.f6.toNat with
    | 0 => .ok (.vmseq f.vm k f.d f.a f.b)
    | 1 => .ok (.vmsne f.vm k f.d f.a f.b)
    | 2 => .ok (.vmslt f.vm k f.d f.a f.b)
    | 3 => .ok (.vmsle f.vm k f.d f.a f.b)
    | 4 => .ok (.vmsltn f.vm k f.d f.a f.b)
    | 5 => .ok (.vmslen f.vm k f.d f.a f.b)
    | 6 => checked true (k != .vi) (.vmfeq f.vm k f.d f.a f.b)
    | 7 => checked true (k != .vi) (.vmflt f.vm k f.d f.a f.b)
    | 8 => checked true (k != .vi) (.vmfle f.vm k f.d f.a f.b)
    | 9 => checked true (k == .vv && f.vm) (.vmand f.d f.a f.b)
    | 10 => checked true (k == .vv && f.vm) (.vmor f.d f.a f.b)
    | 11 => checked true (k == .vv && f.vm) (.vmxor f.d f.a f.b)
    | 12 => checked true (k == .vv && f.vm) (.vmandn f.d f.a f.b)
    | 13 => checked (f.b == 0) (k == .vv) (.vmpop f.vm f.d f.a)
    | 16 => checked (if k == .vv then f.b == 0 else f.a == 0) true (.vmv f.vm k f.d f.a f.b)
    | 17 => checked true (k != .vv) (.vslideup f.vm k f.d f.a f.b)
    | 18 => checked true (k != .vv) (.vslidedn f.vm k f.d f.a f.b)
    | 19 => .ok (.vgather f.vm k f.d f.a f.b)
    | 20 => checked true (k == .vv && f.vm) (.vcompress f.d f.a f.b)
    | 21 => checked true (k != .vv) (.vtrn f.vm k f.d f.a f.b)
    | 22 => checked true (k != .vv && f.vm) (.vxtract k f.d f.a f.b)
    | 23 => checked true (k != .vv && f.vm) (.vinsert k f.d f.a f.b)
    | 24 => checked true (!f.vm) (.vmerge k f.d f.a f.b)
    | _ => .error .unassigned

/-- Major 0x1E (R148): vv only. -/
def decodeVred (f : Fields) : Except Reject Instr :=
  need (kindOf f.f3) fun k =>
    match f.f6.toNat with
    | 0 => checked true (k == .vv) (.vredsum f.vm f.d f.a f.b)
    | 1 => checked true (k == .vv) (.vredmin f.vm f.d f.a f.b)
    | 2 => checked true (k == .vv) (.vredmax f.vm f.d f.a f.b)
    | 3 => checked true (k == .vv) (.vredminn f.vm f.d f.a f.b)
    | 4 => checked true (k == .vv) (.vredmaxn f.vm f.d f.a f.b)
    | 5 => checked true (k == .vv) (.vredand f.vm f.d f.a f.b)
    | 6 => checked true (k == .vv) (.vredor f.vm f.d f.a f.b)
    | 7 => checked true (k == .vv) (.vredxor f.vm f.d f.a f.b)
    | 8 => checked true (k == .vv) (.vfredsum f.vm f.d f.a f.b)
    | 9 => checked true (k == .vv) (.vwredsum f.vm f.d f.a f.b)
    | _ => .error .unassigned

/-- Major 0x1F (R68, R149): kind must be 0, vb holds the rounding code. -/
def decodeVconv (f : Fields) : Except Reject Instr :=
  need (roundOf f.b) fun r =>
    match f.f6.toNat with
    | 0 => checked true (f.f3 == 0) (.vcvtfi f.vm r f.d f.a)
    | 1 => checked true (f.f3 == 0) (.vcvtfn f.vm r f.d f.a)
    | 2 => checked true (f.f3 == 0) (.vcvtif f.vm r f.d f.a)
    | 3 => checked true (f.f3 == 0) (.vcvtnf f.vm r f.d f.a)
    | 4 => checked true (f.f3 == 0) (.vcvtfw f.vm r f.d f.a)
    | 5 => checked true (f.f3 == 0) (.vcvtfs f.vm r f.d f.a)
    | 6 => checked true (f.f3 == 0) (.vbdec f.vm r f.d f.a)
    | _ => .error .unassigned

/-- The major opcode map (R62). -/
def decodeFields (f : Fields) : Except Reject Instr :=
  match f.maj.toNat with
  | 0x01 => decodeLoad f
  | 0x02 => decodeStore f
  | 0x03 => decodeImm f
  | 0x04 => decodeReg f
  | 0x06 => .ok (.ldhi f.d f.immU)
  | 0x07 => .ok (.pcadd f.d f.immU)
  | 0x08 => decodeBranch f
  | 0x09 => .ok (.jal f.d f.immU)
  | 0x0A => if f.f3 = 0 then .ok (.jalr f.d f.a f.immI) else .error .unassigned
  | 0x0B => decodePtr f
  | 0x0C => decodeOx f
  | 0x0D => decodeSystem f
  | 0x0E => decodeAtomic f
  | 0x0F => decodeWait f
  | 0x10 => decodeContext f
  | 0x11 => decodeMessage f
  | 0x12 => decodeStream f
  | 0x13 => decodeEngine f
  | 0x14 => decodeMatrix f
  | 0x18 => decodeVcfg f
  | 0x19 => decodeVload f
  | 0x1A => decodeVstore f
  | 0x1B => decodeVint f
  | 0x1C => decodeVfloat f
  | 0x1D => decodeVmask f
  | 0x1E => decodeVred f
  | 0x1F => decodeVconv f
  | _ => .error .unassigned

/-- A 32-bit instruction word (R52, R54). -/
def decode32 (w : BitVec 32) : Except Reject Instr := decodeFields (fieldsOf w)

/-- The fields of a 16-bit form (R58): the upper field, d and op. -/
structure ShortFields where
  op : BitVec 5
  d : BitVec 5
  u : BitVec 5
deriving DecidableEq, Repr

/-- The halfword of the short fields, with the length bit 0 (R58). -/
def ShortFields.word (f : ShortFields) : BitVec 16 := f.u ++ f.d ++ f.op ++ 0#1

/-- The fields of a halfword (R58). -/
def shortFieldsOf (h : BitVec 16) : ShortFields where
  op := h.extractLsb' 1 5
  d := h.extractLsb' 6 5
  u := h.extractLsb' 11 5

/-- The 32 short forms (R58); op 0 with d = 0 is illegal (R59).
`noncomputable` here and below says only that Lean's compiler stores no constructor numbered above 244 in compiled code.
The definitions are plain and the kernel evaluates them. -/
noncomputable def decodeShortFields (f : ShortFields) : Except Reject Instr :=
  match f.op.toNat with
  | 0 => if f.d = 0 then .error .unassigned else .ok (.addiShort f.d f.u)
  | 1 => .ok (.addShort f.d f.u)
  | 2 => .ok (.subShort f.d f.u)
  | 3 => .ok (.andShort f.d f.u)
  | 4 => .ok (.orShort f.d f.u)
  | 5 => .ok (.xorShort f.d f.u)
  | 6 => .ok (.sllShort f.d f.u)
  | 7 => .ok (.srlShort f.d f.u)
  | 8 => .ok (.sraShort f.d f.u)
  | 9 => .ok (.sltShort f.d f.u)
  | 10 => .ok (.sltnShort f.d f.u)
  | 11 => .ok (.minShort f.d f.u)
  | 12 => .ok (.maxShort f.d f.u)
  | 13 => .ok (.minnShort f.d f.u)
  | 14 => .ok (.maxnShort f.d f.u)
  | 15 => .ok (.mulShort f.d f.u)
  | 16 => .ok (.addWShort f.d f.u)
  | 17 => .ok (.subWShort f.d f.u)
  | 18 => .ok (.slliShort f.d f.u)
  | 19 => .ok (.srliShort f.d f.u)
  | 20 => .ok (.sraiShort f.d f.u)
  | 21 => .ok (.andiShort f.d f.u)
  | 22 => .ok (.oriShort f.d f.u)
  | 23 => .ok (.xoriShort f.d f.u)
  | 24 => .ok (.sltiShort f.d f.u)
  | 25 => .ok (.sltniShort f.d f.u)
  | 26 => .ok (.paddiShort f.d f.u)
  | 27 => .ok (.beqShort f.d f.u)
  | 28 => .ok (.bneShort f.d f.u)
  | 29 => .ok (.bltShort f.d f.u)
  | 30 => .ok (.bgeShort f.d f.u)
  | _ => .ok (.jalShort (f.u ++ f.d))

/-- A 16-bit instruction (R58, R59). -/
noncomputable def decode16 (h : BitVec 16) : Except Reject Instr := decodeShortFields (shortFieldsOf h)

/-- What a byte string starts with: an instruction or a rejection, and how many bytes it takes (R52).
Bytes are little-endian (R21), bit 0 of the first halfword gives the length, no other bit takes part in framing. -/
noncomputable def decode : List Byte → Except Reject Instr × Nat
  | b0 :: b1 :: rest =>
    if b0.getLsbD 0 then
      match rest with
      | b2 :: b3 :: _ => (decode32 (b3 ++ b2 ++ b1 ++ b0), 4)
      | _ => (.error .truncated, 4)
    else (decode16 (b1 ++ b0), 2)
  | _ => (.error .truncated, 2)

/-- The four bytes of a word, lowest first (R21). -/
def wordBytes (w : BitVec 32) : List Byte :=
  [w.extractLsb' 0 8, w.extractLsb' 8 8, w.extractLsb' 16 8, w.extractLsb' 24 8]

/-- The two bytes of a halfword, lowest first (R21). -/
def halfBytes (h : BitVec 16) : List Byte := [h.extractLsb' 0 8, h.extractLsb' 8 8]

/-- The bytes of an opcode-table word: `nbits` bits of `w`, zero above them, up to the longest instruction. -/
def tableBytes (nbits w : Nat) : List Byte := wordBytes (BitVec.ofNat 32 (w % 2 ^ nbits))

/-- The instruction the decoder reads from an opcode-table word. -/
noncomputable def decodeTableWord (nbits w : Nat) : Option Instr :=
  match (decode (tableBytes nbits w)).1 with
  | .ok i => some i
  | .error _ => none

/-- The code of a scope (R67). -/
def scopeCode : Scope → BitVec 3
  | .core => 0
  | .cluster => 1
  | .die => 2
  | .package => 3
  | .system => 4

/-- The code of an ordering (R66). -/
def orderCode : Order → BitVec 2
  | .none => 0
  | .acq => 1
  | .rel => 2
  | .ar => 3

/-- The code of an operand kind (R68). -/
def kindCode : Kind → BitVec 3
  | .vv => 0
  | .vx => 1
  | .vi => 2

/-- The rounding code (R68). -/
def roundCode : VRound → BitVec 5
  | .frm => 0
  | .rne => 4
  | .rtz => 5
  | .rdn => 6
  | .rup => 7

/-- The selector code of `vqst` (R155). -/
def qselCode : QSel → BitVec 5
  | .mask => 0
  | .forceI => 4
  | .forceF => 5
  | .forceM => 6
  | .forceL => 7

/-- The R format (R54). -/
def encR (maj : BitVec 6) (f3 : BitVec 3) (f7 : BitVec 7) (d a b : BitVec 5) : Fields :=
  { maj := maj, d := d, a := a, f3 := f3, b := b, f7 := f7 }
/-- The I format (R54). -/
def encI (maj : BitVec 6) (f3 : BitVec 3) (d a : BitVec 5) (i : BitVec 12) : Fields :=
  { maj := maj, d := d, a := a, f3 := f3, b := i.extractLsb' 0 5, f7 := i.extractLsb' 5 7 }
/-- The S and B formats (R54). -/
def encS (maj : BitVec 6) (f3 : BitVec 3) (a b : BitVec 5) (i : BitVec 12) : Fields :=
  { maj := maj, d := i.extractLsb' 0 5, a := a, f3 := f3, b := b, f7 := i.extractLsb' 5 7 }
/-- The U and J formats (R54). -/
def encU (maj : BitVec 6) (d : BitVec 5) (i : BitVec 20) : Fields :=
  { maj := maj, d := d, a := i.extractLsb' 0 5, f3 := i.extractLsb' 5 3, b := i.extractLsb' 8 5, f7 := i.extractLsb' 13 7 }
/-- The V format (R54). -/
def encV (maj : BitVec 6) (f6 : BitVec 6) (vm : Bool) (kind : BitVec 3) (vd va vb : BitVec 5) : Fields :=
  { maj := maj, d := vd, a := va, f3 := kind, b := vb, f7 := f6 ++ BitVec.ofBool vm }

/-- An instruction's bits: a 32-bit word's fields, a 16-bit form's fields, or no word at all (an event row). -/
inductive Encoding where
  | long (f : Fields)
  | short (f : ShortFields)
  | noWord
deriving DecidableEq, Repr

/-- The encoding of an instruction, from the grids of R58 and R62 to R69. -/
def encodeFields : Instr → Encoding
  | .add d a b => .long (encR 0x04 0 0x0 d a b)
  | .sll d a b => .long (encR 0x04 1 0x0 d a b)
  | .slt d a b => .long (encR 0x04 2 0x0 d a b)
  | .sltn d a b => .long (encR 0x04 3 0x0 d a b)
  | .xor d a b => .long (encR 0x04 4 0x0 d a b)
  | .srl d a b => .long (encR 0x04 5 0x0 d a b)
  | .or d a b => .long (encR 0x04 6 0x0 d a b)
  | .and d a b => .long (encR 0x04 7 0x0 d a b)
  | .sub d a b => .long (encR 0x04 0 0x1 d a b)
  | .min d a b => .long (encR 0x04 1 0x1 d a b)
  | .max d a b => .long (encR 0x04 2 0x1 d a b)
  | .minn d a b => .long (encR 0x04 3 0x1 d a b)
  | .maxn d a b => .long (encR 0x04 4 0x1 d a b)
  | .sra d a b => .long (encR 0x04 5 0x1 d a b)
  | .mul d a b => .long (encR 0x04 0 0x2 d a b)
  | .mulh d a b => .long (encR 0x04 1 0x2 d a b)
  | .mulhn d a b => .long (encR 0x04 2 0x2 d a b)
  | .div d a b => .long (encR 0x04 4 0x2 d a b)
  | .divn d a b => .long (encR 0x04 5 0x2 d a b)
  | .rem d a b => .long (encR 0x04 6 0x2 d a b)
  | .remn d a b => .long (encR 0x04 7 0x2 d a b)
  | .clz d a => .long (encR 0x04 0 0x3 d a 0)
  | .ctz d a => .long (encR 0x04 1 0x3 d a 0)
  | .cpop d a => .long (encR 0x04 2 0x3 d a 0)
  | .addW d a b => .long (encR 0x04 0 0x40 d a b)
  | .sllW d a b => .long (encR 0x04 1 0x40 d a b)
  | .sltW d a b => .long (encR 0x04 2 0x40 d a b)
  | .sltnW d a b => .long (encR 0x04 3 0x40 d a b)
  | .xorW d a b => .long (encR 0x04 4 0x40 d a b)
  | .srlW d a b => .long (encR 0x04 5 0x40 d a b)
  | .orW d a b => .long (encR 0x04 6 0x40 d a b)
  | .andW d a b => .long (encR 0x04 7 0x40 d a b)
  | .subW d a b => .long (encR 0x04 0 0x41 d a b)
  | .minW d a b => .long (encR 0x04 1 0x41 d a b)
  | .maxW d a b => .long (encR 0x04 2 0x41 d a b)
  | .minnW d a b => .long (encR 0x04 3 0x41 d a b)
  | .maxnW d a b => .long (encR 0x04 4 0x41 d a b)
  | .sraW d a b => .long (encR 0x04 5 0x41 d a b)
  | .mulW d a b => .long (encR 0x04 0 0x42 d a b)
  | .mulhW d a b => .long (encR 0x04 1 0x42 d a b)
  | .mulhnW d a b => .long (encR 0x04 2 0x42 d a b)
  | .divW d a b => .long (encR 0x04 4 0x42 d a b)
  | .divnW d a b => .long (encR 0x04 5 0x42 d a b)
  | .remW d a b => .long (encR 0x04 6 0x42 d a b)
  | .remnW d a b => .long (encR 0x04 7 0x42 d a b)
  | .clzW d a => .long (encR 0x04 0 0x43 d a 0)
  | .ctzW d a => .long (encR 0x04 1 0x43 d a 0)
  | .cpopW d a => .long (encR 0x04 2 0x43 d a 0)
  | .addi d a i => .long (encI 0x03 0 d a i)
  | .slli d a c => .long (encI 0x03 1 d a (0#6 ++ c))
  | .slti d a i => .long (encI 0x03 2 d a i)
  | .sltni d a i => .long (encI 0x03 3 d a i)
  | .xori d a i => .long (encI 0x03 4 d a i)
  | .srli d a c => .long (encI 0x03 5 d a (0#6 ++ c))
  | .srai d a c => .long (encI 0x03 5 d a (0x10#6 ++ c))
  | .ori d a i => .long (encI 0x03 6 d a i)
  | .andi d a i => .long (encI 0x03 7 d a i)
  | .ldhi d i => .long (encU 0x06 d i)
  | .pcadd d i => .long (encU 0x07 d i)
  | .ldb d a i => .long (encI 0x01 0 d a i)
  | .ldh d a i => .long (encI 0x01 1 d a i)
  | .ldw d a i => .long (encI 0x01 2 d a i)
  | .ldd d a i => .long (encI 0x01 3 d a i)
  | .ldbn d a i => .long (encI 0x01 4 d a i)
  | .ldhn d a i => .long (encI 0x01 5 d a i)
  | .ldwn d a i => .long (encI 0x01 6 d a i)
  | .stb b a i => .long (encS 0x02 0 a b i)
  | .sth b a i => .long (encS 0x02 1 a b i)
  | .stw b a i => .long (encS 0x02 2 a b i)
  | .std b a i => .long (encS 0x02 3 a b i)
  | .beq a b o => .long (encS 0x08 0 a b o)
  | .bne a b o => .long (encS 0x08 1 a b o)
  | .blt a b o => .long (encS 0x08 4 a b o)
  | .bge a b o => .long (encS 0x08 5 a b o)
  | .bltn a b o => .long (encS 0x08 6 a b o)
  | .bgen a b o => .long (encS 0x08 7 a b o)
  | .jal d o => .long (encU 0x09 d o)
  | .jalr d a i => .long (encI 0x0A 0 d a i)
  | .padd d a b => .long (encR 0x0B 0 0 d a b)
  | .paddi d a i => .long (encI 0x0B 1 d a i)
  | .ptag d a t => .long (encI 0x0B 2 d a (0#4 ++ t))
  | .pset d a b => .long (encR 0x0B 3 0 d a b)
  | .pchk d a b => .long (encR 0x0B 4 0 d a b)
  | .oxset d a => .long (encR 0x0C 0 0 (0#2 ++ d) a 0)
  | .oxget d a => .long (encR 0x0C 1 0 d (0#2 ++ a) 0)
  | .oxld d a i => .long (encI 0x0C 2 (0#2 ++ d) a i)
  | .srd d n => .long (encI 0x0D 0 d 0 n)
  | .swr a n => .long (encI 0x0D 1 0 a n)
  | .trap i => .long (encI 0x0D 2 0 0 i)
  | .fenceAcq s => .long (encI 0x0D 3 0 0 (0#6 ++ scopeCode s ++ 0#3))
  | .fenceRel s => .long (encI 0x0D 3 0 0 (0#6 ++ scopeCode s ++ 1#3))
  | .fenceAr s => .long (encI 0x0D 3 0 0 (0#6 ++ scopeCode s ++ 2#3))
  | .fenceFmt => .long (encI 0x0D 3 0 0 3)
  | .fenceI => .long (encI 0x0D 3 0 0 4)
  | .tinval s a => .long (encI 0x0D 4 0 a (0#4 ++ scopeCode s ++ 0#5))
  | .purge s q a => .long (encI 0x0D 4 0 a (1#4 ++ scopeCode s ++ BitVec.ofBool q ++ 0#4))
  | .icinv s a => .long (encI 0x0D 4 0 a (2#4 ++ scopeCode s ++ 0#5))
  | .eret => .long (encI 0x0D 5 0 0 0)
  | .halt => .long (encI 0x0D 5 0 0 1)
  | .yield => .long (encI 0x0D 5 0 0 2)
  | .amoAdd w o s d a b => .long (encR 0x0E (scopeCode s) (BitVec.ofBool w ++ orderCode o ++ 0#4) d a b)
  | .amoMin w o s d a b => .long (encR 0x0E (scopeCode s) (BitVec.ofBool w ++ orderCode o ++ 1#4) d a b)
  | .amoMax w o s d a b => .long (encR 0x0E (scopeCode s) (BitVec.ofBool w ++ orderCode o ++ 2#4) d a b)
  | .amoMinn w o s d a b => .long (encR 0x0E (scopeCode s) (BitVec.ofBool w ++ orderCode o ++ 3#4) d a b)
  | .amoMaxn w o s d a b => .long (encR 0x0E (scopeCode s) (BitVec.ofBool w ++ orderCode o ++ 4#4) d a b)
  | .amoAnd w o s d a b => .long (encR 0x0E (scopeCode s) (BitVec.ofBool w ++ orderCode o ++ 5#4) d a b)
  | .amoOr w o s d a b => .long (encR 0x0E (scopeCode s) (BitVec.ofBool w ++ orderCode o ++ 6#4) d a b)
  | .amoXor w o s d a b => .long (encR 0x0E (scopeCode s) (BitVec.ofBool w ++ orderCode o ++ 7#4) d a b)
  | .amoSwap w o s d a b => .long (encR 0x0E (scopeCode s) (BitVec.ofBool w ++ orderCode o ++ 8#4) d a b)
  | .amoCas w o s d a b => .long (encR 0x0E (scopeCode s) (BitVec.ofBool w ++ orderCode o ++ 9#4) d a b)
  | .amoupdAdd w a b => .long (encR 0x0E 5 (BitVec.ofBool w ++ 0#2 ++ 0#4) 0 a b)
  | .amoupdMin w a b => .long (encR 0x0E 5 (BitVec.ofBool w ++ 0#2 ++ 1#4) 0 a b)
  | .amoupdMax w a b => .long (encR 0x0E 5 (BitVec.ofBool w ++ 0#2 ++ 2#4) 0 a b)
  | .amoupdAnd w a b => .long (encR 0x0E 5 (BitVec.ofBool w ++ 0#2 ++ 5#4) 0 a b)
  | .amoupdOr w a b => .long (encR 0x0E 5 (BitVec.ofBool w ++ 0#2 ++ 6#4) 0 a b)
  | .amoupdXor w a b => .long (encR 0x0E 5 (BitVec.ofBool w ++ 0#2 ++ 7#4) 0 a b)
  | .stv s a b => .long (encR 0x0E 6 (0#1 ++ scopeCode s ++ 0#3) 0 a b)
  | .ldv s d a b => .long (encR 0x0E 6 (0#1 ++ scopeCode s ++ 1#3) d a b)
  | .vers d a => .long (encR 0x0E 6 2 d a 0)
  | .reclaim a => .long (encR 0x0E 6 3 0 a 0)
  | .waitt d a b => .long (encR 0x0F 0 0 d a b)
  | .sigwait d a b => .long (encR 0x0F 1 0 d a b)
  | .sigdec a b => .long (encR 0x0F 2 0 0 a b)
  | .hstart d a b => .long (encR 0x10 0 0 d a b)
  | .hexit a => .long (encR 0x10 1 0 0 a 0)
  | .hjoin d n => .long (encI 0x10 2 d 0 n)
  | .tnext d => .long (encR 0x10 3 0 d 0 0)
  | .tdone a => .long (encR 0x10 4 0 0 a 0)
  | .schrd d n => .long (encI 0x10 5 d 0 n)
  | .schstage a n => .long (encI 0x10 6 0 a n)
  | .schcommit d => .long (encR 0x10 7 0 d 0 0)
  | .send a v => .long (encR 0x11 0 0 0 a v)
  | .recv d n v => .long (encR 0x11 1 0 d (0#2 ++ n) v)
  | .ipop d e => .long (encR 0x11 2 0 d e 0)
  | .ipeek d e => .long (encR 0x11 3 0 d e 0)
  | .uret => .long (encR 0x11 4 0 0 0 0)
  | .sopen s k => .long (encR 0x12 0 0 0 (0#1 ++ s) k)
  | .sread s v g => .long (encR 0x12 1 0 g (0#1 ++ s) v)
  | .swrite s v g => .long (encR 0x12 2 0 g (0#1 ++ s) v)
  | .swait s g => .long (encR 0x12 3 0 g (0#1 ++ s) 0)
  | .srecall s => .long (encR 0x12 4 0 0 (0#1 ++ s) 0)
  | .squery s g n => .long (encR 0x12 5 0 g (0#1 ++ s) n)
  | .sresume s => .long (encR 0x12 6 0 0 (0#1 ++ s) 0)
  | .sclose s => .long (encR 0x12 7 0 0 (0#1 ++ s) 0)
  | .ecopy a b => .long (encR 0x13 0 0 0 a b)
  | .egather a b => .long (encR 0x13 1 0 0 a b)
  | .escatter a b => .long (encR 0x13 2 0 0 a b)
  | .ereduce a b => .long (encR 0x13 3 0 0 a b)
  | .econv a b => .long (encR 0x13 4 0 0 a b)
  | .estat d => .long (encR 0x13 5 0 d 0 0)
  | .mpush v => .long (encR 0x14 0 0 0 0 v)
  | .mstat d => .long (encR 0x14 1 0 d 0 0)
  | .rput a n => .long (encR 0x14 2 0 0 a (0#2 ++ n))
  | .setvl d a b => .long (encR 0x18 0 0 d a b)
  | .setvli d a c => .long (encI 0x18 1 d a (0#6 ++ c))
  | .vld m d a => .long (encV 0x19 0 m 0 d a 0)
  | .vlds m d a b => .long (encV 0x19 1 m 0 d a b)
  | .vldx m d a b => .long (encV 0x19 2 m 0 d a b)
  | .vldff m d a => .long (encV 0x19 3 m 0 d a 0)
  | .vldb m r d a => .long (encV 0x19 4 m 0 d a (roundCode r))
  | .vst m d a => .long (encV 0x1a 0 m 0 d a 0)
  | .vsts m d a b => .long (encV 0x1a 1 m 0 d a b)
  | .vstx m d a b => .long (encV 0x1a 2 m 0 d a b)
  | .vqst q d a => .long (encV 0x1A 3 true 0 d a (qselCode q))
  | .vadd m k d a b => .long (encV 0x1B 0 m (kindCode k) d a b)
  | .vsub m k d a b => .long (encV 0x1B 1 m (kindCode k) d a b)
  | .vand m k d a b => .long (encV 0x1B 2 m (kindCode k) d a b)
  | .vor m k d a b => .long (encV 0x1B 3 m (kindCode k) d a b)
  | .vxor m k d a b => .long (encV 0x1B 4 m (kindCode k) d a b)
  | .vsll m k d a b => .long (encV 0x1B 5 m (kindCode k) d a b)
  | .vsrl m k d a b => .long (encV 0x1B 6 m (kindCode k) d a b)
  | .vsra m k d a b => .long (encV 0x1B 7 m (kindCode k) d a b)
  | .vmin m k d a b => .long (encV 0x1B 8 m (kindCode k) d a b)
  | .vmax m k d a b => .long (encV 0x1B 9 m (kindCode k) d a b)
  | .vminn m k d a b => .long (encV 0x1B 10 m (kindCode k) d a b)
  | .vmaxn m k d a b => .long (encV 0x1B 11 m (kindCode k) d a b)
  | .vmul m k d a b => .long (encV 0x1B 12 m (kindCode k) d a b)
  | .vmulh m k d a b => .long (encV 0x1B 13 m (kindCode k) d a b)
  | .vmulhn m k d a b => .long (encV 0x1B 14 m (kindCode k) d a b)
  | .vmacc m k d a b => .long (encV 0x1B 15 m (kindCode k) d a b)
  | .vsadd m k d a b => .long (encV 0x1B 16 m (kindCode k) d a b)
  | .vsaddn m k d a b => .long (encV 0x1B 17 m (kindCode k) d a b)
  | .vssub m k d a b => .long (encV 0x1B 18 m (kindCode k) d a b)
  | .vssubn m k d a b => .long (encV 0x1B 19 m (kindCode k) d a b)
  | .vwadd m k d a b => .long (encV 0x1B 20 m (kindCode k) d a b)
  | .vwmul m k d a b => .long (encV 0x1B 21 m (kindCode k) d a b)
  | .vwmacc m k d a b => .long (encV 0x1B 22 m (kindCode k) d a b)
  | .vnclip m k d a b => .long (encV 0x1B 23 m (kindCode k) d a b)
  | .vfadd m k d a b => .long (encV 0x1C 0 m (kindCode k) d a b)
  | .vfsub m k d a b => .long (encV 0x1C 1 m (kindCode k) d a b)
  | .vfmul m k d a b => .long (encV 0x1C 2 m (kindCode k) d a b)
  | .vfdiv m k d a b => .long (encV 0x1C 3 m (kindCode k) d a b)
  | .vfmin m k d a b => .long (encV 0x1C 4 m (kindCode k) d a b)
  | .vfmax m k d a b => .long (encV 0x1C 5 m (kindCode k) d a b)
  | .vfmacc m k d a b => .long (encV 0x1C 6 m (kindCode k) d a b)
  | .vfnmacc m k d a b => .long (encV 0x1C 7 m (kindCode k) d a b)
  | .vfsqrt m d a => .long (encV 0x1C 8 m 0 d a 0)
  | .vfsgnj m k d a b => .long (encV 0x1C 9 m (kindCode k) d a b)
  | .vfsgnjn m k d a b => .long (encV 0x1C 10 m (kindCode k) d a b)
  | .vfclass m d a => .long (encV 0x1C 11 m 0 d a 0)
  | .vmseq m k d a b => .long (encV 0x1D 0 m (kindCode k) d a b)
  | .vmsne m k d a b => .long (encV 0x1D 1 m (kindCode k) d a b)
  | .vmslt m k d a b => .long (encV 0x1D 2 m (kindCode k) d a b)
  | .vmsle m k d a b => .long (encV 0x1D 3 m (kindCode k) d a b)
  | .vmsltn m k d a b => .long (encV 0x1D 4 m (kindCode k) d a b)
  | .vmslen m k d a b => .long (encV 0x1D 5 m (kindCode k) d a b)
  | .vmfeq m k d a b => .long (encV 0x1D 6 m (kindCode k) d a b)
  | .vmflt m k d a b => .long (encV 0x1D 7 m (kindCode k) d a b)
  | .vmfle m k d a b => .long (encV 0x1D 8 m (kindCode k) d a b)
  | .vmand d a b => .long (encV 0x1D 9 true 0 d a b)
  | .vmor d a b => .long (encV 0x1D 10 true 0 d a b)
  | .vmxor d a b => .long (encV 0x1D 11 true 0 d a b)
  | .vmandn d a b => .long (encV 0x1D 12 true 0 d a b)
  | .vmpop m d a => .long (encV 0x1D 13 m 0 d a 0)
  | .vmv m k d a b => .long (encV 0x1D 16 m (kindCode k) d a b)
  | .vslideup m k d a b => .long (encV 0x1D 17 m (kindCode k) d a b)
  | .vslidedn m k d a b => .long (encV 0x1D 18 m (kindCode k) d a b)
  | .vgather m k d a b => .long (encV 0x1D 19 m (kindCode k) d a b)
  | .vcompress d a b => .long (encV 0x1D 20 true 0 d a b)
  | .vtrn m k d a b => .long (encV 0x1D 21 m (kindCode k) d a b)
  | .vxtract k d a b => .long (encV 0x1D 22 true (kindCode k) d a b)
  | .vinsert k d a b => .long (encV 0x1D 23 true (kindCode k) d a b)
  | .vmerge k d a b => .long (encV 0x1D 24 false (kindCode k) d a b)
  | .vredsum m d a b => .long (encV 0x1E 0 m 0 d a b)
  | .vredmin m d a b => .long (encV 0x1E 1 m 0 d a b)
  | .vredmax m d a b => .long (encV 0x1E 2 m 0 d a b)
  | .vredminn m d a b => .long (encV 0x1E 3 m 0 d a b)
  | .vredmaxn m d a b => .long (encV 0x1E 4 m 0 d a b)
  | .vredand m d a b => .long (encV 0x1E 5 m 0 d a b)
  | .vredor m d a b => .long (encV 0x1E 6 m 0 d a b)
  | .vredxor m d a b => .long (encV 0x1E 7 m 0 d a b)
  | .vfredsum m d a b => .long (encV 0x1E 8 m 0 d a b)
  | .vwredsum m d a b => .long (encV 0x1E 9 m 0 d a b)
  | .vcvtfi m r d a => .long (encV 0x1F 0 m 0 d a (roundCode r))
  | .vcvtfn m r d a => .long (encV 0x1F 1 m 0 d a (roundCode r))
  | .vcvtif m r d a => .long (encV 0x1F 2 m 0 d a (roundCode r))
  | .vcvtnf m r d a => .long (encV 0x1F 3 m 0 d a (roundCode r))
  | .vcvtfw m r d a => .long (encV 0x1F 4 m 0 d a (roundCode r))
  | .vcvtfs m r d a => .long (encV 0x1F 5 m 0 d a (roundCode r))
  | .vbdec m r d a => .long (encV 0x1F 6 m 0 d a (roundCode r))
  | .addiShort d u => .short ⟨0, d, u⟩
  | .addShort d u => .short ⟨1, d, u⟩
  | .subShort d u => .short ⟨2, d, u⟩
  | .andShort d u => .short ⟨3, d, u⟩
  | .orShort d u => .short ⟨4, d, u⟩
  | .xorShort d u => .short ⟨5, d, u⟩
  | .sllShort d u => .short ⟨6, d, u⟩
  | .srlShort d u => .short ⟨7, d, u⟩
  | .sraShort d u => .short ⟨8, d, u⟩
  | .sltShort d u => .short ⟨9, d, u⟩
  | .sltnShort d u => .short ⟨10, d, u⟩
  | .minShort d u => .short ⟨11, d, u⟩
  | .maxShort d u => .short ⟨12, d, u⟩
  | .minnShort d u => .short ⟨13, d, u⟩
  | .maxnShort d u => .short ⟨14, d, u⟩
  | .mulShort d u => .short ⟨15, d, u⟩
  | .addWShort d u => .short ⟨16, d, u⟩
  | .subWShort d u => .short ⟨17, d, u⟩
  | .slliShort d u => .short ⟨18, d, u⟩
  | .srliShort d u => .short ⟨19, d, u⟩
  | .sraiShort d u => .short ⟨20, d, u⟩
  | .andiShort d u => .short ⟨21, d, u⟩
  | .oriShort d u => .short ⟨22, d, u⟩
  | .xoriShort d u => .short ⟨23, d, u⟩
  | .sltiShort d u => .short ⟨24, d, u⟩
  | .sltniShort d u => .short ⟨25, d, u⟩
  | .paddiShort d u => .short ⟨26, d, u⟩
  | .beqShort d u => .short ⟨27, d, u⟩
  | .bneShort d u => .short ⟨28, d, u⟩
  | .bltShort d u => .short ⟨29, d, u⟩
  | .bgeShort d u => .short ⟨30, d, u⟩
  | .jalShort o => .short ⟨31, o.extractLsb' 0 5, o.extractLsb' 5 5⟩
  | .uliEntry => .noWord
  | .trapMessageReplyResume => .noWord
  | .trapMessageReplyPass => .noWord
  | .mzero => .noWord
  | .mma => .noWord
  | .mmab => .noWord
  | .mmaStep => .noWord
  | .mrload => .noWord
  | .mqst => .noWord
  | .mcvt => .noWord
  | .mstw => .noWord
  | .mldw => .noWord
  | .mspec => .noWord
  | .mcommit => .noWord
  | .mdiscard => .noWord
  | .mfence => .noWord
  | .msignal => .noWord
  | .matrixCommandRetire => .noWord
  | .engineUnit => .noWord
  | .engineCompletion => .noWord
  | .streamContextArrive => .noWord
  | .streamElementPass => .noWord
  | .progressMark => .noWord
  | .streamRecallArrive => .noWord
  | .streamContextReturn => .noWord
  | .streamSink => .noWord
  | .homeMiss => .noWord
  | .homeQuery => .noWord
  | .memoryResponse => .noWord
  | .plbRefill => .noWord
  | .writeBackArrival => .noWord
  | .wake => .noWord
  | .watchRewalk => .noWord
  | .faultMessage => .noWord
  | .freplyRetry => .noWord
  | .freplyError => .noWord
  | .storageWaitNotice => .noWord
  | .messageArrival => .noWord
  | .messageRetry => .noWord
  | .barrierCfgWrite => .noWord
  | .arriveLoad => .noWord
  | .arriveStore => .noWord
  | .waitLoad => .noWord
  | .barrierEventMessage => .noWord
  | .barrierReleaseMessage => .noWord
  | .lockLoad => .noWord
  | .tryLoad => .noWord
  | .lockStore => .noWord
  | .evtStore => .noWord
  | .evtLoad => .noWord
  | .estatStore => .noWord
  | .waittTimeout => .noWord
  | .powerGate => .noWord
  | .residencyReport => .noWord
  | .jobDeadline => .noWord
  | .recordHeadCheck => .noWord
  | .headAgeing => .noWord
  | .launchDispatch => .noWord
  | .partitionClaim => .noWord
  | .dispenserTnext => .noWord
  | .dispenserCommit => .noWord
  | .dispenserTdone => .noWord
  | .dispenserSchrd => .noWord
  | .taskEnd => .noWord
  | .switchDeadline => .noWord
  | .linkFlitError => .noWord
  | .linkRetrainEnd => .noWord
  | .linkstatRead => .noWord
  | .thermalTrip => .noWord
  | .pwrctlVf => .noWord
  | .pwrctlEn => .noWord
  | .pwrctlTripClear => .noWord
  | .vfClockHoldEnd => .noWord
  | .wrQuiesce => .noWord
  | .wrWriteBack => .noWord
  | .wrReset => .noWord
  | .wrRetrain => .noWord
  | .wrDiscover => .noWord
  | .wrAdmit => .noWord
  | .wrStepDone => .noWord
  | .elogbaseWrite => .noWord
  | .nqstatRead => .noWord
  | .nqstatWrite => .noWord
  | .mgmtRestartCore => .noWord
  | .mgmtWarmReset => .noWord
  | .mgmtPower => .noWord
  | .mgmtGating => .noWord
  | .mgmtRetireSlice => .noWord
  | .mgmtRetrainLink => .noWord
  | .mgmtSwitch => .noWord
  | .mgmtResume => .noWord
  | .mgmtHaltPartition => .noWord
  | .mgmtReleaseHalt => .noWord
  | .mgmtAttest => .noWord
  | .mgmtDrainLog => .noWord
  | .coldBoot => .noWord
  | .puoriImage => .noWord
  | .ptpMessage => .noWord
  | .ssdEnable => .noWord
  | .ssdDisable => .noWord
  | .nvmeCompletion => .noWord
  | .sqeFaultMessage => .noWord
  | .ffsbaseWrite => .noWord
  | .ffsPush => .noWord
  | .ffsstatRead => .noWord
  | .ffsstatWrite => .noWord
  | .srqbaseWrite => .noWord
  | .srqTailWrite => .noWord
  | .srqFlush => .noWord
  | .srqWrite => .noWord
  | .srqRead => .noWord
  | .ssdCommandTimeout => .noWord
  | .pcieLinkDown => .noWord
  | .fabricEnqueue => .noWord
  | .fabricDecrement => .noWord
  | .fabricWatch => .noWord
  | .fabricBarrierEvent => .noWord
  | .fabricBarrierRelease => .noWord
  | .fabricReleaseRequest => .noWord
  | .releaseWriteDone => .noWord
  | .fabricGrant => .noWord
  | .migrationFault => .noWord
  | .migrationFillDone => .noWord
  | .migrationGrantTimeout => .noWord
  | .fabricDecrementFailed => .noWord
  | .remoteReadResponse => .noWord
  | .rmaRead => .noWord
  | .rmaWrite => .noWord
  | .uetAtomic => .noWord
  | .connectionFail => .noWord
  | .ringConfigWrite => .noWord
  | .msgRingConfigWrite => .noWord
  | .registerWrite => .noWord
  | .resumeTemperature => .noWord
  | .portStateChange => .noWord
  | .rmaWriteAcknowledgement => .noWord
  | .cstsRdyChange => .noWord
  | .capToExpiry => .noWord

/-- The bytes of an instruction as the hardware stores them (R21, R52); an event row has none. -/
def encode (i : Instr) : List Byte :=
  match encodeFields i with
  | .long f => wordBytes f.word
  | .short f => halfBytes f.word
  | .noWord => []

/-- True of the instructions that have a word: every row of the opcode table but the event rows. -/
def Instr.hasWord (i : Instr) : Bool :=
  match encodeFields i with
  | .noWord => false
  | _ => true

end Sys2Proof
end

