-- ==== Sys2Proof/Machine/Fetch.lean ====
section
/-!
DEFINITION. Fetching an instruction's halfwords, and which context of a core issues next.
-/

namespace Sys2Proof.Machine

open Sys2Proof

/-- What fetching one halfword gives (R53). -/
inductive Half where
  | bits (h : BitVec 16)
  | trap (t : Trap)
  | wait (s : State)
deriving Repr

/-- A halfword out of an instruction-cache line, or its poison. -/
def ICLine.half (l : ICLine) (a : Nat) : Half :=
  if l.poison.getLsbD (a % 64 / 4) then .trap (Trap.poison a) else .bits (l.data.extractLsb' (8 * (a % 64)) 16)

/-- The instruction-cache line that holds the word of an address valid. -/
def Core.icHit (c : Core) (a : Nat) : Option ICLine := (tabFind c.icache (a / 64)).filter (fun l => l.valid.getLsbD (a % 64 / 4))

/-- The halfword at an address for the executing context (R53): execute right, then the instruction cache, then its home. -/
def State.fetchHalf (s : State) (a : Nat) : Half :=
  match s.core.plbMiss [(a, 2)] with
  | some u => .wait ((s.post .plbRefill { Ev.ofCtx s.focus s.curCtx with addr := u * 65536 }).wait (.plb (u * 65536)))
  | none =>
    if topByte a = 0xFF || (s.core.refusedByte s.ctx.priv Need.fetch a 2).isSome then .trap (Trap.protection a)
    else
      let ask (p : Pend) : Half :=
        match s.pend 2 p with
        | .next s1 => .wait s1
        | _ => .wait s
      match (if isTranslated a then s.hint s.focus a else none) with
      | some l =>
        if !l.v || l.migratable then ask (.home a [] a) else
        match s.core.icHit a with
        | some x => x.half a
        | none => ask (.home a [] a)
      | none =>
        match s.core.icHit a with
        | some x => x.half a
        | none => if isTranslated a then ask (.query a a) else ask (.home a [] a)

/-- The bytes of the instruction at the executing context's PC: both halfwords of a 32-bit one before it decodes (R52, R53). (DEDUCED, log 15) -/
def State.fetchBytes (s : State) (k : State → List Byte → Out) : Out :=
  let a := s.ctx.pc.toNat
  let fail (t : Trap) : Out :=
    let s0 := { s with ir := 0 }
    s0.trapped (if s.ctx.bkptHere && !s.ctx.bskip then Trap.breakpoint else t)
  match s.fetchHalf a with
  | .wait s1 => .next s1
  | .trap t => fail t
  | .bits h =>
    if !h.getLsbD 0 then k s (halfBytes h)
    else
      match s.fetchHalf ((a + 2) % 2 ^ 56) with
      | .wait s1 => .next s1
      | .trap t => fail t
      | .bits h2 => k s (halfBytes h ++ halfBytes h2)

/-- The bits of an instruction's bytes, as TRAP.WORD shows them (R45). -/
def irOf (bs : List Byte) : BitVec 32 := BitVec.ofNat 32 (fromBytesLE bs)

/-- The bytes of the instruction that the executing context goes on with: those of a store that has placed elements are at hand, so that it
can meet no trap of its fetch; others are fetched (R53, R166). -/
def State.instrBytes (s : State) (k : State → List Byte → Out) : Out :=
  if s.ctx.placed ≠ 0 then k s (bytesLE (irLen s.ctx.hand) s.ctx.hand.toNat) else s.fetchBytes k

/-- Does the inbox of a core hold an entry for a context (R243)? -/
def Core.hasEntry (c : Core) (i : Nat) : Bool := c.inbox.any (fun e => e.ctx == i)

/-- Is a user-level interrupt due in a context: EN = 1, ACT = 0, INH = 0, and an entry is there (R244)?
A store that has placed some of its bytes is not at an instruction boundary (R166). (DEDUCED, log 10) -/
def Core.uliDue (c : Core) (i : Nat) : Bool :=
  let x := c.ctx i
  x.life == .live && x.uliStat.getLsbD 0 && !x.uliStat.getLsbD 1 && !x.inh && c.hasEntry i && x.placed == 0

/-- Can a context issue: it is live and not waiting, or an interrupt takes it out of its wait (R43, R244)? -/
def Core.ready (c : Core) (i : Nat) : Bool := (c.ctx i).life == .live && ((c.ctx i).wait.isNone || c.uliDue i)

/-- The first ready context at or after the issue pointer, wrapping from 10 to 0 (R43). -/
def Core.next (c : Core) : Option (Fin 11) := ((List.range 11).map (fun k => Fin.ofNat 11 (c.issuePtr + k))).find? (fun i => c.ready i)

/-- Is a context stalled: its instruction could not issue for a miss or a busy unit (R43)? -/
def Ctx.stalled (x : Ctx) : Bool :=
  match x.wait with
  | some w =>
    match w.why with
    | .plb _ => true
    | .query _ => true
    | .mem _ _ => true
    | .probe _ => true
    | .register _ => true
    | .busy => true
    | _ => false
  | none => false

/-- A context whose instruction could not issue was not ready: it is passed over, and the issue pointer stands where it stood (R43). -/
def passOver (n i ptr : Nat) (o : Out) : Out :=
  match o with
  | .next t => if (t.ctxAt n i).stalled then .next (t.onCore n (fun c => { c with issuePtr := ptr })) else .next t
  | o => o

/-- Does a core issue at all: released, not halted, its task not ending, its cluster not halted, its die powered and its clock running (R48, R87, R351, R382, R383, R389)?
(DEDUCED, log 62) -/
def State.runs (s : State) (n : Nat) : Bool :=
  let c := s.coreAt n
  let d := s.dieAt (dieOfCore n)
  s.dstate.toList.getD (dieOfCore n) 0 != 7 && c.released && c.halted.isNone && !(s.clusterAt (clusterOfCore n)).halted && !(c.task.any (fun t => t.ending)) && !d.clockStopped && !d.vfHeld

end Sys2Proof.Machine
end

