-- ==== Sys2Proof/Machine/Messages.lean ====
section
/-!
DEFINITION. The inbox (R241, R242), user-level interrupts (R243, R244), messages and receive rings (R245 to R247, R370).
-/

namespace Sys2Proof.Machine

open Sys2Proof

/-- The oldest inbox entry of a context (R241). -/
def Core.oldestEntry (c : Core) (i : Nat) : Option InboxEntry := c.inbox.find? (fun e => e.ctx == i)

/-- An inbox without its oldest entry for a context. -/
def dropOldest (i : Nat) : List InboxEntry → List InboxEntry
  | [] => []
  | e :: rest => if e.ctx = i then rest else e :: dropOldest i rest

/-- Both doublewords of an entry written, the second last (R242). -/
def State.giveEntry (s : State) (d e : Reg) (x : Option InboxEntry) : Out :=
  match x with
  | some m => .next (((s.setG d m.dw0).setG e m.dw1).finish 4)
  | none => .next (((s.setG d 0).setG e 0).finish 4)

/-- `ipop` (R242): the entry leaves, an agent's kept entry takes its place, and the L1 acquires at system scope. -/
def execIpop (d e : Reg) (s : State) : Out :=
  match s.core.oldestEntry s.curCtx with
  | none => s.giveEntry d e none
  | some m =>
    let s1 := s.mapCore (fun c => Core.postDeferred { c with inbox := dropOldest s.curCtx c.inbox } c.deferred)
    (s1.acquire s.focus .system).giveEntry d e (some m)

/-- `ipeek` (R242). -/
def execIpeek (d e : Reg) (s : State) : Out := s.giveEntry d e (s.core.oldestEntry s.curCtx)

/-- Entry into the user-level handler (R244). -/
def Ctx.uliEnter (x : Ctx) : Ctx :=
  { x with
    fwd := none, heldReply := none, got := [], lost := []
    shadow := Vector.ofFn (fun i : Fin 8 => x.g[24 + i.val])
    g := x.g.set 31 (x.pc.setWidth 64)
    uliStat := setField x.uliStat 1 1 1
    pc := BitVec.ofNat 56 (fieldOf x.uliVec 1 55 * 2) }

/-- ULI_ENTRY (R244): a due interrupt is taken; the waiting instruction is abandoned as not begun. One whose trap was forwarded (R47)
is one of them: it traps again when it executes again, and a reply to the first message finds nobody. (DEDUCED, log 87) -/
def execUliEntry (s : State) : Out :=
  if s.core.uliDue s.curCtx then .next (((s.takeTrapMsg s.focus s.curCtx).abandon s.focus s.curCtx).mapCtx Ctx.uliEnter) else .next s

/-- Return from the user-level handler (R244). -/
def Ctx.uliReturn (x : Ctx) : Ctx :=
  let t := x.g[31]
  let back : Vector Word 32 := Vector.ofFn (fun i : Fin 32 => if h : 24 ≤ i.val then x.shadow[i.val - 24] else x.g[i.val])
  { x.unskip with
    g := back
    uliStat := setField x.uliStat 1 1 0
    pc := BitVec.ofNat 56 (fieldOf t 1 55 * 2) }

/-- `uret` (R244). -/
def execUret (s : State) : Out :=
  if !s.ctx.uliStat.getLsbD 1 then s.trapped (Trap.illegal 2) else .next (s.mapCtx Ctx.uliReturn)

/-- Doubleword `i` of a partition's descriptor (R338); one that cannot be read as good data counts as zero (R7). (DEDUCED, logs 55, 93) -/
def State.partDesc (s : State) (part i : Nat) : Word :=
  let w := s.peekWord 0 (fieldOf (s.dieReg 0 0x108) 0 48 + 64 * part + 8 * i)
  if w.2 then 0 else w.1

/-- Does a partition hold a cluster (R338)? -/
def State.partHolds (s : State) (part cl : Nat) : Bool := (s.partDesc part (cl / 64)).getLsbD (cl % 64)

/-- The clusters of a partition, rising. -/
def State.partClusters (s : State) (part : Nat) : List Nat := (List.range 252).filter (fun c => s.partHolds part c)

/-- The save area of a partition (R338). -/
def State.saveBase (s : State) (part : Nat) : Nat := fieldOf (s.partDesc part 7) 0 48

/-- Doubleword 0 of the descriptor of a receive ring (R245). -/
def Core.ringDesc (c : Core) (r : Nat) : Word := BitVec.ofNat 64 (fromBytesLE (c.getSpad (0x7FF00 + 32 * r) 8))

/-- Is doubleword 0 of a ring's descriptor poisoned? -/
def Core.ringPoisoned (c : Core) (r : Nat) : Bool := (wordsTouched (0x7FF00 + 32 * r) 8).any (fun w => c.spadPoison.contains w)

/-- CAP of a receive ring, 0 for one whose descriptor breaks the rules (R245), or cannot be read as good data (R7). (DEDUCED, log 93) -/
def Core.ringCap (c : Core) (r : Nat) : Nat :=
  let d := c.ringDesc r
  let cap := fieldOf d 40 12
  if c.ringPoisoned r ∨ fieldOf d 52 12 ≠ 0 ∨ fieldOf d 24 16 ≠ 0 ∨ 10 < fieldOf d 20 4 ∨ fieldOf d 0 19 % 128 ≠ 0
      ∨ 0x7FF00 < fieldOf d 0 19 + 128 * cap then 0 else cap

/-- What the interface keeps of a ring. -/
def Core.msgRing (c : Core) (r : Nat) : MsgRing := c.rings.toList.getD r { head := 0, tail := 0, fill := 0 }

/-- The offset of a slot of a ring (R245). -/
def Core.slotOff (c : Core) (r k : Nat) : Nat := fieldOf (c.ringDesc r) 0 19 + 128 * k

/-- The header of a message (R245). -/
def Msg.header (m : Msg) : Word :=
  BitVec.ofNat 64 (m.key % 4096 * 2 ^ 52 + m.ctx % 16 * 2 ^ 48 + m.data.length % 16 * 2 ^ 44 + m.seq % 2 ^ 32)

/-- A message as its event carries it. -/
def Msg.toEv (m : Msg) : Ev :=
  { core := m.dest, ctx := m.ctx, unit := m.ring, die := m.part, addr := m.key, val := BitVec.ofNat 64 m.sender, aux := m.seq,
    flag := false, data := m.data }

/-- The message that an event carries. -/
def Ev.toMsg (e : Ev) : Msg :=
  { key := e.addr, sender := e.val.toNat, ctx := e.ctx, part := e.die, dest := e.core, ring := e.unit, seq := e.aux, data := e.data }

/-- The core on which the sending task runs now (R370). -/
def State.senderOf (s : State) (m : Msg) : Nat :=
  ((s.cores.find? (fun nc => nc.2.task.any (fun t => t.key == m.key && t.part == m.part))).map (fun nc => nc.1)).getD m.sender

/-- One of the sender's messages is no longer out; contexts that wait to send look again (R246). -/
def State.settled (s : State) (m : Msg) : State :=
  (s.onCore m.sender (fun c => { c with unaccepted := c.unaccepted - 1 })).wakeBusy m.sender

/-- `send` (R246). Sequence numbers are counted per sender key, with the core that the key names (R370). -/
def execSend (a : Reg) (v : VRegNo) (s : State) : Out :=
  let w := s.g a
  let dest := fieldOf w 0 12
  let ring := fieldOf w 12 3
  if fieldOf w 19 45 ≠ 0 ∨ w.getLsbD 15 then s.trapped (Trap.illegal 1)
  else if 4032 ≤ dest then s.trapped (Trap.illegal 2)
  else if s.ctx.cidx ≠ 0 ∧ 8 ≤ v.toNat then s.trapped (Trap.illegal 4)
  else
    match s.core.task with
    | none => s.trapped { Trap.protection 0 with addr := w }
    | some t =>
      if !s.partHolds t.part (clusterOfCore dest) then s.trapped { Trap.protection 0 with addr := w }
      else if 8 ≤ s.core.unaccepted ∨ !s.core.retry.isEmpty then .next (s.wait .busy)
      else
        let k := dest * 8 + ring
        let seq := tabGet 0 (s.coreAt t.key).seqOut k
        let m : Msg := { key := t.key, sender := s.focus, ctx := s.ctx.cidx, part := t.part, dest := dest, ring := ring, seq := seq,
                         data := (chunks 64 (fieldOf w 16 3 + 1) (s.ctx.getV v.toNat).toNat).map (fun x => BitVec.ofNat 64 x) }
        let s1 := s.mapCore (fun c =>
          { c with unaccepted := c.unaccepted + 1, task := some { t with sent := t.sent + 1 } })
        let s2 := s1.onCore t.key (fun c => { c with seqOut := tabSet 0 c.seqOut k ((seq + 1) % 2 ^ 32) })
        .next ((s2.post .messageArrival m.toEv).finish 4)

/-- The slot at a ring's HEAD taken by a context: the header and the data, and the ring one shorter (R247). -/
def State.takeSlot (s : State) (n i r : Nat) (d : Reg) (v : Nat) : State :=
  let c := s.coreAt n
  let m := c.msgRing r
  let cap := c.ringCap r
  let off := c.slotOff r m.head
  let hdr : Word := BitVec.ofNat 64 (fromBytesLE (c.getSpad off 8))
  let data := BitVec.ofNat 512 (fromBytesLE (c.getSpad (off + 8) 64))
  let s1 := s.onCore n (fun c => c.putRing r { m with head := (m.head + 1) % cap, fill := m.fill - 1 })
  s1.onCtx n i (fun x => (x.setV v (setField (x.getV v) 0 512 data.toNat)).setG d hdr)

/-- A message placed in its ring, which has room: the slot, the ring's state, and an arrival entry (R245, R247). (DEDUCED, log 29) -/
def State.placeMsg (s : State) (m : Msg) : State :=
  let c := s.coreAt m.dest
  let r := c.msgRing m.ring
  let cap := c.ringCap m.ring
  let words := m.header :: m.data
  let bytes := words.flatMap (fun w => bytesLE 8 w.toNat)
  let c1 := c.putSpad (c.slotOff m.ring r.tail) (bytes ++ List.replicate (128 - bytes.length) 0)
  let c2 := c1.putRing m.ring { r with tail := (r.tail + 1) % cap, fill := r.fill + 1 }
  let s1 := (s.setCore m.dest { c2 with task := c2.task.map (fun t => { t with received := t.received + 1 }) }).settled m
  let d := c.ringDesc m.ring
  if d.getLsbD 19 then
    s1.postInbox m.dest (fieldOf d 20 4) 0x1100 (inboxDw0 0x11 0 (m.ring * 2 ^ 48 + r.fill + 1)) m.header
  else s1

/-- The interface reads the descriptor of a ring: an uncorrectable error there is logged (R6, R245). -/
def State.readRing (s : State) (n r : Nat) : State :=
  if (s.coreAt n).ringPoisoned r then s.logCore n 0x02 (0xFF * 2 ^ 48 + 0x7FF00 + 32 * r) 0 else s

/-- Does a ring of a core accept a message now (R246)? -/
def Core.ringAccepts (c : Core) (r : Nat) : Bool := decide ((c.msgRing r).fill < c.ringCap r)

/-- A waiting `recv` of a ring that holds a message is served, in the order of issue (R247). -/
def State.serveRecv (s : State) (n r : Nat) : State :=
  let c := s.coreAt n
  match c.recvQueue.find? (fun q => q.1 == r) with
  | some q =>
    if (c.msgRing r).fill = 0 then s else
    match (c.ctx q.2).wait with
    | some w =>
      let s1 := s.onCore n (fun c => { c with recvQueue := c.recvQueue.filter (fun x => x != q) })
      ((s1.takeSlot n q.2 r (irD w.ir) (w.ir.extractLsb' 20 5).toNat)).answer n q.2 none
    | none => s
  | none => s

/-- Held messages moved to their ring while they are the next of their sender and the ring accepts them (R370). -/
def State.drainRing (s : State) (n r : Nat) : Nat → State
  | 0 => s
  | fuel + 1 =>
    let c := s.coreAt n
    match c.reorder.find? (fun m => m.ring == r && m.seq == tabGet 0 c.expected (m.key * 8 + r)) with
    | none => s
    | some m =>
      if !c.ringAccepts r then s else
      let s1 := s.onCore n (fun c => { c with
        reorder := c.reorder.filter (fun x => x != m), expected := tabSet 0 c.expected (m.key * 8 + r) ((m.seq + 1) % 2 ^ 32) })
      ((s1.placeMsg m).serveRecv n r).drainRing n r fuel

/-- A message refused by its destination goes back to its sender's retry slot, which keeps every one that comes back (R246).
(DESIGN CHOICE, log 111) -/
def State.refuseMsg (s : State) (m : Msg) : State :=
  (s.onCore m.sender (fun c => { c with retry := c.retry ++ [m] })).retryLater .messageRetry { Ev.empty with core := m.sender }

/-- A message of a partition leaves the mesh into the spill buffer of the router where it is: it is kept for the resume, and its packet stands in
the spill region of that router's die, SAVEB + 32K MiB + 4d MiB (R371). The die is the sender's, and what a packet looks like there is left
open. (DESIGN CHOICE, log 58) -/
def State.spillMsg (s : State) (part : Nat) (m : Msg) : State :=
  let d := dieOfCore m.sender
  let k := ((s.partAt part).spill.filter (fun x => dieOfCore x.sender == d)).length
  let pa := s.saveBase part + 32 * (s.partClusters part).length * 2 ^ 20 + 4 * d * 2 ^ 20 + 128 * (k % 2 ^ 15)
  let bs := (List.range 16).flatMap (fun i => bytesLE 8 (Config.freeWord (s.freeCtr + i)).toNat)
  ({ s with freeCtr := s.freeCtr + 16 }.poke d pa bs).onPart part (fun p => { p with spill := p.spill ++ [m] })

/-- MESSAGE_ARRIVAL (R246, R370). An error reply returns the message as undeliverable (R384). A message to a core that has yielded, or of a
partition that is switched out, is spilled (R371). A core that runs no task of the sender's partition refuses the message for good: it is
dropped and logged, and the sending context gets an undeliverable entry (R247). (DEDUCED, log 29) -/
def execMessageArrival (s : State) : Out :=
  let m := s.ev.toMsg
  let c := s.coreAt m.dest
  let k := m.key * 8 + m.ring
  let p := s.partAt m.part
  let undeliverable (s : State) : State :=
    let n := s.senderOf m
    (s.settled m).postInbox n m.ctx 0x1101 (inboxDw0 0x11 1 (m.ring * 2 ^ 48 + m.dest)) (m.data.getD 0 0)
  match s.reach (dieOfCore m.sender) (dieOfCore m.dest) false with
  | some code => .next (undeliverable (s.logCore m.sender 0x06 (m.dest * 8 + m.ring) (BitVec.ofNat 64 code)))
  | none =>
  if p.switchedOut || p.saved.any (fun v => 16 * v.cluster + v.slot == m.dest && decide (v.slot < 16)) then
    .next (s.spillMsg m.part m)
  else if !c.task.any (fun t => t.part == m.part) then
    .next (undeliverable (s.logCore (s.senderOf m) 0x0A (m.dest * 8 + m.ring) 0))
  else if m.seq = tabGet 0 c.expected k then
    let s := s.readRing m.dest m.ring
    if c.ringAccepts m.ring then
      let s1 := s.onCore m.dest (fun c => { c with expected := tabSet 0 c.expected k ((m.seq + 1) % 2 ^ 32) })
      .next (((s1.placeMsg m).serveRecv m.dest m.ring).drainRing m.dest m.ring 64)
    else .next (s.refuseMsg m)
  else if c.reorder.length < 64 then .next (s.onCore m.dest (fun c => { c with reorder := c.reorder ++ [m] }))
  else .next (s.refuseMsg m)

/-- MESSAGE_RETRY (R246): the messages of a core's retry slot are offered again, in the order in which they came back. -/
def execMessageRetry (s : State) : Out :=
  let n := s.ev.core
  .next ((s.coreAt n).retry.foldl (fun a m => a.post .messageArrival m.toEv) ((s.onCore n (fun c => { c with retry := [] })).wakeBusy n))

/-- `recv` (R247). A slot with poisoned data raises the data-poison trap (R249). -/
def execRecv (d : Reg) (n : BitVec 3) (v : VRegNo) (s : State) : Out :=
  let r := n.toNat
  let c := s.core
  if c.ringCap r = 0 then (s.readRing s.focus r).trapped (Trap.illegal 2)
  else if s.ctx.cidx ≠ 0 ∧ 8 ≤ v.toNat then s.trapped (Trap.illegal 4)
  else if (c.msgRing r).fill = 0 then
    .next ((s.mapCore (fun c => { c with recvQueue := c.recvQueue ++ [(r, s.curCtx.val)] })).wait (.ring r))
  else
    let off := c.slotOff r (c.msgRing r).head
    match (wordsTouched off 72).find? (fun w => c.spadPoison.contains w) with
    | some w => s.trapped (Trap.poison (0xFF * 2 ^ 48 + 4 * w))
    | none => .next (((s.takeSlot s.focus s.curCtx r d v.toNat).drainRing s.focus r 64).finish 4)

/-- MSG_RING_CONFIG_WRITE (R245): a store to a descriptor's doubleword 0 resets the ring and discards its messages; messages held
for it look at the new descriptor. -/
def execMsgRingConfigWrite (s : State) : Out :=
  .next ((if s.ev.flag then s else s.resetRing s.ev.core s.ev.unit).drainRing s.ev.core s.ev.unit 64)

end Sys2Proof.Machine
end

