-- ==== Sys2Proof/Machine/Streams.lean ====
section
/-!
DEFINITION. Streams (R169 to R197): the slots, opening and closing, `sread` and `swrite`, the fold of a reduce stream, floating,
hopping, marks, recalls, events and errors.
-/

namespace Sys2Proof.Machine

open Sys2Proof

/-- Slot `i` of a core. -/
def Core.stream (c : Core) (i : Nat) : Stream := c.streams.toList.getD i Stream.reset

/-- The core with a slot replaced. -/
def Core.setStream (c : Core) (i : Nat) (st : Stream) : Core :=
  if h : i < 16 then { c with streams := c.streams.set i st h } else c

/-- Slot `i` of core `n`. -/
def State.streamAt (s : State) (n i : Nat) : Stream := (s.coreAt n).stream i

/-- The state with a slot replaced. -/
def State.setStream (s : State) (n i : Nat) (st : Stream) : State := s.onCore n (fun c => c.setStream i st)

/-- Does a stream read billets (R171)? -/
def Stream.billets (st : Stream) : Bool := st.family != .dense

/-- The bytes of a dense element. -/
def Stream.width (st : Stream) : Nat := etypeBytes st.etype

/-- Is BASE tagged, so that an access needs the F right (R76)? -/
def Stream.tagged (st : Stream) : Bool := ptrCode st.base != 0

/-- The address of element `k`; `idx` is its index entry in an indirect pattern (R171). -/
def Stream.addr (st : Stream) (k idx : Nat) : Int :=
  if st.pat = 1 then (ptrAddr st.base : Int) + idx * st.stride 0 else st.affineAddr k

/-- The storage runs of an element: its bytes, or the header halfword and the code byte of a billet's element (R113, R171). Where BASE is no
multiple of P, the header is that of the billet that holds the logical address. (DESIGN CHOICE, log 102) -/
def Stream.runs (st : Stream) (k idx : Nat) : List (Nat × Nat) :=
  let a := (st.addr k idx).toNat
  if st.billets then [(headerOf st.payload a, 2), (storeOf st.payload (a + k % st.count 0 % st.blen * st.family.codeBits / 8), 1)]
  else [(a, st.width)]

/-- The storage address by which an element is reported. -/
def Stream.elemAddr (st : Stream) (k idx : Nat) : Nat := ((st.runs k idx).getLastD (0, 0)).1

/-- The address of the index entry of element `k` (R171). -/
def Stream.idxAddr (st : Stream) (k : Nat) : Nat := st.idxb + 4 * k

/-- Reserved fields of a descriptor (R170). With PAT 2 or 3, which no rule supports, `ox2` and `ox3` are read as those of an affine pattern,
so their reserved bits come before the unsupported PAT. (DEDUCED, log 25; DESIGN CHOICE, log 101) -/
def Stream.reservedOk (st : Stream) : Bool :=
  let ox (i : Nat) : Word := st.desc.toList.getD i 0
  fieldOf (ox 1) 48 16 == 0 && (if st.pat = 1 then fieldOf (ox 2) 56 8 == 0 else fieldOf (ox 2) 48 16 == 0 && fieldOf (ox 3) 48 16 == 0)
    && fieldOf (ox 4) 48 16 == 0 && fieldOf (ox 4) 30 2 == 0 && fieldOf (ox 4) 25 3 == 0 && fieldOf (ox 4) 19 1 == 0
    && fieldOf (ox 4) 14 2 == 0 && fieldOf (ox 4) 2 2 == 0

/-- A dense type that an operation supports (R173). -/
def streamType (kind op t : Nat) : Bool :=
  if kind < 2 then decide (t ≤ 11)
  else match op with
    | 1 => decide (t ≤ 7)
    | 2 => t == 9 || t == 10
    | 6 => t == 9 || t == 0
    | _ => decide (t ≤ 11)

/-- The checks of row 2 of R172 that need no record. (DEDUCED, log 25) -/
def Stream.fieldsOk (st : Stream) : Bool :=
  let etf := fieldOf st.desc[4] 4 4
  decide (st.kind ≤ 2) && decide (st.pat ≤ 1) && (!st.flt || st.kind == 2)
    && (if st.kind = 2 then decide (1 ≤ st.op) && decide (st.op ≤ 6) else st.op == 0)
    && (st.sel == 0 || (decide (4 ≤ st.sel) && st.kind == 1 && st.tagged))
    && (st.dest || st.result0 == 0) && (if st.tagged then etf == 0 else streamType st.kind st.op etf)
    && (st.op == 6 || st.w == 0) && (st.pat != 1 || st.desc[3] == 0)

/-- The checks of row 2 of R172 on the data of a valid record; a reserved block-length code, which row 3 refuses, gives no blen and no P. -/
def Stream.dataOk (st : Stream) : Bool :=
  if st.billets then
    (decide (st.kind < 2) || st.op == 6) && st.pat == 0 && st.stride 0 == 0 && (st.sel != 7 || st.fmt.ltab != 0)
      && (decide (3 < ptrBlc st.base) || (st.count 0 % st.blen == 0 && st.stride 1 % st.payload == 0 && st.stride 2 % st.payload == 0))
  else st.sel == 0 && streamType st.kind st.op st.etype

/-- The least and greatest offset that dimension `i` adds. -/
def Stream.span (st : Stream) (i : Nat) : Int × Int :=
  let m := ((st.count i : Int) - 1) * st.stride i
  (minInt 0 m, maxInt 0 m)

/-- Does every byte of every element of an affine stream lie below 2^56, in storage terms for billets (R172)? -/
def Stream.inRange (st : Stream) : Bool :=
  if st.pat = 1 ∨ st.total = 0 then true else
  let b : Int := ptrAddr st.base
  let lo := b + (st.span 1).1 + (st.span 2).1
  let hi := b + (st.span 1).2 + (st.span 2).2
  if st.billets then
    decide (0 ≤ lo) && decide (billetEnd st.payload hi.toNat (st.count 0 / st.blen) ≤ 2 ^ 56)
  else decide (0 ≤ lo + (st.span 0).1) && decide (hi + (st.span 0).2 + st.width ≤ (2 : Int) ^ 56)

/-- The bytes of a stream's result in memory (R183). -/
def Stream.resultBytes (st : Stream) : Nat := if st.op = 6 then 32 else 8

/-- Is RESULT naturally aligned, plain, translated and writable by the domain (R172)? With code 0 its block-length code is ignored (R97).
(DEDUCED, log 36) -/
def State.resultOk (s : State) (n : Nat) (st : Stream) : Bool :=
  let r := ptrAddr st.result0
  ptrCode st.result0 == 0 && r % st.resultBytes == 0 && isTranslated r && (Need.store false).granted (s.domainRights (dieOfCore n) (s.coreAt n).domain (r / 65536))

/-- The initial partial of a stream (R175). -/
def Stream.initial (st : Stream) : BitVec 144 :=
  let w := 8 * st.width
  match st.op, floatOf st.etype with
  | 3, some f => BitVec.ofNat 144 f.nan
  | 4, some f => BitVec.ofNat 144 f.nan
  | 3, none => BitVec.ofNat 144 (if signedType st.etype then 2 ^ (w - 1) - 1 else 2 ^ w - 1)
  | 4, none => if signedType st.etype then BitVec.ofNat 144 (wrapInt (-(2 : Int) ^ (w - 1)) 64) else 0
  | _, _ => 0

/-- Is a byte in the footprint of a stream (R191)? -/
def Stream.inFootprint (st : Stream) (a : Nat) : Bool := (({ st with known := StreamPos.start } : Stream).hits a).isSome

/-- Does the hold buffer hold a byte of another slot inside a stream's footprint (R193)? -/
def Core.heldOverlap (c : Core) (slot : Nat) (st : Stream) : Bool :=
  c.hold.any (fun e => e.slot != slot && e.bytes.any (fun b => st.inFootprint (e.line * 64 + b.1)))

/-- Does the domain's read right cover a run of translated bytes? -/
def State.readable (s : State) (n ea k : Nat) : Bool :=
  k == 0 || (isTranslated ea && isTranslated (ea + k - 1) && decide (ea + k ≤ 2 ^ 56)
    && (List.range ((ea + k - 1) / 65536 + 1 - ea / 65536)).all (fun i =>
      bitOf (s.domainRights (dieOfCore n) (s.coreAt n).domain (ea / 65536 + i)) 0))

/-- Does the domain's read right cover the whole footprint (R184)? (DEDUCED, log 36) -/
def State.footprintReadable (s : State) (n : Nat) (st : Stream) : Bool :=
  if st.pat = 1 then
    let (lo, hi) := st.indirectRange
    decide (0 ≤ lo) && decide (hi < 0xFE * (2 : Int) ^ 48)
      && bitOf (s.rightsOver n 8256 (lo.toNat / 65536) (hi.toNat / 65536) 0b1111) 0 && s.readable n st.idxb (4 * st.count 0)
  else (List.range st.total).all (fun k => (st.runs k 0).all (fun r => s.readable n r.1 r.2))

/-- The segments that the check of a footprint reads, with what is wrong with them logged (R6, R302). -/
def State.readFootprint (s : State) (n : Nat) (st : Stream) : State :=
  let dom := (s.coreAt n).domain
  let units := if st.pat = 1 then [] else (List.range st.total).flatMap (fun k => (st.runs k 0).map (fun r => r.1 / 65536))
  let range := if st.pat = 1 then
      let (lo, hi) := st.indirectRange
      if lo < 0 ∨ (0xFE * (2 : Int) ^ 48) ≤ hi then [] else s.segmentsOver n 8256 (lo.toNat / 65536) (hi.toNat / 65536) 0b1111 []
    else []
  let pas := units.foldl (fun acc u =>
    let read := s.segmentsRead (dieOfCore n) dom u
    if acc.length < read.length then read else acc) range
  if pas.isEmpty then s else s.logSegments n dom pas

/-- The dirty lines of the core's L1, private or fused, that touch a footprint written back (R184). -/
def State.writeBackFootprint (s : State) (n : Nat) (st : Stream) : State :=
  (s.l1Cores n).foldl (fun a m =>
    (a.coreAt m).dirtyLines.foldl (fun b line =>
      if ((b.coreAt m).dirtyWords line).any (fun w => (bytesAt (4 * w.1) 4).any (fun x => st.inFootprint x)) then b.writeBackLine m line
      else b) a) s

/-- The site of the line of an address (R185): its home slice, or its channel when the line is absent there and NOALLOC is set.
While no home is known, the walk slice stands for it. -/
def State.siteOf (s : State) (d va : Nat) (noalloc : Bool) : Nat :=
  match s.queryLeaf d va with
  | (.leaf l, s1) =>
    match s1.homeOf d l va with
    | (.slice h, s2) =>
      let pa := l.frame + va % l.pageBytes
      if noalloc && (s2.sliceLine h (va / 64)).isNone && l.v && paHbm pa then
        0x8000 + paDie pa * 64 + paStack pa * 32 + paChannel pa
      else h
    | _ => s.walkSlice d va
  | _ => s.walkSlice d va

/-- The die of a site (R185). -/
def siteDie (site : Nat) : Nat := if 0x8000 ≤ site then site / 64 % 4 else dieOfCore site

/-- The port of a core, at which its home slice lies too (R363); a site that is a channel has its id for a port (R185). -/
def ownerPort (n : Nat) : Nat := n

/-- The event of a stream unit or site about a slot; a packet on the hop channel names the port it left in `aux`. -/
def streamEv (n slot addr : Nat) : Ev := { Ev.empty with core := n, unit := slot, addr := addr, die := dieOfCore n }

/-- Is a move one of the stream unit or of a site for a slot of core `n`? -/
def Move.ofSlot (n slot : Nat) : Move → Bool
  | .event i e => e.core == n && e.unit == slot && (i == .streamContextArrive || i == .streamElementPass || i == .streamRecallArrive
      || i == .streamContextReturn || i == .streamSink)
  | _ => false

/-- Is a move a progress mark of a slot of core `n`? -/
def Move.marks (n slot : Nat) : Move → Bool
  | .event i e => e.core == n && e.unit == slot && i == .progressMark
  | _ => false

/-- What the stream unit or a site has still to do for one slot leaves the agenda and the miss tables; the marks it has sent stay. -/
def State.stopSlot (s : State) (n slot : Nat) : State := s.dropMoves (fun m => m.ofSlot n slot)

/-- An event of a stream posted to its owner context's inbox (R189). -/
def State.streamPost (s : State) (n slot event prog : Nat) (dw1 : Word) : State :=
  s.postInbox n (s.streamAt n slot).ctxn 0x1200 (inboxDw0 0x12 event (slot * 2 ^ 48 + prog % 2 ^ 48)) dw1

/-- Is an event of the mask enabled: 0 float, 1 sink, 2 recall, 3 hop (R170)? -/
def Stream.evtOn (st : Stream) (i : Nat) : Bool := bitOf st.evt i

/-- The entries of a slot released: those whose index PROG has passed, or all; stores that the slot held back with another one are looked
at again (R192). -/
def State.releaseSlot (s : State) (n slot : Nat) (prog : Option Nat) : State :=
  (s.releaseHold n (fun e => e.slot == slot &&
    (match prog, e.index with
      | none, _ => true
      | some p, some k => decide (k < p)
      | some _, none => false))).wakeBusy n

/-- A mark applied to a floated stream (R186, R192): the owner's copy follows it, passed entries are released, a new site is traced. -/
def State.applyMark (s : State) (n slot prog site : Nat) (park : Bool) : State :=
  let st := s.streamAt n slot
  if st.state ≠ .floated then s
  else
    let s1 := s.setStream n slot { st with
      known := { st.known with prog := prog, park := park, site := site }
      forwards := if st.recalling then st.forwards else st.forwards.filter (fun f => f.2 != site) }
    let s2 := if site ≠ st.known.site && st.evtOn 3 then s1.streamPost n slot 1 prog (BitVec.ofNat 64 site) else s1
    s2.releaseSlot n slot (some prog)

/-- A mark of the agenda applied. -/
def State.markMove (s : State) (m : Move) : State :=
  match m with
  | .event _ e => s.applyMark e.core e.unit e.val.toNat e.addr e.flag
  | _ => s

/-- The marks of a slot that are still on their way, applied in the order sent: the context comes back, or the slot sinks, behind all of
them (R186, R189). -/
def State.flushMarks (s : State) (n slot : Nat) : State :=
  let ms := s.agenda.filter (fun m => m.marks n slot)
  ms.foldl State.markMove { s with agenda := s.agenda.filter (fun m => !m.marks n slot) }

/-- Does a context wait at a slot as `p` says? -/
def Ctx.waitsSlot (x : Ctx) (p : Why → Bool) : Bool :=
  match x.wait with
  | some w => p w.why
  | none => false

/-- The contexts of a core that wait as `p` says. -/
def Core.waiters (c : Core) (p : Why → Bool) : List Nat := (List.range 11).filter (fun i => (c.ctx i).waitsSlot p)

/-- A slot is closed (R182): its entries are released, the slot is FREE, and a context that waits for its sink gets detail 2. Marks on their
way trace no event any more. -/
def State.freeSlot (s : State) (n slot : Nat) : State :=
  let s0 := (s.stopSlot n slot).dropMoves (fun m => m.marks n slot)
  let s1 := (s0.releaseSlot n slot none).setStream n slot Stream.reset
  let s2 := ((s1.coreAt n).waiters (fun w => w == .sink slot)).foldl (fun a i => a.trapWaiting n i (Trap.illegal 2)) s1
  (((s2.coreAt n).waiters (fun w => w == .stream slot)).foldl (fun a i => a.answer n i none) s2).wakeBusy n

/-- The precise trap of a slot that sank with an error (R195). -/
def Stream.trap (st : Stream) : Trap :=
  if st.err = 4 then Trap.range st.errAddr
  else if st.err = 5 then { Trap.protection 0 with addr := st.errAddr } else { Trap.poison 0 with addr := st.errAddr }

/-- The contexts that wait for a slot's sink are answered: the result after an acquire at system scope, or the error's trap (R178). -/
def State.wakeSink (s : State) (n slot : Nat) : State :=
  let st := s.streamAt n slot
  ((s.coreAt n).waiters (fun w => w == .sink slot)).foldl (fun a i =>
    if st.err ≠ 0 then a.endWaiting n i st.trap else (a.acquire n .system).answer n i (some st.result)) s

/-- The result of a stream that has passed every element, with its flags (R183). -/
def Stream.finalResult (st : Stream) (p : StreamPos) : Word × Flags :=
  if st.kind ≠ 2 then (BitVec.ofNat 64 st.total, 0)
  else if st.op = 6 then
    let r := windowOut fmtF32 (rmodeOf st.rm) { a := p.acc, poison := p.pois } st.w
    (BitVec.ofNat 64 r.1, r.2)
  else (p.acc.setWidth 64, 0)

/-- The position of a stream where its context is. -/
def Stream.pos (st : Stream) : StreamPos := if st.state = .floated then st.live else st.known

/-- A slot becomes SUNK: the flags reach the owner context, the window closes, the event is posted and the waiters answered (R183, R189).
A close that waits wins: the slot is FREE, without an event (R197). -/
def State.sink (s0 : State) (n slot : Nat) (result : Word) : State :=
  if (s0.streamAt n slot).closing then s0.freeSlot n slot else
  let s := s0.flushMarks n slot
  let st := s.streamAt n slot
  let s1 := s.setStream n slot { st with
    state := .sunk, known := { st.pos with site := 0xFFFF, park := false }, forwards := [], transit := false, recalling := false
    kept := none, result := result, flags := 0 }
  let s2 := (s1.flagOf n ((s1.coreAt n).inboxCtx st.ctxn) st.flags).releaseSlot n slot none
  let s3 := if st.evtOn 1 then s2.streamPost n slot 2 st.pos.prog result else s2
  let s4 := ((s3.coreAt n).waiters (fun w => w == .stream slot)).foldl (fun a i => a.answer n i none) s3
  (s4.wakeSink n slot).wakeBusy n

/-- A slot sinks with an error (R195): the event, the log entry, and the trap for the contexts that wait. A close that waits wins (R197). -/
def State.sinkError (s00 : State) (n slot err : Nat) (addr : Word) (failed : Option AgentErr) : State :=
  let s0 := match failed with
    | some e => s00.logAgent n e err
    | none => s00.logCore n 0x07 (fieldOf addr 0 56) (BitVec.ofNat 64 err)
  if (s0.streamAt n slot).closing then s0.freeSlot n slot else
  let s1 := s0.flushMarks n slot
  let st := s1.streamAt n slot
  let s2 := s1.setStream n slot { st with
    state := .sunk, known := { st.pos with site := 0xFFFF, park := false }, forwards := [], transit := false, recalling := false
    kept := none, err := err, errAddr := addr, flags := 0 }
  let s3 := (s2.flagOf n ((s2.coreAt n).inboxCtx st.ctxn) st.flags).releaseSlot n slot none
  let s4 := s3.streamPost n slot err st.pos.prog addr
  let s5 := ((s4.coreAt n).waiters (fun w => w == .stream slot)).foldl (fun a i => a.answer n i none) s4
  (s5.wakeSink n slot).wakeBusy n

/-- The error of a failed access of a stream: protection, or poison for an uncorrectable error or an error reply (R195, R384). -/
def streamErr : AgentErr → Nat
  | .refused _ => 5
  | _ => 6

/-- Every element of a stream has been passed: it sinks, at once where no result is written (R183). -/
def State.passedAll (s : State) (n slot : Nat) : State :=
  let st := s.streamAt n slot
  if st.dest then s.post .streamSink (streamEv n slot 0)
  else
    let r := st.finalResult st.pos
    (s.setStream n slot { st with flags := st.flags ||| r.2 }).sink n slot r.1

/-- The index entry of element `k` of an indirect pattern as it stands now, in the L1, the scratchpad or at its home; an open value where
none of them can give it (R181, R187). (DESIGN CHOICE, log 107) -/
def State.indexNow (s : State) (n : Nat) (st : Stream) (k : Nat) : Nat × State :=
  let a := st.idxAddr k
  let free := s.freeWord
  if st.pat ≠ 1 ∨ st.total ≤ k then (0, s)
  else if topByte a = 0xFF then (fromBytesLE ((s.coreAt n).getSpad (a % 2 ^ 48) 4), s)
  else
    match s.l1Word n (a / 4) with
    | some w => (w.val.toNat, s)
    | none =>
      match (s.homeLine (dieOfCore n) a none).1 with
      | .line _ l _ => (fromBytesLE (l.bytes (a % 64) 4), s)
      | _ => (fieldOf free.1 0 32, free.2)

/-- The core's image of a slot takes the index entry of element `k` (R187). -/
def State.noteIndex (s : State) (n slot k : Nat) : State :=
  let r := s.indexNow n (s.streamAt n slot) k
  r.2.setStream n slot { s.streamAt n slot with idxv := r.1 }

/-- A stream begins to advance at a position (R175, R180, R184, R196): it sinks when no element is left, floats where it may, or
stays LOCAL. (DEDUCED, log 36) -/
def State.startStream (s : State) (n slot : Nat) (st : Stream) : State :=
  let st1 := { st with state := .locl, known := { st.known with park := false, site := 0xFFFF }, recalling := false, closing := false, kept := none,
                       transit := false, forwards := [], hop := none }
  let floats := st.kind == 2 && st.flt && !(st.billets && st.fmt.ltab != 0)
  let s1 := (if floats && decide (st.known.prog < st.total) then s.readFootprint n st else s).setStream n slot st1
  if st.total ≤ st.known.prog then s1.passedAll n slot
  else if floats && s.footprintReadable n st then
    let idx := (s1.writeBackFootprint n st1).indexNow n st1 st.known.prog
    let s2 := idx.2
    let site := s2.siteOf (dieOfCore n) (st.elemAddr st.known.prog idx.1) st.noalloc
    let s3 := s2.setStream n slot { st1 with
      idxv := idx.1, state := .floated, left := st.known.prog, known := { st1.known with site := site }, live := { st1.known with site := site }, transit := true }
    let s4 := if st.evtOn 0 then s3.streamPost n slot 0 st.known.prog (BitVec.ofNat 64 site) else s3
    s4.post .streamContextArrive { streamEv n slot site with aux := ownerPort n }
  else if st.kind = 2 then s1.post .streamElementPass (streamEv n slot 0)
  else s1

/-- The record of BASE for the checks of a descriptor; none for an invalid one (R172). (DEDUCED, log 36) -/
def State.streamRecord (s : State) (p : Word) (k : State → Option FmtRecord → Out) : Out :=
  if ptrCode p = 0 then k s (some FmtRecord.zero)
  else
    s.readTable (s.core.recordAddr (ptrCode p)) 4 none (fun s ws =>
      let r : FmtRecord := { dw0 := ws.getD 0 0, dw1 := ws.getD 1 0, dw2 := ws.getD 2 0, dw3 := ws.getD 3 0 }
      k s (if r.family.isSome then some r else none))

/-- `sopen` (R170 to R175). (DEDUCED, log 25) -/
def execSopen (z : Slot) (k : BitVec 5) (s : State) : Out :=
  let x := s.ctx
  let slot := z.toNat
  let st : Stream := { Stream.reset with
    kind := k.toNat, ctxn := s.curCtx, svc := x.priv == 2, desc := #v[x.ox[0], x.ox[1], x.ox[2], x.ox[3], x.ox[4], x.ox[5]] }
  if !st.reservedOk then s.trapped (Trap.illegal 1)
  else if (s.core.stream slot).state ≠ .free ∨ !st.fieldsOk then s.trapped (Trap.illegal 2)
  else
    s.streamRecord st.base (fun s rec =>
      match rec with
      | none => s.trapped (Trap.format st.base)
      | some r =>
        let st1 := { st with fmt := r }
        let st2 := { st1 with known := { StreamPos.start with acc := st1.initial } }
        if !st1.dataOk then s.trapped (Trap.illegal 2)
        else if 3 < ptrBlc st.base then s.trapped (Trap.format st.base)
        else if !st1.inRange then s.trapped (Trap.range st.base)
        else if st1.dest && decide (3 < ptrBlc st1.result0) then s.trapped (Trap.format st1.result0)
        else if st1.dest && !s.resultOk s.focus st1 then
          (s.logSegments s.focus s.core.domain (s.segmentsRead (dieOfCore s.focus) s.core.domain (ptrAddr st1.result0 / 65536))).trapped
            { Trap.protection 0 with addr := st1.result0 }
        else if st1.pat = 1 ∧ (st1.idxb % 4 ≠ 0 ∨ 2 ^ 56 < st1.idxb + 4 * st1.count 0) then s.trapped (Trap.range (BitVec.ofNat 64 st1.idxb))
        else if s.core.heldOverlap slot st1 then .next (s.wait .busy)
        else .next ((s.startStream s.focus slot st2).finish 4))

/-- The first thing that a read of bytes through the L1, without held bytes, has to wait for. -/
def State.pendUnit (s : State) (n ea k : Nat) : Option Pend :=
  if isSpad ea then none else
  let addrs := bytesAt ea k
  let missing (a : Nat) : Bool := (s.l1Word n (a / 4)).isNone
  let wordsIn (line : Nat) : List Nat := addrs.foldl (fun acc a => if a / 64 = line && missing a then insertNat (a / 4) acc else acc) []
  let paged := addrs.findSome? (fun a =>
    if !isTranslated a then none else
    match s.hint n a with
    | none => if missing a then some (Pend.query a ea) else none
    | some l => if l.v && !l.migratable then none else some (Pend.home a (wordsIn (a / 64)) ea))
  match paged with
  | some p => some p
  | none => (addrs.find? missing).map (fun a => Pend.home (a / 4 * 4) (wordsIn (a / 64)) ea)

/-- A byte as a stream of the executing core reads it. -/
def State.unitByte (s : State) (a : Nat) : Byte :=
  if topByte a = 0xFF then memByte s.core.spad (a % 2 ^ 48) else s.l1Byte s.focus a

/-- Is a byte that a stream of the executing core reads poisoned? -/
def State.unitBad (s : State) (a : Nat) : Bool :=
  if topByte a = 0xFF then s.core.spadPoison.contains (a % 2 ^ 48 / 4)
  else match s.l1Word s.focus (a / 4) with
    | some w => w.poison
    | none => false

/-- Elements of a stream read for the executing context (R176): refills, then range and protection, then fault service and words. The
stream sees no held byte (R167, R190). `k` also gets which elements hold poison. -/
def State.streamLoad (s : State) (need : Need) (els : List (Nat × List (Nat × Nat))) (far : Option Trap)
    (k : State → List (List Nat) → (Nat → Option Nat) → Out) : Out :=
  let runs := els.flatMap (fun e => e.2)
  match s.core.plbMiss runs with
  | some u => .next ((s.post .plbRefill { Ev.ofCtx s.focus s.curCtx with addr := u * 65536 }).wait (.plb (u * 65536)))
  | none =>
    match far with
    | some t => s.trapped t
    | none =>
      match els.find? (fun e => e.2.any (fun r => (s.core.refusedByte s.ctx.priv need r.1 r.2).isSome)) with
      | some e => s.trapped (Trap.protection e.1)
      | none =>
        match runs.findSome? (fun r => s.pendUnit s.focus r.1 r.2) with
        | some p => s.pend 0 p
        | none =>
          k s (els.map (fun e => e.2.map (fun r => fromBytesLE ((bytesAt r.1 r.2).map (fun a => s.unitByte a)))))
            (fun i => (els[i]?).bind (fun e => if e.2.any (fun r => (bytesAt r.1 r.2).any (fun a => s.unitBad a)) then some e.1 else none))

/-- The first of `n` elements that hold poison. -/
def firstBad (n : Nat) (bad : Nat → Option Nat) : Option Nat := (List.range n).findSome? bad

/-- The index entries of `n` elements from element `k` read for the executing context as its stream reads them, for an indirect pattern
(R167, R190). (DEDUCED, log 36) -/
def State.streamIdx (s : State) (st : Stream) (k n : Nat) (next : State → List Nat → Out) : Out :=
  if st.pat ≠ 1 ∨ n = 0 then next s []
  else
    s.streamLoad (Need.load false) ((List.range n).map (fun i => (st.idxAddr (k + i), [(st.idxAddr (k + i), 4)]))) none (fun s vs bad =>
      match firstBad n bad with
      | some a => s.trapped (Trap.poison a)
      | none => next s (vs.map (fun x => x.headD 0)))

/-- The executing context's slot after `n` more elements: PROG advances, entries it passed are released, and the slot sinks at the last
element (R176, R177). -/
def State.advance (s : State) (slot n : Nat) : State :=
  let st := s.core.stream slot
  let st1 := { st with known := { st.known with prog := st.known.prog + n } }
  let s1 := (s.setStream s.focus slot st1).releaseSlot s.focus slot (some st1.known.prog)
  if n ≠ 0 ∧ st1.total ≤ st1.known.prog then s1.passedAll s.focus slot else s1

/-- `sread` (R176). A selector corruption with BCTE = 1 traps as `vldb` does (R161), which R176 names, though R105 lets a stream's decode
never trap. (DEDUCED, log 23; DESIGN CHOICE, log 103) -/
def execSread (z : Slot) (v : VRegNo) (g : Reg) (s : State) : Out :=
  let slot := z.toNat
  let st := s.core.stream slot
  let c := s.ctx.vcfgOf
  let ok := st.kind == 0 && (st.state == .locl || st.state == .sunk)
    && (if st.billets then c.n == 32 || c.n == 64 else 8 * st.width == c.n)
  s.vecCheck ok [(v.toNat, c.gm)] (
    let n := if st.state = .sunk then 0 else min c.vl (st.total - st.known.prog)
    let ks := (List.range n).map (fun i => st.known.prog + i)
    let deliver (s : State) (vals : List Nat) (fl : Flags) : Out :=
      let els := s.ctx.policy v.toNat c.n c.gm (fun i => vals[i]?)
      let old := s.ctx.elems v.toNat c.n c.gm
      let out := (List.range els.length).map (fun i => if i < n then vals.getD i 0 else if c.tz then 0 else old.getD i 0)
      let s1 := s.mapCtx (fun x => ((x.putElems v.toNat c.n c.gm out).orFlags fl).setG g (BitVec.ofNat 64 n))
      .next ((s1.advance slot n).finish 4)
    s.streamIdx st st.known.prog n (fun s idx =>
      let at' (i : Nat) : Nat := idx.getD i 0
      let far := st.pat == 1 && (List.range n).any (fun i => outOfRange (st.addr (st.known.prog + i) (at' i)) st.width)
      let els := (List.range n).map (fun i => (st.elemAddr (ks.getD i 0) (at' i), st.runs (ks.getD i 0) (at' i)))
      s.streamLoad (Need.load st.tagged) (if far then [] else els) (if far then some (Trap.range st.base) else none) (fun s vs bad =>
        if !st.billets then
          match firstBad n bad with
          | some a => s.trapped (Trap.poison a)
          | none => deliver s (vs.map (fun x => x.headD 0)) 0
        else
          let fam := st.family
          let ins := (List.range n).map (fun i =>
            { i := i, header := (vs.getD i []).getD 0 0, code := codeIn fam (ks.getD i 0) ((vs.getD i []).getD 1 0) : BilletIn })
          let good := ins.filter (fun e => (bad e.i).isNone && usesLevels st.fmt e.header)
          s.readLevels fam st.fmt (good.map (fun e => e.code))
            (fun badCode => ins.findSome? (fun e => (bad e.i).orElse (fun _ => badLevel st.fmt [e] badCode))) (fun s table =>
            let out := decodeElems c.n (rmodeOf st.rm) fam st.fmt table ins
            let hdr (i : Nat) : Nat := ((st.runs (ks.getD i 0) 0).headD (0, 0)).1
            match corruptHeaders st.fmt (ins.map (fun e => (hdr e.i, e.header))) with
            | [] => deliver s (out.1.map (fun p => p.2)) out.2
            | h :: t =>
              if s.ctx.bcte then ((s.flag flagBFLT).logCore s.focus 0x03 h 0).trapped (Trap.billet h)
              else deliver ((h :: t).foldl (fun a h => a.logCore a.focus 0x03 h 0) s) (out.1.map (fun p => p.2)) (out.2 ||| flagBFLT)))))

/-- Element stores placed in order from the element the context has come to, then `k` (R159, R166). -/
def State.placeThen (s : State) (k : State → Out) : List (Nat × List Byte) → Out
  | [] => k s
  | (ea, bs) :: rest =>
    if s.storeBlocked (bytesAt ea bs.length) then .next (s.wait .busy)
    else ((s.storeRun ea bs).placedOne rest).placeThen k rest

/-- The stores of stream elements by the executing context: every check before any byte (R158, R177). -/
def State.streamStore (s : State) (st : Stream) (far : Bool) (els : List (Nat × List Byte)) (k : State → Out) : Out :=
  let ranges := els.map (fun e => (e.1, e.2.length))
  s.checked (Need.store st.tagged) ranges (if far then some (Trap.range st.base) else none) (fun s =>
    if far then s.trapped (Trap.range st.base) else s.served true ranges (fun s => s.placeThen k els))

/-- `swrite` (R177). A billet store stream whose BASE is no multiple of P is written where its addresses lie: R172 and R177 name no check.
(DESIGN CHOICE, log 102) -/
def execSwrite (z : Slot) (v : VRegNo) (g : Reg) (s : State) : Out :=
  let slot := z.toNat
  let st := s.core.stream slot
  let c := s.ctx.vcfgOf
  let ok := st.kind == 1 && (st.state == .locl || st.state == .sunk)
    && (if st.billets then c.n == 16 || c.n == 32 else 8 * st.width == c.n)
  s.vecCheck ok [(v.toNat, c.gm)] (
    if st.billets && c.vl % st.blen != 0 then s.trapped (Trap.shape st.base) else
    let n := if st.state = .sunk then 0 else min c.vl (st.total - st.known.prog)
    let p := st.known.prog
    let done (s : State) : Out :=
      .next (((s.mapCtx (fun x => x.setG g (BitVec.ofNat 64 n))).advance slot n).finish 4)
    let blocks := (List.range (n / st.blen)).map (fun j =>
      (List.range st.blen).map (fun i => qinOfFloat (fmtOfWidth c.n) (s.ctx.elem v.toNat (j * st.blen + i) c.n)))
    let cands := if st.sel = 0 then maskSels st.fmt.mask else [st.sel - 4]
    if n = 0 then done s
    else if s.ctx.placed ≠ 0 then s.placeThen done s.ctx.unplaced
    else
    s.streamIdx st p n (fun s idx =>
      if !st.billets then
        let far := st.pat == 1 && (List.range n).any (fun i => outOfRange (st.addr (p + i) (idx.getD i 0)) st.width)
        let els := (List.range n).map (fun i =>
          ((st.addr (p + i) (idx.getD i 0)).toNat, bytesLE st.width (s.ctx.elem v.toNat i c.n)))
        s.streamStore st far (if far then [] else els) done
      else
        let fam := st.family
        let place (j : Nat) : Nat × Nat :=
          (headerOf st.payload (st.affineAddr (p + j * st.blen)).toNat, storeOf st.payload (st.affineAddr (p + j * st.blen)).toNat)
        let ranges := (List.range (n / st.blen)).flatMap (fun j => [((place j).1, 2), ((place j).2, st.payload)])
        s.quenchRead (Need.store st.tagged) fam st.fmt cands ranges (fun s table =>
          let els := ((List.range (n / st.blen)).zip blocks).map (fun b =>
            let q := quench fam st.fmt table cands b.2
            ((place b.1).1, q.1, (place b.1).2, q.2.1))
          let fl := blocks.foldl (fun f xs => f ||| (quench fam st.fmt table cands xs).2.2) (0 : Flags)
          (s.flag fl).streamStore st false (billetStores fam els) done)))

/-- `swait` (R178). -/
def execSwait (z : Slot) (g : Reg) (s : State) : Out :=
  let st := s.core.stream z.toNat
  match st.state with
  | .free => s.trapped (Trap.illegal 2)
  | .sunk => if st.err ≠ 0 then .next (s.raise st.trap) else .next (((s.acquire s.focus .system).setG g st.result).finish 4)
  | _ => .next (s.wait (.sink z.toNat))

/-- A slot becomes RECALLED at its core (R179, R188): the window closes, the event is posted. -/
def State.recalledAt (s : State) (n slot : Nat) (p : StreamPos) : State :=
  let st := s.streamAt n slot
  let s1 := s.setStream n slot { st with
    state := .recalled, known := { p with site := 0xFFFF }, forwards := [], transit := false, recalling := false, kept := none }
  let s2 := s1.releaseSlot n slot none
  if st.evtOn 2 then s2.streamPost n slot 3 p.prog 0 else s2

/-- A recall sent after a floated context, unless one is under way (R188). -/
def State.sendRecall (s : State) (n slot : Nat) (close : Bool) : State :=
  let st := s.streamAt n slot
  let s1 := s.setStream n slot { st with recalling := true, closing := st.closing || close }
  if st.recalling then s1 else s1.post .streamRecallArrive { streamEv n slot st.known.site with aux := ownerPort n }

/-- `srecall` (R179). -/
def execSrecall (z : Slot) (s : State) : Out :=
  let slot := z.toNat
  let st := s.core.stream slot
  match st.state with
  | .free => s.trapped (Trap.illegal 2)
  | .locl =>
    if st.kind ≠ 2 then s.trapped (Trap.illegal 2)
    else .next ((((s.stopSlot s.focus slot).noteIndex s.focus slot st.known.prog).recalledAt s.focus slot st.known).finish 4)
  | .floated => .next ((s.sendRecall s.focus slot false).wait (.stream slot))
  | _ => .next (s.finish 4)

/-- Doubleword `i` of a slot's context image (R187). -/
def Stream.image (st : Stream) (n slot i : Nat) : Word :=
  if st.state = .free then 0 else
  let p := st.known
  let at' := if st.state = .floated then st.left else p.prog
  let named := decide (at' < st.total) && !(st.err != 0 && decide (st.total ≤ p.prog))
  let (k0, k1, k2) := if named then st.indices at' else (0, 0, 0)
  let fam := match st.family with
    | .dense => 0
    | .billet8 => 1
    | .billet4 => 2
  let et := if st.billets then st.fmt.etype else st.etype
  let c (j : Nat) : Nat := fieldOf (st.desc.toList.getD (j + 1) 0) 32 16
  let stride (j : Nat) : Nat := fieldOf (st.desc.toList.getD (j + 1) 0) 0 32
  let cnt (j : Nat) : Nat := if st.pat = 1 then (if j = 0 then c 0 else 1) else c j
  let addr : Nat := if named then wrapInt (st.addr at' st.idxv) 56 else 0
  BitVec.ofNat 64 (match i with
    | 0 => st.kind * 2 ^ 62 + st.op * 2 ^ 59 + fam * 2 ^ 57 + et * 2 ^ 53 + st.pat * 2 ^ 51 + ptrBlc st.base % 4 * 2 ^ 49
        + (if st.noalloc then 2 ^ 48 else 0) + st.evt * 2 ^ 44 + (if p.park then 2 ^ 43 else 0) + (if p.pois then 2 ^ 42 else 0)
        + slot * 2 ^ 38 + st.ctxn * 2 ^ 34 + n * 2 ^ 22 + fieldOf st.desc[4] 32 16 * 64
    | 1 => addr
    | 2 => c 0 * 2 ^ 48 + p.prog % 2 ^ 48
    | 3 => cnt 1 * 2 ^ 48 + cnt 2 * 2 ^ 32 + k0 * 65536 + k1
    | 4 => k2 * 2 ^ 48 + fieldOf p.acc 128 16 * 2 ^ 32 + stride 0
    | 5 => if st.pat = 1 then st.idxb else stride 1 * 2 ^ 32 + stride 2
    | 6 => fieldOf p.acc 0 64
    | _ => fieldOf p.acc 64 64)

/-- The slot status of `squery` (R181). -/
def Core.slotStatus (c : Core) (slot : Nat) : Word :=
  let st := c.stream slot
  let code := match st.state with
    | .free => 0
    | .locl => 1
    | .floated => 2
    | .recalled => 3
    | .sunk => 4
  if st.state = .free then 0
  else BitVec.ofNat 64 (st.known.site * 2 ^ 48 + (if c.hold.any (fun e => e.slot == slot) then 128 else 0) + st.err % 8 * 16
    + (if st.known.park then 8 else 0) + code)

/-- `squery` (R181). While an indirect stream is LOCAL its ADDR follows the index entry as it stands; otherwise it is the one the context
took along. -/
def execSquery (z : Slot) (g : Reg) (n : BitVec 5) (s : State) : Out :=
  let k := n.toNat
  let slot := z.toNat
  let st := s.core.stream slot
  if 8 < k then s.trapped (Trap.illegal 2)
  else if k = 8 then .next ((s.setG g (s.core.slotStatus slot)).finish 4)
  else
    let s1 := if k = 1 ∧ st.state = .locl then s.noteIndex s.focus slot st.known.prog else s
    .next ((s1.setG g ((s1.core.stream slot).image s.focus slot k)).finish 4)

/-- `sresume` (R180, R193). -/
def execSresume (z : Slot) (s : State) : Out :=
  let slot := z.toNat
  let st := s.core.stream slot
  if st.state ≠ .recalled then s.trapped (Trap.illegal 2)
  else if s.core.heldOverlap slot st then .next (s.wait .busy)
  else .next ((s.startStream s.focus slot st).finish 4)

/-- `sclose` (R182). -/
def execSclose (z : Slot) (s : State) : Out :=
  let slot := z.toNat
  match (s.core.stream slot).state with
  | .free => .next (s.finish 4)
  | .floated => .next ((s.sendRecall s.focus slot true).wait (.stream slot))
  | _ => .next ((s.freeSlot s.focus slot).finish 4)

/-- The value of a dense element folded into the partial (R183): the partial, its flags, and poison. -/
def Stream.foldDense (st : Stream) (p : StreamPos) (x : Nat) : StreamPos × Flags :=
  let w := 8 * st.width
  let v : Int := if signedType st.etype then signExt x w else (x : Int)
  let acc := fieldOf p.acc 0 64
  match st.op with
  | 1 => ({ p with acc := BitVec.ofNat 144 (wrapInt (acc + v) 64) }, 0)
  | 2 =>
    let y := if st.etype = 9 then x * 65536 else x
    let r := fAdd fmtF32 .rne acc y
    ({ p with acc := BitVec.ofNat 144 r.1 }, r.2)
  | 3 => least p x v acc false
  | 4 => least p x v acc true
  | 5 =>
    let zero := match floatOf st.etype with
      | some f => (f.unpack x).isZero
      | none => x == 0
    ({ p with acc := BitVec.ofNat 144 (if zero then acc else (acc + 1) % 2 ^ 64) }, 0)
  | _ =>
    let r : Int × Bool := match floatOf st.etype with
      | some f =>
        match f.unpack x with
        | .fin s m e => (contribution (signedMag s m) e st.w, false)
        | _ => (0, true)
      | none => (contribution v 0 st.w, false)
    let q := windowAdd { a := p.acc, poison := p.pois } r.1 r.2
    ({ p with acc := q.a, pois := q.poison }, 0)
where
  /-- The lesser or the greater of the partial and an element. -/
  least (p : StreamPos) (x : Nat) (v : Int) (acc : Nat) (isMax : Bool) : StreamPos × Flags :=
    match floatOf st.etype with
    | some f =>
      let r := fMinMax f isMax acc x
      ({ p with acc := BitVec.ofNat 144 r.1 }, r.2)
    | none =>
      let a : Int := if signedType st.etype then signExt acc 64 else (acc : Int)
      ({ p with acc := BitVec.ofNat 144 (wrapInt (if isMax then maxInt a v else minInt a v) 64) }, 0)

/-- A billet element folded into a window sum (R183). -/
def Stream.foldBillet (st : Stream) (p : StreamPos) (h c : Nat) (table : List Int) : StreamPos :=
  let q := match billetDecode st.family h c st.fmt table with
    | some (v, x) => windowAdd { a := p.acc, poison := p.pois } (contribution v x st.w) false
    | none => windowAdd { a := p.acc, poison := p.pois } 0 true
  { p with acc := q.a, pois := q.poison }

/-- A stream as the agent that reads its elements: the stream unit of its core, or a site (R310 code 3). -/
def State.streamAgent (s : State) (n slot : Nat) : Agent :=
  let st := s.streamAt n slot
  { core := n, die := if st.state = .floated then siteDie st.live.site else dieOfCore n, dom := (s.coreAt n).domain, kind := 3, ctx := st.ctxn
    svc := st.svc, row := .streamElementPass, ev := streamEv n slot 0 }

/-- A mark sent to the owner: PROG, the next site and the PARK bit (R186). -/
def State.sendMark (s : State) (n slot next : Nat) (p : StreamPos) : State :=
  s.post .progressMark { streamEv n slot next with val := BitVec.ofNat 64 p.prog, flag := p.park, aux := (s.streamAt n slot).live.site }

/-- The lines that runs of bytes touch. -/
def spanLines (runs : List (Nat × Nat)) : List (Nat × Nat × Nat) := runs.flatMap (fun r => linesOf r.1 r.2)

/-- Does the read of lines meet a missing translation? -/
def State.wouldFault (s : State) (d : Nat) (lines : List (Nat × Nat × Nat)) : Bool :=
  lines.any (fun l =>
    match (s.homeLine d (l.1 * 64 + l.2.1) none).1 with
    | .fault _ _ => true
    | _ => false)

/-- A stream parks at a fault: PARK is set, and a site sends the mark that carries it (R194). -/
def State.parkStream (s : State) (n slot : Nat) : State :=
  let st := s.streamAt n slot
  if st.state = .floated then
    let p := { st.live with park := true }
    (s.setStream n slot { st with live := p }).sendMark n slot st.live.site p
  else s.setStream n slot { st with known := { st.known with park := true } }

/-- Lines that a NOALLOC site has read are kept in no cache (R185). -/
def State.noAllocate (s before : State) (d : Nat) (lines : List (Nat × Nat × Nat)) : State :=
  lines.foldl (fun a l =>
    let h := before.siteOf d (l.1 * 64) false
    if (before.sliceLine h l.1).isSome then a else
    match a.sliceLine h l.1 with
    | some x => if x.dirty = 0 && !x.verDirty then a.dropSliceLine h l.1 else a
    | none => a) s

/-- The next element's line: where its storage address lies. -/
def Stream.lineOf (st : Stream) (k idx : Nat) : Nat := st.elemAddr k idx / 64

/-- The number that bytes within one line make at its home, if the home gives the line. -/
def State.homeNat (s : State) (d va k : Nat) : Option Nat :=
  match (s.homeLine d va none).1 with
  | .line _ l _ => if l.poisoned (va % 64) k then none else some (fromBytesLE (l.bytes (va % 64) k))
  | _ => none

/-- A context moves on to the site of its next element, behind the mark that names it (R186). -/
def State.hopTo (s : State) (n slot next : Nat) : State :=
  let st := s.streamAt n slot
  let s1 := (s.sendMark n slot next st.live).setStream n slot { st with
    live := { st.live with site := next }, transit := true, hop := none, forwards := tabPut st.forwards st.live.site next }
  s1.post .streamContextArrive { streamEv n slot next with aux := st.live.site }

/-- The context stays while its next element lies in the line `line` of the last one, or moves to that element's site (R186). -/
def State.stayOrHop (s : State) (n slot idx line : Nat) (stay : State → State) : State :=
  let st := s.streamAt n slot
  if st.lineOf st.live.prog idx = line then stay (s.setStream n slot { st with hop := none })
  else s.hopTo n slot (s.siteOf (siteDie st.live.site) (st.elemAddr st.live.prog idx) st.noalloc)

/-- An element has been passed (R183): the position moves on. A floated context hops when the next element's line differs (R186); where the
home of the next index entry does not give it at once, the site reads that entry first. -/
def State.passElement (s : State) (n slot line : Nat) (p : StreamPos) (fl : Flags) : State :=
  let st := s.streamAt n slot
  let p1 := { p with prog := p.prog + 1, park := false }
  let st1 := if st.state = .floated then { st with live := p1, flags := st.flags ||| fl } else { st with known := p1, flags := st.flags ||| fl }
  let s1 := s.setStream n slot st1
  if st.total ≤ p1.prog then s1.passedAll n slot
  else if st.state ≠ .floated then
    (s1.releaseSlot n slot (some p1.prog)).retryLater .streamElementPass (streamEv n slot 0)
  else
    let due (a : State) : State := a.post .streamElementPass (streamEv n slot 0)
    match if st.pat = 1 then s1.homeNat (siteDie st.live.site) (st.idxAddr p1.prog) 4 else some 0 with
    | some idx => s1.stayOrHop n slot idx line due
    | none => due (s1.setStream n slot { st1 with hop := some line })

/-- A stream stops at its element with the error of a failed access (R195). -/
def State.streamFail (s : State) (n slot addr : Nat) (e : AgentErr) : Out :=
  .next ((s.dropRemote n).sinkError n slot (streamErr e) (BitVec.ofNat 64 addr) (some e))

/-- Runs read through the L1 once their words are there. -/
def State.agentReadsLocal (s : State) (ag : Agent) (fail : State → AgentErr → Out) (k : State → List (List Byte × List Nat) → Out) :
    List (Nat × Nat) → List (List Byte × List Nat) → Out
  | [], acc => k s acc.reverse
  | (ea, n) :: rest, acc => s.unitRead ag ea n fail (fun s bs bad => State.agentReadsLocal s ag fail k rest ((bs, bad) :: acc))

/-- The bytes of an element's runs read, through the L1 for a LOCAL stream, at the homes for a floated one (R185, R190). -/
def State.streamRead (s : State) (n slot addr : Nat) (ag : Agent) (runs : List (Nat × Nat)) (k : State → List Nat → Out) : Out :=
  let st := s.streamAt n slot
  let fail (s : State) (e : AgentErr) : Out := s.streamFail n slot addr e
  let locl := st.state != .floated
  let allowed (s : State) : Out :=
    let lines := spanLines (runs.filter (fun r => topByte r.1 != 0xFF))
    let fresh := s.ev.aux == 0 && !st.pos.park && s.wouldFault ag.die (if locl then
        lines.filter (fun l => (wordsAt (l.1 * 64 + l.2.1) l.2.2).any (fun w => (s.l1Word n w).isNone)) else lines)
    let s1 := if fresh then s.parkStream n slot else s
    let give (s2 : State) (rs : List (List Byte × List Nat)) : Out :=
      let s3 := if st.noalloc && !locl then s2.noAllocate s ag.die lines else s2
      match rs.findSome? (fun r => r.2.head?) with
      | some a => fail s3 (.poison a)
      | none => k s3 (rs.map (fun r => fromBytesLE r.1))
    if locl then
      s1.agentFill ag fail (fun s => s.agentReadsLocal ag fail give runs []) lines
    else s1.agentReads ag fail give runs []
  if locl then s.agentAllowed ag (Need.load st.tagged) runs (fun s a => fail s (.refused a)) allowed else allowed s

/-- STREAM_ELEMENT_PASS (R183, R186, R251): the stream unit or the site passes the element at PROG once its line is present. An
uncorrectable error in an index entry is reported at the address of the entry. (DESIGN CHOICE, log 104) -/
def execStreamElementPass (s : State) : Out :=
  let n := s.ev.core
  let slot := s.ev.unit
  let st := s.streamAt n slot
  if st.kind ≠ 2 ∨ !(st.state == .locl || st.state == .floated) ∨ (st.state == .floated && st.transit) ∨ st.total ≤ st.pos.prog then .next s
  else
    let ag := s.streamAgent n slot
    let p := st.pos
    let withIdx (k : State → Nat → Out) : Out :=
      if st.pat ≠ 1 then k s 0
      else
        let free := s.freeWord
        (free.2.setStream n slot { st with idxv := fieldOf free.1 0 32 }).streamRead n slot (st.idxAddr p.prog) ag [(st.idxAddr p.prog, 4)]
          (fun s vs =>
            let idx := vs.headD 0
            let s1 := s.setStream n slot { s.streamAt n slot with idxv := idx }
            match st.hop with
            | some line => if st.lineOf p.prog idx = line then k (s1.setStream n slot { s1.streamAt n slot with hop := none }) idx
              else .next ((s1.dropRemote n).stayOrHop n slot idx line id)
            | none => k s1 idx)
    withIdx (fun s idx =>
      if st.pat = 1 && outOfRange (st.addr p.prog idx) st.width then .next ((s.dropRemote n).sinkError n slot 4 st.base none)
      else
        let addr := st.elemAddr p.prog idx
        s.streamRead n slot addr ag (st.runs p.prog idx) (fun s vs =>
          if !st.billets then
            let r := st.foldDense p (vs.headD 0)
            .next ((s.dropRemote n).passElement n slot (addr / 64) r.1 r.2)
          else
            let h := vs.headD 0
            let c := codeIn st.family p.prog (vs.getD 1 0)
            s.agentLevels ag st.family st.fmt (if usesLevels st.fmt h then [c] else []) (fun s e => s.streamFail n slot addr e) (fun s table =>
              let bad := headerCorrupt h st.fmt
              let s1 := if bad then s.logCore n 0x03 ((st.runs p.prog idx).headD (0, 0)).1 0 else s
              .next ((s1.dropRemote n).passElement n slot (addr / 64) (st.foldBillet p h c table) (if bad then flagBFLT else 0)))))

/-- A context comes back from its site: recalled, or discarded by a close (R182, R188). -/
def State.sendBack (s : State) (n slot : Nat) : State :=
  (s.stopSlot n slot).post .streamContextReturn { streamEv n slot 0 with aux := (s.streamAt n slot).live.site }

/-- The site begins the read of the next element: its lines come to their homes. A recall that comes first does not stop it (R251). A NOALLOC
site keeps its lines in no cache (R185), and a missing translation is met when the element is due. -/
def State.beginRead (s : State) (n slot : Nat) : State :=
  let st := s.streamAt n slot
  let d := siteDie st.live.site
  match if st.pat = 1 then s.homeNat d (st.idxAddr st.live.prog) 4 else some 0 with
  | some idx =>
    if st.noalloc then s
    else
      (spanLines (st.runs st.live.prog idx)).foldl (fun a l =>
        match a.homeLine d (l.1 * 64 + l.2.1) none with
        | (.line _ _ _, a1) => a1
        | _ => a) s
  | none => s

/-- STREAM_CONTEXT_ARRIVE (R186, R251): the context is taken at its site; a recall that the site has kept returns it at once. -/
def execStreamContextArrive (s : State) : Out :=
  let n := s.ev.core
  let slot := s.ev.unit
  let st := s.streamAt n slot
  if st.state ≠ .floated ∨ !st.transit then .next s
  else
    let s1 := s.setStream n slot { st with live := { st.live with site := s.ev.addr }, transit := false }
    .next (if st.kept = some s.ev.addr then s1.sendBack n slot
      else (s1.beginRead n slot).post .streamElementPass (streamEv n slot 0))

/-- PROGRESS_MARK (R186, R192): the owner's copy follows the mark, passed entries are released, a new site is traced. -/
def execProgressMark (s : State) : Out := .next (s.applyMark s.ev.core s.ev.unit s.ev.val.toNat s.ev.addr s.ev.flag)

/-- STREAM_RECALL_ARRIVE (R188, R251): the site that holds the context returns it, a site it has left forwards the recall, and the site
it is on its way to keeps the recall. -/
def execStreamRecallArrive (s : State) : Out :=
  let n := s.ev.core
  let slot := s.ev.unit
  let st := s.streamAt n slot
  if st.state ≠ .floated then .next s
  else if st.live.site = s.ev.addr then
    .next (if st.transit then s.setStream n slot { st with kept := some s.ev.addr } else s.sendBack n slot)
  else
    match tabFind st.forwards s.ev.addr with
    | some next => .next (s.post .streamRecallArrive { streamEv n slot next with aux := s.ev.addr })
    | none => .next (s.post .streamRecallArrive { streamEv n slot st.live.site with aux := s.ev.addr })

/-- The index entry that ADDR of a returning context rests on, as its site reads it at its home (R187, R188). (DESIGN CHOICE, log 107) -/
def State.indexAt (s : State) (n slot : Nat) : State :=
  let st := s.streamAt n slot
  match if st.pat = 1 then s.homeNat (siteDie st.live.site) (st.idxAddr st.live.prog) 4 else none with
  | some v => s.setStream n slot { st with idxv := v }
  | none => s.noteIndex n slot st.live.prog

/-- STREAM_CONTEXT_RETURN (R182, R188): the slot is RECALLED with the context as of the last element passed, or FREE after a close. -/
def execStreamContextReturn (s : State) : Out :=
  let n := s.ev.core
  let slot := s.ev.unit
  let st := s.streamAt n slot
  if st.state ≠ .floated then .next s
  else if st.closing then .next (s.freeSlot n slot)
  else
    let s0 := (s.flushMarks n slot).indexAt n slot
    let s1 := s0.recalledAt n slot st.live
    .next ((((s1.coreAt n).waiters (fun w => w == .stream slot)).foldl (fun a i => a.answer n i none) s1).wakeBusy n)

/-- STREAM_SINK (R183): the result is written as a store of the owner context, then the slot is SUNK; a result write that fails sinks it
with an error. A write to host memory is performed once it is acknowledged (R420, R422). -/
def execStreamSink (s : State) : Out :=
  let n := s.ev.core
  let slot := s.ev.unit
  let st := s.streamAt n slot
  if !(st.state == .locl || st.state == .floated) ∨ st.pos.prog < st.total then .next s
  else if st.closing then .next (s.freeSlot n slot)
  else
    let r := st.finalResult st.pos
    let done (s : State) : Out :=
      .next ((s.setStream n slot { st with flags := st.flags ||| r.2 }).sink n slot r.1)
    let written (s : State) : Out :=
      if (s.coreAt n).hostWrites.isEmpty then done s
      else .next ((s.setStream n slot { s.streamAt n slot with res := 1 }).retryLater .streamSink (streamEv n slot 0))
    if !st.dest then done s
    else if st.res = 1 then written s
    else if st.res = 2 then .next (s.sinkError n slot 6 st.result0 (some (.reply (ptrAddr st.result0) 5)))
    else
      let a := ptrAddr st.result0
      let ag := { s.streamAgent n slot with row := Instr.streamSink, die := dieOfCore n }
      let bytes := if st.op = 6 then ({ a := st.pos.acc, poison := st.pos.pois : WinElem }).image else bytesLE 8 r.1.toNat
      let fail (s : State) (e : AgentErr) : Out := .next (s.sinkError n slot (streamErr e) st.result0 (some e))
      s.agentAllowed ag (Need.store false) [(a, bytes.length)] (fun s x => fail s (.refused x)) (fun s => s.agentWrites ag [(a, bytes)] fail written)

end Sys2Proof.Machine
end

