-- ==== Sys2Proof/Machine/Tasks.lean ====
section
/-!
DEFINITION. Tile tasks: partition descriptors and launch records, the start of a task (R343), its save and resumption (R50, R352 to
R354), its end (R351), and the swap-out on a storage-wait notice (R353).
-/

namespace Sys2Proof.Machine

open Sys2Proof

/-- A doubleword of a launch record (R335). -/
def recW (r : List Word) (i : Nat) : Word := r.getD i 0

/-- A 32-bit element of one of the record's quadruples EXT (from 2), CELL (from 4), TILE (from 6). -/
def recQuad (r : List Word) (first d : Nat) : Nat := fieldOf (recW r (first + d / 2)) (32 * (d % 2)) 32

/-- CTL of a record (R336). -/
def recCtl (r : List Word) : Word := recW r 14
/-- KENTRY of a record (R335). -/
def recEntry (r : List Word) : Word := recW r 0
/-- The partition a record names (R336). -/
def recPart (r : List Word) : Nat := fieldOf (recCtl r) 0 6
/-- PRIO of a record (R336). -/
def recPrio (r : List Word) : Nat := fieldOf (recCtl r) 8 3
/-- HANG of a record (R336). -/
def recHang (r : List Word) : Bool := (recCtl r).getLsbD 27
/-- FUSE of a record (R336). -/
def recFuse (r : List Word) : Bool := (recCtl r).getLsbD 28
/-- SUP of a record (R336). -/
def recSup (r : List Word) : Bool := (recCtl r).getLsbD 29

/-- The cluster mask of a partition (R338). -/
def State.partMask (s : State) (part : Nat) : Nat := joinChunks 64 ((List.range 4).map (fun i => (s.partDesc part i).toNat))

/-- The protection domain of a partition (R338). -/
def State.partDomain (s : State) (part : Nat) : Nat := fieldOf (s.partDesc part 4) 0 16

/-- Core set `j` of a partition (R338). -/
def State.partSet (s : State) (part j : Nat) : Nat := fieldOf (s.partDesc part (5 + j / 4)) (16 * (j % 4)) 16

/-- Is a partition's descriptor valid (R338)? (DEDUCED, log 55) -/
def State.partValid (s : State) (part : Nat) : Bool :=
  let ok (i : Nat) : Bool := !(s.peekWord 0 (fieldOf (s.dieReg 0 0x108) 0 48 + 64 * part + 8 * i)).2
  (List.range 8).all ok && (s.partDesc part 4).getLsbD 16 && s.partSet part 0 == 0xFFFF
  && decide (s.partDomain part < fieldOf (s.dieReg 0 0x8) 48 16) && s.partMask part != 0 && decide (s.partMask part < 2 ^ 252)

/-- The lead die of a partition: the die of its lowest cluster (R338). -/
def State.leadDie (s : State) (part : Nat) : Nat := dieOfCluster ((s.partClusters part).headD 0)

/-- The cores of a partition, rising. -/
def State.partCores (s : State) (part : Nat) : List Nat :=
  (s.partClusters part).flatMap (fun c => (List.range 16).map (fun p => 16 * c + p))

/-- The partition has no dispatched launch, and is neither switched out nor halted (R338). -/
def State.partFree (s : State) (part : Nat) : Bool :=
  let p := s.partAt part
  p.launch.isNone && !p.switchedOut && !p.halted

/-- The PA of a domain's initial `FMT.BASE` (R302). -/
def State.domainFmtPa (s : State) (d dom : Nat) : Nat := fieldOf (s.dieReg d 0x8) 0 48 + 32 * dom + 8

/-- Initial `FMT.BASE` of a domain's tasks (R101, R302). (DEDUCED, log 45) -/
def State.domainFmt (s : State) (d dom : Nat) : Word := (s.peekWord d (s.domainFmtPa d dom)).1 &&& 0x00FFFFFFFFFFFFE0

/-- A core whose `FMT.BASE` would come from a word with an uncorrectable error halts, as for an error in its registers, and the word is
logged (R7, R249). (DEDUCED, log 93) -/
def State.checkFmt (s : State) (n : Nat) : State :=
  let pa := s.domainFmtPa (dieOfCore n) (s.coreAt n).domain
  if (s.peekWord (dieOfCore n) pa).2 then (s.logCore n 0x02 pa 0).haltCore n 0 (s.ctxAt n 0).pc.toNat 0 else s

/-- The control context as a task starts (R343). -/
def taskCtx (r : List Word) (n : Nat) : Ctx :=
  let x := Ctx.reset 0
  { x with
    life := .live
    pc := BitVec.ofNat 56 (fieldOf (recEntry r) 0 56)
    g := (x.g.set 1 (recW r 1)).set 2 (BitVec.ofNat 64 n)
    stat := setField x.stat 0 2 (if recSup r then 1 else 0) }

/-- The units of a core as a task finds them: everything of a task but its contexts is as R343 and R208 give.
Only a restart command ends a halt (R87). The PLB, and the home cache with it, are invalidated (R236, R306). -/
def Core.freshUnits (c : Core) : Core :=
  { c with
    issuePtr := 0, gatedAt := none, powerGated := false, reported := false
    trapVec := 0, plb := [], homeCache := [], fmtCache := [], hold := []
    streams := Vector.replicate 16 Stream.reset, mx := Matrix.reset
    ops := [], inbox := [], deferred := [], recvQueue := [] }

/-- Every receive ring reset, with doubleword 1 written zero (R245). (DEDUCED, log 48) -/
def Core.resetRings (c : Core) : Core := (List.range 8).foldl (fun c r => c.putRing r { head := 0, tail := 0, fill := 0 }) c

/-- A core with no task: no context is live. The deadlines of the launch stay in its registers. -/
def Core.idle (c : Core) : Core :=
  { c.freshUnits with ctxs := Vector.ofFn (fun i => Ctx.reset i.val), task := none }

/-- The cores of a partition whose launch has left them: no switch is armed and no deadline stands (R270, R358). -/
def State.clearDeadlines (s : State) (part : Nat) : State :=
  (s.partCores part).foldl (fun a n => a.onCore n (fun c => { c with yieldDl := 0, jobDl := 0 })) s

/-- A task of a launch started on a core (R343): its context, the units fresh, the scratchpad cleared for another domain (R235).
The task's messages carry the core's number as their key (R370). (DEDUCED, log 49; DESIGN CHOICE, log 67) -/
def State.startTask (s : State) (part n : Nat) (l : Launch) : State :=
  let dom := s.partDomain part
  let fmt := s.domainFmt (dieOfCore n) dom
  let s1 := s.onCore n (fun c =>
    let c1 := { c.freshUnits with
      released := true, domain := dom, fmtBase := fmt
      ctxs := Vector.ofFn (fun i => if i.val = 0 then taskCtx l.record n else Ctx.reset i.val)
      spad := if c.domain = dom then c.spad else [], spadPoison := if c.domain = dom then c.spadPoison else []
      task := some { part := part, key := n, tile := none, sent := 0, received := 0, ending := false, handed := false } }
    c1.resetRings)
  (s1.checkFmt n).acquire n .system

/-- The counters of the messages of a core as a dispatch resets them (R370). (DEDUCED, log 48) -/
def Core.resetCounters (c : Core) : Core := { c with seqOut := [], expected := [], reorder := [], unaccepted := 0, retry := [] }

/-- The events that act for a waiting context: they leave the agenda when it is saved, as its instruction is not begun (R50). -/
def ctxRow (i : Instr) : Bool :=
  i == .homeMiss || i == .memoryResponse || i == .homeQuery || i == .plbRefill || i == .arriveLoad || i == .arriveStore
  || i == .waitLoad || i == .lockLoad || i == .tryLoad || i == .lockStore || i == .evtStore || i == .evtLoad || i == .estatStore
  || i == .barrierCfgWrite || i == .waittTimeout || i == .ringConfigWrite || i == .storageWaitNotice || i == .residencyReport || i == .powerGate

/-- Does a move act for a context of core `n`? -/
def Move.ofCtxOf (n : Nat) : Move → Bool
  | .event i e => e.core == n && ctxRow i
  | _ => false

/-- The barrier whose ARRIVE word lies at an offset of the event-unit window. -/
def arriveBarrier (off : Nat) : Option Nat :=
  match euWord off with
  | some (.arrive b) => some b
  | _ => none

/-- A waiting context comes to rest (R50): its instruction is not begun, but that a counted ARRIVE load waits on the WAIT word of the
same barrier (R259), and a forwarded trap keeps waiting for its reply. A store to ARRIVE never waits for a completion. -/
def State.restCtx (s : State) (n i : Nat) : State :=
  match (s.ctxAt n i).wait with
  | none => s
  | some w =>
    match w.why with
    | .trapReply => s
    | .window off lim =>
      match arriveBarrier off with
      | some b =>
        if ((s.clusterAt (clusterOfCore n)).barrier b).hasArrived n i && !s.euUnderWay .arriveStore n i then
          (s.abandon n i).onCtx n i (fun x => { x with wait := some { w with why := .window (32 * b + 16) lim } })
        else s.abandon n i
      | none => s.abandon n i
    | _ => s.abandon n i

/-- A stream at rest: a floated context is back without an event, at its last element passed (R196, R227). -/
def Stream.rest (st : Stream) : Stream :=
  if st.state = .floated then { st with known := { st.live with park := false, site := 0xFFFF }, transit := false, forwards := [], kept := none }
  else st

/-- The task of a core stops: the units after their current step, the contexts each complete or not begun (R50, R196, R227, R297).
Its dirty words are written back. -/
def State.stopTask (s : State) (n : Nat) : State :=
  let s1 := ((List.range 16).foldl (fun a slot => a.flushMarks n slot) s).stopUnits n
  let s2 := (List.range 11).foldl (fun a i => a.restCtx n i) s1
  let s3 := { s2 with agenda := s2.agenda.filter (fun m => !m.ofCtxOf n) }
  (s3.onCore n (fun c => { c with streams := c.streams.map Stream.rest, mx := { c.mx with wait := .none } })).release n .system

/-- The rank of a cluster in a partition's mask (R352). -/
def State.clusterRank (s : State) (part cl : Nat) : Nat := ((s.partClusters part).filter (fun c => decide (c < cl))).length

/-- The owner number of the task in swap slot `j` of a cluster. -/
def swapOwnerOf (cl j : Nat) : Nat := 4096 + 32 * cl + j

/-- A launch with the owner of a token replaced. -/
def Launch.setOwner (l : Launch) (token owner : Nat) : Launch :=
  { l with tokens := l.tokens.map (fun t => if t.1 = token then (token, owner) else t) }

/-- The 64-byte record of a task as R352 gives it. (DESIGN CHOICE, log 47) -/
def taskRecord (c : Core) (t : Task) (n reason addr : Nat) (time : Word) : List Word :=
  let token := (t.tile.map (fun x => x.token)).getD 0
  let gen := (t.tile.map (fun x => x.gen)).getD 0
  [ BitVec.ofNat 64 (token % 2 ^ 32 * 2 ^ 32 + reason * 2 ^ 28 + posOfCore n * 2 ^ 12 + n), BitVec.ofNat 64 (if reason = 0 then addr else 0),
    time, c.cyc, BitVec.ofNat 64 t.sent, BitVec.ofNat 64 t.received, BitVec.ofNat 64 (gen % 65536 * 2 ^ 32), 0 ]

/-- The stopped task of a core saved to a slot of its cluster (R352): the record in memory, the image with the partition.
(DESIGN CHOICE, logs 46, 47) -/
def State.saveTask (s : State) (part n slot reason addr : Nat) : State :=
  let c := s.coreAt n
  let cl := clusterOfCore n
  let pa := s.saveBase part + (32 * s.clusterRank part cl + slot) * 2 ^ 20
  let s1 : State := match c.task with
    | some t => s.poke (dieOfCore n) pa ((taskRecord c t n reason addr s.time).flatMap (fun w => bytesLE 8 w.toNat))
    | none => s
  s1.onPart part (fun p => { p with
    saved := p.saved ++ [{ slot := slot, reason := reason, cluster := cl, pos := posOfCore n, addr := addr, ready := false, order := p.swaps, image := c }]
    swaps := p.swaps + 1 })

/-- The state of a saved task put back into a core (R50): everything of the task; the caches, the messages' counters and what else
belongs to the core stay. -/
def Core.loadTask (c img : Core) : Core :=
  { c.freshUnits with
    ctxs := img.ctxs, issuePtr := img.issuePtr, trapVec := img.trapVec, bcastGrp := img.bcastGrp
    domain := img.domain, spad := img.spad, spadPoison := img.spadPoison, hold := img.hold, streams := img.streams, mx := img.mx
    ops := img.ops, opNext := max c.opNext img.opNext
    inbox := img.inbox, deferred := img.deferred, rings := img.rings, task := img.task }

/-- What a partition switch puts back besides: the domain masks, the job deadline, LERR and the messages' counters of the core (R270, R294,
R357, R370). (DEDUCED, log 109) -/
def Core.loadCore (c img : Core) : Core :=
  { c with
    jobDl := img.jobDl, opLerr := img.opLerr
    domCl := img.domCl, domDie := img.domDie, domPkg := img.domPkg, domFab := img.domFab, seqOut := img.seqOut, expected := img.expected
    reorder := img.reorder, unaccepted := img.unaccepted, retry := img.retry }

/-- The replies that a saved context kept are delivered, and a counted ARRIVE waits again (R50, R259). -/
def State.wakeCtx (s : State) (n i : Nat) : State :=
  let x := s.ctxAt n i
  match x.wait with
  | none => s
  | some w =>
    match w.why with
    | .window off lim => s.post .waitLoad { Ev.ofCtx n i with unit := off / 32, flag := lim.isSome, data := lim.toList }
    | .trapReply =>
      match x.heldReply with
      | some pc => s.setCtxAt n i (x.resumeAt pc)
      | none => s
    | _ => s.ready n i

/-- The units of a resumed task go on: floated streams float again (R196), engine operations continue with their next unit (R297),
the matrix unit redoes the unit it was in (R227). -/
def State.restartUnits (s : State) (n : Nat) : State :=
  let c := s.coreAt n
  let s1 := (List.range 16).foldl (fun a slot =>
    let st := c.stream slot
    if st.state = .floated then a.startStream n slot st
    else if st.state = .locl && decide (st.total ≤ st.known.prog) then a.post .streamSink (streamEv n slot 0)
    else if st.state = .locl && st.kind == 2 then a.post .streamElementPass (streamEv n slot 0)
    else a) s
  let s2 := c.ops.foldl (fun a o => a.post .engineUnit { Ev.ofCtx n o.ctx with unit := o.id }) s1
  match c.mx.queue, c.mx.ending with
  | [], _ => s2
  | _, some e => s2.mxEnd n e.1 e.2
  | h :: _, none =>
    if !c.mx.started then s2.mxKick n
    else if h.opc = 2 ∨ h.opc = 3 then (if h.k ≤ c.mx.kprog then s2.mxEnd n 0 0 else s2.post .mmaStep { Ev.ofCtx n h.ctx with unit := c.mx.kprog })
    else if 4 ≤ h.opc ∧ h.opc ≤ 8 ∧ h.opc ≠ 6 ∧ c.mx.kprog < 32 then s2.post (mxRow h.opc) { Ev.ofCtx n h.ctx with unit := c.mx.kprog }
    else if h.opc = 12 ∨ h.opc = 13 then s2.post (mxRow h.opc) { Ev.ofCtx n h.ctx with unit := 0 }
    else s2.mxEnd n 0 0

/-- A saved task back on a core (R50, R101, R102, R236). (DESIGN CHOICE, log 46) -/
def State.restoreTask (s : State) (n : Nat) (v : Saved) : State :=
  let s1 := s.onCore n (fun c => c.loadTask v.image)
  let fmt := s1.domainFmt (dieOfCore n) (s1.coreAt n).domain
  let s2 := s1.onCore n (fun c => { c with fmtBase := fmt, released := true })
  let s3 := (List.range 11).foldl (fun a i => a.wakeCtx n i) (s2.checkFmt n)
  s3.restartUnits n

/-- The A records and the mutexes of one position of an event unit given to another (R259). A swapped task's stand under its slot,
16 to 31, so that the next task of its core finds none of them. (DEDUCED, log 50) -/
def State.movePosition (s : State) (cl a b : Nat) : State :=
  if a = b then s else
  s.onCluster cl (fun c => { c with
    barriers := c.barriers.map (fun x => { x with arrivals := x.arrivals.map (fun r =>
      if r.1 / 16 = a then (16 * b + r.1 % 16, r.2) else r) })
    mutexes := c.mutexes.map (fun m => { m with holder := m.holder.map (fun h => if h.1 = a then (b, h.2) else h) }) })

/-- The counted arrivals of a task follow it at a hand-over from position `old` to `new` (R259), its A records standing at `new` already: its
position becomes one that has arrived, and the old one stays so only for the arrival of another task there. (DEDUCED, log 50) -/
def Barrier.moveArrived (x : Barrier) (old new : Nat) : Barrier :=
  let has (p : Nat) : Bool := x.arrivals.any (fun r => r.1 / 16 == p && r.2 == x.gen.toNat)
  if has new && x.arrived.contains old then
    { x with arrived := insertNat new (if has old then x.arrived else x.arrived.filter (fun p => p != old)) }
  else x

/-- The same for every barrier of a cluster, each of which may have its local part complete then (R257, R259). -/
def State.moveArrivals (s : State) (cl old new : Nat) : State :=
  if old = new then s
  else (List.range 16).foldl (fun a b => (a.onBarrier cl b (fun x => x.moveArrived old new)).barrierProgress cl b) s

/-- Must a context of a core still finish a store that has placed some bytes (R166)? (DEDUCED, log 51) -/
def Core.midStore (c : Core) : Bool := c.ctxs.toList.any (fun x => x.life == .live && x.placed != 0)

/-- Has a request of core `n` reached the dispenser of a launch, and is its answer still to come (R357)? -/
def Launch.asksFrom (l : Launch) (n : Nat) : Bool :=
  l.serving.any (fun r => r.1 != .dispenserTdone && r.2.1 == n) || l.held.any (fun r => r.1 != .dispenserTdone && r.2.core == n)

/-- Must a core's stop wait: a store that has placed bytes (R166), writes to host memory not yet acknowledged (R297), a request that has
reached the dispenser (R357)? (DEDUCED, log 51) -/
def State.coreMustWait (s : State) (n : Nat) : Bool :=
  let c := s.coreAt n
  c.midStore || !c.hostWrites.isEmpty || c.task.any (fun t => (s.partAt t.part).launch.any (fun l => l.asksFrom n))

/-- The free swap slots of a cluster of a partition (R352). -/
def Part.freeSwap (p : Part) (cl : Nat) : Option Nat :=
  ((List.range 16).map (fun j => 16 + j)).find? (fun j => !(p.saved.any (fun v => v.cluster == cl && v.slot == j)))

/-- A task is swapped out (R353): saved to a swap slot, its tile owned by the slot, and a new task starts on the core. (DEDUCED, logs 48, 50) -/
def State.swapOut (s : State) (part n slot va : Nat) : State :=
  let cl := clusterOfCore n
  let tile := (s.coreAt n).task.bind (fun t => t.tile)
  let s1 := ((s.stopTask n).saveTask part n slot 0 va).movePosition cl (posOfCore n) slot
  let s2 : State := match tile with
    | some x => s1.onPart part (fun p => { p with launch := p.launch.map (fun l => l.setOwner x.token (swapOwnerOf cl slot)) })
    | none => s1
  match (s2.partAt part).launch with
  | some l => s2.startTask part n l
  | none => s2

/-- Is a page's request of core `n` still parked at a home? (DEDUCED, log 56) -/
def State.stillParked (s : State) (n i va : Nat) : Bool :=
  s.cores.any (fun nc => (nc.2.parked ++ nc.2.router).any (fun r => r.again.isNone && r.core == n && r.ctx == i && pageOf r.va == pageOf va))

/-- Does a context wait for an address's data or for its page's homing fields? -/
def Ctx.waitsPage (x : Ctx) (va : Nat) : Bool := x.waitsMem va || x.waitsQuery (pageOf va)

/-- STORAGE_WAIT_NOTICE (R353, R397): the task whose context waits is swapped out, or waits in place. A store that has placed bytes
completes first (R166). (DEDUCED, logs 51, 56) -/
def execStorageWaitNotice (s : State) : Out :=
  let n := s.ev.core
  let i := s.ev.ctx
  let c := s.coreAt n
  let place : State := s.onCtx n i (fun x => { x with wait := x.wait.map (fun w =>
    match w.why with
    | .mem va _ => { w with why := .mem va true }
    | _ => w) })
  if !(c.ctx i).waitsPage s.ev.addr || !s.stillParked n i s.ev.addr then .next s
  else
    match c.task with
    | none => .next place
    | some t =>
      match (s.partAt t.part).freeSwap (clusterOfCore n) with
      | none => .next place
      | some j =>
        if t.ending || c.ctxs.toList.any (fun x => x.fwd.isSome) || groupValid c.bcastGrp (posOfCore n) then .next place
        else if s.coreMustWait n then .next (s.retryLater .storageWaitNotice s.ev)
        else .next (s.swapOut t.part n j s.ev.addr)

/-- The L1s of a cluster written back and emptied, as fusing and unfusing ask (R273). -/
def State.setFused (s : State) (cl : Nat) (b : Bool) : State :=
  if (s.clusterAt cl).fused = b then s else
  let s1 := (List.range 16).foldl (fun a p => (a.flushL1 (16 * cl + p)).onCore (16 * cl + p) (fun c => { c with l1 := [], dirtyLines := [] })) s
  s1.onCluster cl (fun c => { c with fused := b })

/-- The mutexes held at a position are freed, and each is logged (R261). (DEDUCED, log 52) -/
def State.freeMutexes (s : State) (n : Nat) : State :=
  let cl := clusterOfCore n
  (List.range 16).foldl (fun a m =>
    let x := (a.clusterAt cl).mutex m
    if x.holder.any (fun h => h.1 == posOfCore n) then (a.logCore n 0x07 (0xFF * 2 ^ 48 + 0x201000 + 16 * m) 0).passMutex cl m x.queue else a) s

/-- The swapped tasks of a cluster that are ready, the earliest swapped first (R354). -/
def Part.readySaved (p : Part) (cl : Nat) : Option Saved :=
  (p.saved.filter (fun v => v.reason == 0 && v.ready && v.cluster == cl)).foldl (fun (b : Option Saved) v =>
    match b with
    | none => some v
    | some o => if v.order < o.order then some v else some o) none

/-- A swapped task resumes on a core of its cluster (R354): the hand-over of its tile, its A records and its mutexes. (DEDUCED, log 50) -/
def State.resumeSwapped (s : State) (part n : Nat) (v : Saved) : State :=
  let cl := v.cluster
  let tile := v.image.task.bind (fun t => t.tile)
  let s1 := s.onPart part (fun p => { p with
    saved := p.saved.filter (fun x => !(x.cluster == cl && x.slot == v.slot))
    launch := p.launch.map (fun l =>
      let l1 := { l with inLaunch := insertNat n l.inLaunch }
      match tile with
      | some x => l1.setOwner x.token n
      | none => l1) })
  let s2 := ((s1.movePosition cl v.slot (posOfCore n)).moveArrivals cl v.pos (posOfCore n)).acquire n .system
  (s2.restoreTask n v).onCore n (fun c => { c with task := c.task.map (fun t => { t with handed := false, ending := false }) })

/-- Every dispatch unit looks at its queue heads again. -/
def State.kickDispatch (s : State) (d : Nat) : State :=
  if s.agenda.any (fun m => match m with
    | .event i e => i == .launchDispatch && e.die == d && e.val == 0
    | _ => false) then s
  else s.retryLater .launchDispatch { Ev.empty with die := d }

/-- Is a move a report of a closed tile to the dispenser of a partition's launch (R347)? -/
def Move.ofTdone (part : Nat) : Move → Bool
  | .event i e => i == .dispenserTdone && e.unit == part && !e.flag
  | _ => false

/-- Is a move the decrement of DONE due for launch `num` of a partition (R350)? -/
def Move.ofDone (part num : Nat) : Move → Bool
  | .event i e => i == .dispenserTdone && e.unit == part && e.flag && e.data.getD 2 0 == BitVec.ofNat 64 num
  | _ => false

/-- Is a move that `p` names still to act: on the agenda, or as a request that waits at a home or for the host? -/
def State.underWay (s : State) (p : Move → Bool) : Bool :=
  s.agenda.any p || s.cores.any (fun nc => (nc.2.parked ++ nc.2.router ++ nc.2.remoteWaits.map (fun r => r.2)).any (fun r => r.resumes p))

/-- A partition whose every part has ended, with no swapped task left and no report of a closed tile under way, becomes free (R350, R351);
its clusters have unfused (R273). (DESIGN CHOICE, log 53) -/
def State.checkFree (s : State) (part : Nat) : State :=
  match (s.partAt part).launch with
  | some l =>
    if l.inLaunch.isEmpty && l.held.isEmpty && !((s.partAt part).saved.any (fun v => v.reason == 0)) && !s.underWay (Move.ofTdone part) then
      let s1 := (s.partClusters part).foldl (fun a c => a.setFused c false) (s.clearDeadlines part)
      (List.range 4).foldl (fun a d => a.kickDispatch d) (s1.onPart part (fun p => { p with launch := none, armed := none }))
    else s
  | none => s

/-- The cluster's part in a launch has ended when no core of it is in the launch and no task of it is swapped; its L1s unfuse then. -/
def State.clusterLeaves (s : State) (part cl : Nat) : State :=
  match (s.partAt part).launch with
  | some l =>
    if l.inLaunch.any (fun n => clusterOfCore n == cl) || (s.partAt part).saved.any (fun v => v.cluster == cl && v.reason == 0) then s
    else s.setFused cl false
  | none => s

/-- A ready swapped task whose cluster has no core in the launch resumes on the core its record names (R407). -/
def State.orphan (s : State) (part cl : Nat) : State :=
  match (s.partAt part).launch, (s.partAt part).readySaved cl with
  | some l, some v =>
    if l.inLaunch.any (fun n => clusterOfCore n == cl) || (s.partAt part).halted || (s.partAt part).switchedOut then s
    else s.resumeSwapped part (16 * cl + v.pos) v
  | _, _ => s

/-- Have the units of an ending task drained (R351)? Issue has stopped in every context, and a helper is stopped where it stands (R42). -/
def Core.drained (c : Core) : Bool := c.mx.queue.isEmpty && c.ops.isEmpty && c.hostWrites.isEmpty

/-- The end of a task once its units have drained (R351): no context waits any more, streams close, mutexes are freed, dirty words are written
back; then the core takes a ready swapped task of its cluster, or its part in the launch ends. (DEDUCED, log 52) -/
def State.endTask (s : State) (n : Nat) (t : Task) : State :=
  let cl := clusterOfCore n
  let s0 := { s with agenda := s.agenda.filter (fun m => !m.ofCtxOf n) }
  let s1 := (List.range 11).foldl (fun a i => a.abandon n i) s0
  let s2 := ((List.range 16).foldl (fun a slot => if ((a.coreAt n).stream slot).state = .free then a else a.freeSlot n slot) s1).freeMutexes n
  let s3 := (s2.release n .system).onCore n Core.idle
  match (s3.partAt t.part).readySaved cl with
  | some v => s3.resumeSwapped t.part n v
  | none =>
    let s4 := s3.onPart t.part (fun p => { p with launch := p.launch.map (fun l => { l with inLaunch := l.inLaunch.filter (fun m => m != n) }) })
    (s4.clusterLeaves t.part cl).checkFree t.part

/-- TASK_END (R351, R354, R407): the end of a task after its drains. With `flag` a swapped task has become ready, and resumes on the
core its record names if no core of its cluster is in the launch. -/
def execTaskEnd (s : State) : Out :=
  let n := s.ev.core
  if s.ev.flag then .next (s.orphan s.ev.unit (clusterOfCore n))
  else
    match (s.coreAt n).task with
    | none => .next s
    | some t =>
      if !t.ending then .next s
      else if (s.coreAt n).drained then .next (s.endTask n t)
      else .next (s.retryLater .taskEnd s.ev)

end Sys2Proof.Machine
end

