-- ==== Sys2Proof/Machine/Launch.lean ====
section
/-!
DEFINITION. From record to dispatch: queue heads and their checks (R334 to R337), ageing and arbitration (R339 to R342), claims, and
the steps of a dispatch (R343).
-/

namespace Sys2Proof.Machine

open Sys2Proof

/-- The die of a queue (R334). -/
def dieOfQueue (q : Nat) : Nat := q / 8192

/-- The PA of a queue's entry in QTAB (R412). -/
def State.queuePa (s : State) (q : Nat) : Nat := fieldOf (s.dieReg (dieOfQueue q) 0x318) 0 48 + 16 * (q % 8192)

/-- Does a queue's entry hold an uncorrectable error (R7)? Such a queue is not valid. (DEDUCED, log 93) -/
def State.queueBad (s : State) (q : Nat) : Bool :=
  (s.peekWord (dieOfQueue q) (s.queuePa q)).2 || (s.peekWord (dieOfQueue q) (s.queuePa q + 8)).2

/-- A doubleword of a queue's entry in QTAB (R412). -/
def State.queueEntry (s : State) (q i : Nat) : Word :=
  if s.queueBad q then 0 else (s.peekWord (dieOfQueue q) (s.queuePa q + 8 * i)).1

/-- The endpoint that owns a queue (R412). -/
def State.queueOwner (s : State) (q : Nat) : Nat := fieldOf (s.queueEntry q 0) 48 8

/-- A launch status 0x81 sent to the endpoint that owns a queue (R416); the owner of a queue whose entry has an uncorrectable error is
not known, which is logged (R6, R7). -/
def State.sendStatus (s : State) (q status : Nat) (entry : Word) : State :=
  if s.queueBad q then s.logHearth (dieOfQueue q) 0x02 6 (s.queuePa q) (BitVec.ofNat 64 status)
  else s.sendFabric { kind := 0x81, endpoint := s.queueOwner q, target := q, reqid := 0, arg := BitVec.ofNat 64 status, payload := [entry] }

/-- A dimension number of ORDER, 0 innermost (R336). -/
def orderDim (o i : Nat) : Nat := bitsOf o (2 * i) 2

/-- Is ORDER a permutation (R337)? -/
def orderOk (o : Nat) : Bool := (List.range 4).all (fun d => (List.range 4).any (fun i => orderDim o i == d))

/-- ⌈x / y⌉. -/
def ceilDiv (x y : Nat) : Nat := if y = 0 then 0 else (x + y - 1) / y

/-- The cells of a dimension, Nd (R349). -/
def recCells (r : List Word) (d : Nat) : Nat := ceilDiv (recQuad r 2 d) (recQuad r 4 d)

/-- The number of cells of a launch. -/
def cellCount (r : List Word) : Nat := recCells r 0 * recCells r 1 * recCells r 2 * recCells r 3

/-- Status 1 of R337: a reserved bit, a malformed pointer, PMODE = 3. (DEDUCED, log 54) -/
def recBad1 (r : List Word) : Bool :=
  let c := recCtl r
  fieldOf c 48 16 != 0 || c.getLsbD 31 || c.getLsbD 11 || fieldOf c 6 2 != 0
  || fieldOf (recEntry r) 56 8 != 0 || (recEntry r).getLsbD 0
  || [8, 9].any (fun i => ptrCode (recW r i) != 0 || fieldOf (recW r i) 0 3 != 0) || fieldOf c 23 2 == 3

/-- Status 2 of R337: the partition, the core set, the tuner's core. -/
def State.recBad2 (s : State) (r : List Word) : Bool :=
  let c := recCtl r
  !s.partValid (recPart r) || s.partSet (recPart r) (fieldOf c 20 3) == 0
  || (c.getLsbD 30 && !(s.partCores (recPart r)).contains (fieldOf c 32 12))

/-- Status 3 of R337: extents, cells, tiles, ORDER, the cell count. -/
def recBad3 (r : List Word) : Bool :=
  (List.range 4).any (fun d =>
    let e := recQuad r 2 d
    let q := recQuad r 4 d
    let t := recQuad r 6 d
    e == 0 || q == 0 || decide (e < q) || t == 0 || t % q != 0)
  || !orderOk (fieldOf (recCtl r) 12 8) || decide (2 ^ 32 ≤ cellCount r)

/-- The lowest status that a record fails with (R337), none if it passes; `bad` says that the record holds an uncorrectable error. -/
def State.recStatus (s : State) (r : List Word) (bad : Bool) : Option Nat :=
  if recBad1 r then some 1
  else if s.recBad2 r then some 2
  else if recBad3 r then some 3
  else if recHang r != (recW r 15 != 0) then some 4
  else if recSup r && !(s.partDesc (recPart r) 4).getLsbD 17 then some 5
  else if bad then some 6
  else none

/-- What is under way for a queue's head leaves the agenda. -/
def State.dropAgeing (s : State) (q : Nat) : State :=
  { s with agenda := s.agenda.filter (fun m => match m with
    | .event i e => !(i == .headAgeing && e.unit == q)
    | _ => true) }

/-- The records that a queue keeps on chip (R334). -/
def queueOnChip : Nat := 64

/-- The PA of slot `k` of a queue's overflow memory, a ring of OVFCAP records (R334, R412). (DESIGN CHOICE, log 110) -/
def State.overflowPa (s : State) (q k : Nat) : Nat :=
  fieldOf (s.queueEntry q 0) 0 48 + 128 * (k % fieldOf (s.queueEntry q 1) 0 16)

/-- A record behind the ones a queue holds: on chip while there is room and none lies in memory, else in the next slot of its overflow memory
(R334). (DESIGN CHOICE, log 110) -/
def State.pushRecord (s : State) (q : Nat) (r : List Word) : State :=
  let x := s.queueAt q
  if x.records.length < queueOnChip ∧ x.spilled = 0 then s.onQueue q (fun x => { x with records := x.records ++ [r] })
  else
    (s.poke (dieOfQueue q) (s.overflowPa q (x.ovfHead + x.spilled)) ((List.range 16).flatMap (fun i => bytesLE 8 (recW r i).toNat))).onQueue q
      (fun x => { x with spilled := x.spilled + 1 })

/-- The oldest record in a queue's overflow memory comes on chip; a word of it with an uncorrectable error is the record's (R334, R337).
(DESIGN CHOICE, log 110) -/
def State.refillQueue (s : State) (q : Nat) : State :=
  let x := s.queueAt q
  if x.spilled = 0 then s
  else
    let ws := (List.range 16).map (fun i => s.peekWord (dieOfQueue q) (s.overflowPa q x.ovfHead + 8 * i))
    s.onQueue q (fun x => { x with
      records := x.records ++ [ws.map (fun w => w.1)]
      bad := if ws.any (fun w => w.2) then x.bad ++ [x.records.length] else x.bad
      ovfHead := (x.ovfHead + 1) % fieldOf (s.queueEntry q 1) 0 16, spilled := x.spilled - 1 })

/-- The head leaves its queue; the next record becomes the head and is checked. -/
def State.popHead (s : State) (q : Nat) : State :=
  let s1 := ((s.dropAgeing q).onQueue q (fun x => { x with
    records := x.records.drop 1, bad := (x.bad.filter (fun i => i != 0)).map (fun i => i - 1)
    checked := false, age := 0, waited := 0, holds := false })).refillQueue q
  if (s1.queueAt q).records.isEmpty then s1 else s1.post .recordHeadCheck { Ev.empty with unit := q, die := dieOfQueue q }

/-- A record removed, logged and reported (R337, R416). -/
def State.rejectHead (s : State) (q status : Nat) : State :=
  let r := (s.queueAt q).records.headD []
  ((s.logHearth (dieOfQueue q) 0x09 6 q (BitVec.ofNat 64 status)).sendStatus q status (recEntry r)).popHead q

/-- Records added to a queue (R334, R416). -/
def State.enqueue (s : State) (q : Nat) (rs : List (List Word)) : State :=
  let was := (s.queueAt q).records.isEmpty
  let s1 := rs.foldl (fun a r => a.pushRecord q r) s
  if was && !rs.isEmpty then s1.post .recordHeadCheck { Ev.empty with unit := q, die := dieOfQueue q } else s1

/-- RECORD_HEAD_CHECK (R337): the record at the head is read whole and checked; `flag` says that it holds an uncorrectable error. -/
def execRecordHeadCheck (s : State) : Out :=
  let q := s.ev.unit
  match (s.queueAt q).records with
  | [] => .next s
  | r :: _ =>
    if (s.queueAt q).checked then .next s
    else
      match s.recStatus r (s.ev.flag || (s.queueAt q).bad.contains 0) with
      | some st => .next (s.rejectHead q st)
      | none =>
        .next (((s.onQueue q (fun x => { x with checked := true, age := 0, waited := 0, holds := false })).kickDispatch (dieOfQueue q)).post .headAgeing
          { Ev.empty with unit := q, die := dieOfQueue q })

/-- The dispatch unit of a die as the agent of a partition's domain (R339): work of queue or partition `unit`. (DEDUCED, log 37) -/
def State.dispatchAgent (s : State) (d part : Nat) (row : Instr) (ev : Ev) : Agent :=
  { core := 1008 * d, die := d, dom := s.partDomain part, kind := 7, ctx := 0, svc := false, row := row, ev := { ev with aux := 0, addr := 0 } }

/-- How a wait stands (R339). -/
inductive WaitRes where
  | holds
  | waits
  | failed
deriving DecidableEq, Repr

/-- SignExt(value) ≤ SignExt(threshold) (R339). -/
def waitHolds (v thr : Word) : WaitRes := if thr.slt v then .waits else .holds

/-- The event that a wait signal's parked read brings back. -/
def waitEv (d q : Nat) : Ev := { Ev.empty with die := d, unit := q, val := 2 }

/-- Is a read of a wait signal of a queue's head under way for an address? (DESIGN CHOICE, log 42) -/
def State.waitPending (s : State) (q va : Nat) : Bool :=
  s.cores.any (fun nc => (nc.2.parked ++ nc.2.router ++ nc.2.remoteWaits.map (fun r => r.2)).any (fun r =>
    r.kind == 7 && r.va == va && r.again.any (fun p => p.1 == .launchDispatch && p.2.unit == q && p.2.val == 2)))

/-- A wait signal read at its home at the instant of arbitration (R339); a translation fault is served meanwhile. A signal that is not
an aligned doubleword of translated memory cannot be read. (DEDUCED, log 37; DESIGN CHOICE, log 42) -/
def State.readWait (s : State) (d q part : Nat) (addr thr : Word) : WaitRes × State :=
  let va := ptrAddr addr
  let ag := s.dispatchAgent d part .launchDispatch (waitEv d q)
  if addr = 0 then (.holds, s)
  else if va % 8 ≠ 0 || !isTranslated va then (.failed, s)
  else
    let s := s.readSegments ag [(va, 8)]
    if (s.agentRefused ag (Need.load false) va 8).isSome then (.failed, s) else
    match s.homeLine d va none with
    | (.line slice l leaf, s1) =>
      if l.poisoned (va % 64) 8 then (.failed, s1)
      else (waitHolds (BitVec.ofNat 64 (fromBytesLE (l.bytes (va % 64) 8))) thr, s1.countAccess slice va d leaf)
    | (.fault slice leaf, s1) =>
      if s.waitPending q va then (.waits, s1)
      else (.waits, s1.park slice va leaf { kind := 7, core := ag.core, ctx := 0, va := va, ea := va, words := [], again := some (ag.row, ag.ev), stale := false })
    | (.remote slice pa, s1) =>
      match (s1.coreAt ag.core).remoteLine (wordsAt va 8) with
      | some l => (waitHolds (BitVec.ofNat 64 (fromBytesLE (l.bytes (va % 64) 8))) thr, s1.dropRemote ag.core)
      | none =>
        if s.waitPending q va then (.waits, s1)
        else (.waits, (s1.sendRma (dieOfCore slice) pa false []).onCore ag.core (fun c => { c with remoteWaits := c.remoteWaits ++
          [((s1.remoteOf (dieOfCore slice) pa).1, { kind := 7, core := ag.core, ctx := 0, va := va, ea := va, words := wordsAt va 8, again := some (ag.row, ag.ev), stale := false })] }))
    | (_, s1) => (.failed, s1)

/-- Both waits of a head record (R339). (DEDUCED, log 37) -/
def State.readWaits (s : State) (d q : Nat) (r : List Word) : WaitRes × State :=
  let a := s.readWait d q (recPart r) (recW r 10) (recW r 11)
  if a.1 = .failed then a
  else
    let b := a.2.readWait d q (recPart r) (recW r 12) (recW r 13)
    if b.1 = .failed ∨ a.1 = .holds then b else (a.1, b.2)

/-- How a wait stands, for the count of AGE: by its signal where the line is at hand, else as the last arbitration read it. -/
def State.waitSeen (s : State) (d : Nat) (held : Bool) (addr thr : Word) : Bool :=
  let va := ptrAddr addr
  addr == 0 || (match (s.homeLine d va none).1 with
    | .line _ l _ => waitHolds (BitVec.ofNat 64 (fromBytesLE (l.bytes (va % 64) 8))) thr == .holds
    | _ => held)

/-- Is a queue's head checked and eligible as far as can be seen without an access (R339, R341)? (DESIGN CHOICE, logs 42, 43) -/
def State.headEligible (s : State) (q : Nat) : Bool :=
  let x := s.queueAt q
  let r := x.records.headD []
  let d := dieOfQueue q
  x.checked && !x.records.isEmpty && s.partFree (recPart r)
    && s.waitSeen d x.holds (recW r 10) (recW r 11) && s.waitSeen d x.holds (recW r 12) (recW r 13)

/-- AGE with the time that HEAD_AGEING has still to count: 4096 mc are 2560 tk, and it saturates (R341). -/
def Queue.ageNow (x : Queue) : Nat := min 255 (x.age + x.waited / 2560)

/-- HEAD_AGEING (R341): AGE rises by the time that the head has been eligible. (DESIGN CHOICE, logs 42, 43) -/
def execHeadAgeing (s : State) : Out :=
  let q := s.ev.unit
  if (s.queueAt q).records.isEmpty || !(s.queueAt q).checked then .next s
  else .next ((s.onQueue q (fun x => { x with age := x.ageNow, waited := x.waited % 2560 })).retryLater .headAgeing s.ev)

/-- The cycle of 36 slots (R340): in round r, priorities 7 down to 7 − r. -/
def slotCycle : List Nat := (List.range 8).flatMap (fun r => (List.range (r + 1)).map (fun i => 7 - i))

/-- The head that a priority serves (R340, R341): promoted heads by AGE, then round-robin after the queue served last. -/
def State.chooseHead (s : State) (d p : Nat) (qs : List Nat) : Option Nat :=
  let mine := qs.filter (fun q => recPrio ((s.queueAt q).records.headD []) == p)
  let promo := fieldOf (s.dieReg d 0x100) 0 8
  let last := (s.dieAt d).lastQueue.toList.getD p 8191
  match (mine.filter (fun q => decide (promo ≤ (s.queueAt q).ageNow))).foldl (fun (b : Option Nat) q =>
      match b with
      | none => some q
      | some o => if (s.queueAt o).ageNow < (s.queueAt q).ageNow ∨ ((s.queueAt o).ageNow = (s.queueAt q).ageNow ∧ q < o) then some q else some o) none with
  | some q => some q
  | none => (mine.find? (fun q => decide (last < q % 8192))).or mine.head?

/-- The slot that dispatches: the first at or after the pointer whose priority has an eligible head (R340). -/
def State.chooseSlot (s : State) (d : Nat) (qs : List Nat) : Option (Nat × Nat) :=
  ((List.range 36).map (fun k => ((s.dieAt d).rrPtr + k) % 36)).findSome? (fun slot =>
    (s.chooseHead d (slotCycle.getD slot 7) qs).map (fun q => (slot, q)))

/-- The schedule that a record starts with (R343, R344). -/
def recSchedule (r : List Word) : Schedule :=
  let c := recCtl r
  { order := fieldOf c 12 8, tile := (List.range 4).map (fun d => recQuad r 6 d)
    place := fieldOf c 25 2 * 64 + fieldOf c 23 2 * 16 + fieldOf c 20 3 }

/-- The bytes of a launch's coverage map (R349). -/
def mapBytes (r : List Word) : Nat := (cellCount r + 63) / 64 * 8

/-- The dispatch of a queue's head (R343): the partition is busy, the schedule stands; the clearing of the map follows. The pointer and
the queue served last move on. -/
def State.dispatchHead (s : State) (d slot q : Nat) : State :=
  let r := (s.queueAt q).records.headD []
  let part := recPart r
  let dl := if recHang r then s.time + recW r 15 else 0
  let sch := recSchedule r
  let s1 := (s.popHead q).onDie d (fun x => { x with
    rrPtr := (slot + 1) % 36
    lastQueue := if h : recPrio r < 8 then x.lastQueue.set (recPrio r) (q % 8192) h else x.lastQueue })
  let s2 := s1.onPart part (fun p => { p with launch := some {
    queue := q, record := r, sched := sch, staged := sch, gen := 0, cursors := [], nextToken := 1, tokens := [], complete := false, jobDl := dl
    inLaunch := s.partCores part, serving := none, held := [], num := s.freeCtr } })
  { s2 with dispatched := true }.post .launchDispatch { Ev.empty with die := s.leadDie part, unit := part, val := 1, data := [0] }

/-- One arbitration of a die (R340): the waits are read afresh; a record whose wait cannot be read fails with status 9. A partition that
is led elsewhere is claimed from its lead die. -/
def State.arbitrate (s : State) (d : Nat) : State :=
  let heads := (s.queues.map (fun p => p.1)).filter (fun q =>
    dieOfQueue q == d && (s.queueAt q).checked && !(s.dieAt d).claims.contains q)
  let step (a : State × List Nat × List Nat) (q : Nat) : State × List Nat × List Nat :=
    let r := (a.1.queueAt q).records.headD []
    if !a.1.partFree (recPart r) then a
    else
      match a.1.readWaits d q r with
      | (.holds, s1) => (s1.onQueue q (fun x => { x with holds := true }), a.2.1 ++ [q], a.2.2)
      | (.waits, s1) => (s1.onQueue q (fun x => { x with holds := false }), a.2.1, a.2.2)
      | (.failed, s1) => (s1, a.2.1, a.2.2 ++ [q])
  let res := heads.foldl step (s, [], [])
  let s1 := res.2.2.foldl (fun a q => a.rejectHead q 9) res.1
  match s1.chooseSlot d res.2.1 with
  | none => s1
  | some (slot, q) =>
    let lead := s1.leadDie (recPart ((s1.queueAt q).records.headD []))
    if lead = d then s1.dispatchHead d slot q
    else (s1.onDie d (fun x => { x with claims := insertNat q x.claims })).post .partitionClaim
      { Ev.empty with die := lead, unit := q, aux := slot, core := d }

/-- The reason that a launch is not to go on: a write of the map failed (R349). (DEDUCED, log 37) -/
def State.mapFailed (s : State) (d part : Nat) (e : AgentErr) : State :=
  let cls := match e with
    | .poison _ => 0x02
    | _ => 0x06
  (s.logHearth d cls 6 e.addr 0).post .mgmtHaltPartition { Ev.empty with unit := part, aux := 4 }

/-- The bytes of the coverage map written by the dispatch unit or the dispenser (R349): they need no write right, and no map lies
outside translated memory. -/
def State.mapWrite (s : State) (ag : Agent) (part : Nat) (runs : List (Nat × List Byte)) (k : State → Out) : Out :=
  match runs.find? (fun r => !isTranslated r.1 || !isTranslated (r.1 + r.2.length - 1)) with
  | some r => .next (s.mapFailed ag.die part (.refused r.1))
  | none => s.agentWrites ag runs (fun s e => .next (s.mapFailed ag.die part e)) k

/-- The broken mutexes and events of an event unit as the start of a launch on its cluster restores them (R274). (DESIGN CHOICE, log 112) -/
def Cluster.mended (c : Cluster) : Cluster :=
  { c with
    mutexes := c.mutexes.map (fun m => if m.broken then { holder := none, queue := [], broken := false } else m)
    events := c.events.map (fun e => if e.broken then { set := false, payload := 0, waiters := [], broken := false } else e) }

/-- A core as a launch finds it: the counters of its messages reset (R370), no engine error of an earlier launch (R294), the job deadline (R270).
(DEDUCED, log 109) -/
def Core.enterLaunch (c : Core) (dl : Word) : Core := { c.resetCounters with opLerr := 0, jobDl := dl }

/-- Steps 4 to 6 of a dispatch (R343): the deadline, fusing, the tasks. -/
def State.startLaunch (s : State) (part : Nat) (l : Launch) : State :=
  let cls := s.partClusters part
  let s0 := cls.foldl (fun a c => a.onCluster c Cluster.mended) s
  let s1 := if recFuse l.record then cls.foldl (fun a c => a.setFused c true) s0 else s0
  let s2 := (s.partCores part).foldl (fun a n => (a.onCore n (fun c => c.enterLaunch l.jobDl)).startTask part n l) s1
  if l.jobDl ≠ 0 then s2.post .jobDeadline { Ev.empty with unit := part } else s2

/-- One line of the coverage map cleared at its home (R343 step 2); behind the last one the tasks start. -/
def State.clearMap (s : State) (part : Nat) : Out :=
  match (s.partAt part).launch with
  | none => .next s
  | some l =>
    let off := ((s.ev.data.getD 0 0)).toNat
    let size := mapBytes l.record
    if (s.partAt part).halted then .next s
    else if size ≤ off then .next (s.startLaunch part l)
    else
      let a := ptrAddr (recW l.record 8) + off
      let n := min (size - off) (64 - a % 64)
      let e : Ev := { s.ev with data := [BitVec.ofNat 64 (off + n)], aux := 0, addr := 0 }
      s.mapWrite (s.dispatchAgent s.ev.die part .launchDispatch s.ev) part [(a, List.replicate n 0)] (fun s => .next (s.post .launchDispatch e))

/-- LAUNCH_DISPATCH (R339, R340, R343): an arbitration, or with `val` 1 the clearing of a dispatched launch's map. With `val` 2 a read
of a wait signal has ended: one that failed fails its record, and the die arbitrates again. -/
def execLaunchDispatch (s : State) : Out :=
  let d := s.ev.die
  if s.ev.val = 1 then s.clearMap s.ev.unit
  else if s.ev.val = 2 then
    let q := s.ev.unit
    .next ((if s.ev.aux ≠ 0 && (s.queueAt q).checked then s.rejectHead q 9 else s).kickDispatch d)
  else
    let s1 := s.arbitrate d
    .next (if s1.queues.any (fun p => dieOfQueue p.1 == d && p.2.checked) then s1.kickDispatch d else s1)

/-- PARTITION_CLAIM (R340): a claim reaches the lead die; it is granted while the partition is free, and the record is dispatched. -/
def execPartitionClaim (s : State) : Out :=
  let q := s.ev.unit
  let d := s.ev.core
  let s1 := s.onDie d (fun x => { x with claims := x.claims.filter (fun y => y != q) })
  if (s1.queueAt q).checked && s1.partFree (recPart ((s1.queueAt q).records.headD [])) then .next (s1.dispatchHead d s.ev.aux q)
  else .next (s1.kickDispatch d)

end Sys2Proof.Machine
end

