-- ==== Sys2Proof/Machine/Dispenser.lean ====
section
/-!
DEFINITION. The dispenser (R344 to R350): the scheduling instructions, schedule registers, NextTile over the coverage map, commits,
tile reports and the completion of a launch.
-/

namespace Sys2Proof.Machine

open Sys2Proof

/-- PMODE of a schedule (R344). -/
def Schedule.pmode (c : Schedule) : Nat := bitsOf c.place 4 2
/-- PDIM of a schedule (R344). -/
def Schedule.pdim (c : Schedule) : Nat := bitsOf c.place 6 2
/-- PSET of a schedule (R344). -/
def Schedule.pset (c : Schedule) : Nat := bitsOf c.place 0 3
/-- TILEd of a schedule (R344). -/
def Schedule.tileExt (c : Schedule) (d : Nat) : Nat := c.tile.getD d 1

/-- A committed schedule register as `schrd` reads it (R344). -/
def Launch.register (l : Launch) (i : Nat) : Word :=
  let pair (f : Nat → Nat) (k : Nat) : Word := BitVec.ofNat 64 (f (2 * k + 1) * 2 ^ 32 + f (2 * k))
  match i with
  | 0 => BitVec.ofNat 64 l.sched.order
  | 1 => pair l.sched.tileExt 0
  | 2 => pair l.sched.tileExt 1
  | 3 => pair (recQuad l.record 4) 0
  | 4 => pair (recQuad l.record 4) 1
  | 5 => pair (recQuad l.record 2) 0
  | 6 => pair (recQuad l.record 2) 1
  | 7 => BitVec.ofNat 64 l.sched.place
  | _ => l.gen.setWidth 64

/-- A staged register written (R344, R348). -/
def Schedule.stage (c : Schedule) (i : Nat) (v : Word) : Schedule :=
  match i with
  | 0 => { c with order := fieldOf v 0 8 }
  | 1 => { c with tile := [fieldOf v 0 32, fieldOf v 32 32, c.tileExt 2, c.tileExt 3] }
  | 2 => { c with tile := [c.tileExt 0, c.tileExt 1, fieldOf v 0 32, fieldOf v 32 32] }
  | _ => { c with place := fieldOf v 4 4 * 16 + fieldOf v 0 3 }

/-- The launch of a core's task, for an instruction of R345; none where the core runs no task started by dispatch. -/
def State.ownLaunch (s : State) : Option (Task × Launch) :=
  match s.core.task with
  | none => none
  | some t => (s.partAt t.part).launch.map (fun l => (t, l))

/-- Is the executing context the tuner that the record names (R345)? (DEDUCED, log 54) -/
def State.isTuner (s : State) (r : List Word) : Bool :=
  (recCtl r).getLsbD 30 && fieldOf (recCtl r) 32 12 == s.focus && fieldOf (recCtl r) 44 4 == s.ctx.cidx

/-- A request of the executing context that waits at the dispenser (R43, R346, R348); it carries the bits of its instruction. -/
def State.askDispenser (s : State) (row : Instr) (part : Nat) (v : Word) : Out :=
  .next ((s.post row { Ev.ofCtx s.focus s.curCtx with unit := part, val := v, data := [s.ir.setWidth 64] }).wait .dispenser)

/-- `tnext` (R345, R346). -/
def execTnext (d : Reg) (s : State) : Out :=
  match s.ownLaunch with
  | none => s.trapped (Trap.illegal 2)
  | some (t, _) =>
    if s.ctx.cidx ≠ 0 ∨ d = 0 ∨ 27 < d.toNat ∨ t.tile.isSome then s.trapped (Trap.illegal 2)
    else s.askDispenser .dispenserTnext t.part 0

/-- `tdone` (R345, R347): the open tile closes after a release at system scope; token 0 ends the task, and issue stops. -/
def execTdone (a : Reg) (s : State) : Out :=
  match s.ownLaunch with
  | none => s.trapped (Trap.illegal 2)
  | some (t, _) =>
    let v := s.g a
    if s.ctx.cidx ≠ 0 then s.trapped (Trap.illegal 2)
    else if v = 0 then
      .next (((s.finish 4).mapCore (fun c => { c with task := some { t with ending := true } })).post .taskEnd { Ev.empty with core := s.focus })
    else if t.tile.any (fun x => BitVec.ofNat 64 x.token == v) then
      s.releaseThen .system (fun s =>
        .next (((s.mapCore (fun c => { c with task := some { t with tile := none } })).post .dispenserTdone
          { Ev.ofCtx s.focus s.curCtx with unit := t.part, val := v }).finish 4))
    else s.trapped (Trap.illegal 2)

/-- `schrd` (R345, R348). -/
def execSchrd (_d : Reg) (n : BitVec 12) (s : State) : Out :=
  match s.ownLaunch with
  | none => s.trapped (Trap.illegal 2)
  | some (t, _) => if 8 < n.toNat then s.trapped (Trap.illegal 2) else s.askDispenser .dispenserSchrd t.part (n.setWidth 64)

/-- A message to a dispenser that cannot be reached halts the launch (R384); `answered` says that an answer comes back. -/
def State.dispenserReached (s : State) (n part : Nat) (answered : Bool) (k : State → Out) : Out :=
  match (if answered then s.reach else s.reachOneWay) (dieOfCore n) (s.leadDie part) false with
  | none => k s
  | some c => .next ((s.logCore n 0x06 0 (BitVec.ofNat 64 c)).post .mgmtHaltPartition { Ev.empty with unit := part, aux := 4 })

/-- `schstage` (R345, R348): it does not wait. -/
def execSchstage (a : Reg) (n : BitVec 12) (s : State) : Out :=
  match s.ownLaunch with
  | none => s.trapped (Trap.illegal 2)
  | some (t, l) =>
    if !(n == 0 || n == 1 || n == 2 || n == 7) || !s.isTuner l.record then s.trapped (Trap.illegal 2)
    else
      s.dispenserReached s.focus t.part false (fun s =>
        .next ((s.onPart t.part (fun p => { p with launch := some { l with staged := l.staged.stage n.toNat (s.g a) } })).finish 4))

/-- `schcommit` (R345, R348): a release at package scope comes before the request. -/
def execSchcommit (_d : Reg) (s : State) : Out :=
  match s.ownLaunch with
  | none => s.trapped (Trap.illegal 2)
  | some (t, l) =>
    if !s.isTuner l.record then s.trapped (Trap.illegal 2)
    else s.releaseThen .package (fun s => s.askDispenser .dispenserCommit t.part 0)

/-- Does a context wait for the dispenser with the request of an event? -/
def State.asks (s : State) (e : Ev) : Bool :=
  (s.coreAt e.core).task.any (fun t => t.part == e.unit) &&
  (match (s.ctxAt e.core e.ctx).wait with
    | some w => w.why == .dispenser && e.data.headD 0 == w.ir.setWidth 64
    | none => false)

/-- A launch changed, if the partition has one. -/
def State.onLaunch (s : State) (part : Nat) (f : Launch → Launch) : State :=
  s.onPart part (fun p => { p with launch := p.launch.map f })

/-- The dispenser has done with a request: those that reached it meanwhile come next, in their order (R350). -/
def State.dispenserDone (s : State) (part : Nat) : State :=
  match (s.partAt part).launch with
  | none => s
  | some l =>
    { (s.onLaunch part (fun l => { l with serving := none, held := [] })) with
      agenda := l.held.map (fun r => Move.event r.1 r.2) ++ s.agenda }

/-- How a request at the dispenser is told from the others: its row, its core, and its context or the token that it closes. -/
def requestKey (row : Instr) (e : Ev) : Instr × Nat × Nat := (row, e.core, if row == .dispenserTdone then e.val.toNat else e.ctx)

/-- A request at the dispenser of its launch: one at a time (R350), so while another one stands at its map access this one waits behind it. -/
def State.dispenserTurn (s : State) (row : Instr) (k : State → Launch → Out) : Out :=
  let e := s.ev
  let part := e.unit
  match (s.partAt part).launch with
  | none => .next s
  | some l =>
    match l.serving with
    | some r =>
      if r = requestKey row e then k s l
      else .next (s.onLaunch part (fun l => { l with held := l.held ++ [(row, e)] }))
    | none => k s l

/-- The dispenser begins, or goes on with, the request of an event. -/
def State.dispenserTakes (s : State) (row : Instr) : State :=
  s.onLaunch s.ev.unit (fun l => { l with serving := some (requestKey row s.ev) })

/-- A waiting request served at the dispenser of its launch; one whose context has given it up is not begun (R357). -/
def State.dispenserServe (s : State) (row : Instr) (k : State → Launch → Out) : Out :=
  s.dispenserTurn row (fun s l =>
    if !s.asks s.ev then .next (if l.serving.isSome then s.dispenserDone s.ev.unit else s)
    else s.dispenserReached s.ev.core s.ev.unit true (fun s => k s l))

/-- DISPENSER_SCHRD (R348). -/
def execDispenserSchrd (s : State) : Out :=
  s.dispenserServe .dispenserSchrd (fun s l => .next (s.answer s.ev.core s.ev.ctx (some (l.register s.ev.val.toNat))))

/-- The checks of a commit on the staged set (R348). -/
def State.commitOk (s : State) (part : Nat) (l : Launch) : Bool :=
  let c := l.staged
  (List.range 4).all (fun d => c.tileExt d != 0 && c.tileExt d % recQuad l.record 4 d == 0)
  && orderOk c.order && c.pmode != 3 && s.partSet part c.pset != 0

/-- DISPENSER_COMMIT (R348): the staged set becomes current, GEN rises and every cursor is reset; or the staged copy is reset. -/
def execDispenserCommit (s : State) : Out :=
  s.dispenserServe .dispenserCommit (fun s l =>
    let part := s.ev.unit
    let ok := s.commitOk part l
    let l1 := if ok then { l with sched := l.staged, gen := l.gen + 1, cursors := [] } else { l with staged := l.sched }
    let v : Word := BitVec.ofNat 64 ((if ok then 0 else 2 ^ 63) + l1.gen.toNat)
    .next ((s.onPart part (fun p => { p with launch := some l1 })).answer s.ev.core s.ev.ctx (some v)))

/-- The coordinate along dimension `d` of the `k`-th member of a box of `cnt` members per dimension, in loop order (R349). -/
def loopCoord (o : Nat) (cnt : Nat → Nat) (k d : Nat) : Nat :=
  let i := ((List.range 4).find? (fun i => orderDim o i == d)).getD 0
  let inner := (List.range i).foldl (fun a j => a * cnt (orderDim o j)) 1
  (if inner = 0 then 0 else k / inner) % cnt d

/-- A box of the iteration space: origin and extent per dimension. -/
structure Box where
  org : List Nat
  ext : List Nat
deriving DecidableEq, Repr

/-- Td of the current schedule (R349). -/
def Launch.tiles (l : Launch) (d : Nat) : Nat := ceilDiv (recQuad l.record 2 d) (l.sched.tileExt d)

/-- The number of candidates (R349). -/
def Launch.candCount (l : Launch) : Nat := l.tiles 0 * l.tiles 1 * l.tiles 2 * l.tiles 3

/-- Candidate `k`, clipped to the iteration extents (R349). -/
def Launch.cand (l : Launch) (k : Nat) : Box :=
  let org := (List.range 4).map (fun d => loopCoord l.sched.order l.tiles k d * l.sched.tileExt d)
  { org := org, ext := (List.range 4).map (fun d => min (l.sched.tileExt d) (recQuad l.record 2 d - org.getD d 0)) }

/-- The cells of a box in loop order, as coordinates (R349). -/
def Launch.cells (l : Launch) (b : Box) : List (List Nat) :=
  let cell (d : Nat) : Nat := recQuad l.record 4 d
  let lo (d : Nat) : Nat := b.org.getD d 0 / cell d
  let cnt (d : Nat) : Nat := ceilDiv (b.org.getD d 0 + b.ext.getD d 0) (cell d) - lo d
  (List.range (cnt 0 * cnt 1 * cnt 2 * cnt 3)).map (fun k =>
    (List.range 4).map (fun d => lo d + loopCoord l.sched.order cnt k d))

/-- The bit of a cell in the coverage map (R349). -/
def Launch.cellBit (l : Launch) (c : List Nat) : Nat :=
  ((c.getD 3 0 * recCells l.record 2 + c.getD 2 0) * recCells l.record 1 + c.getD 1 0) * recCells l.record 0 + c.getD 0 0

/-- The box of one cell (R349). -/
def Launch.cellBox (l : Launch) (c : List Nat) : Box :=
  let org := (List.range 4).map (fun d => c.getD d 0 * recQuad l.record 4 d)
  { org := org, ext := (List.range 4).map (fun d => min (recQuad l.record 4 d) (recQuad l.record 2 d - org.getD d 0)) }

/-- The cores of the current placement's set, ranked by logical number (R349). (DEDUCED, log 44) -/
def State.setCores (s : State) (part : Nat) (l : Launch) : List Nat :=
  (s.partCores part).filter (fun n => bitOf (s.partSet part l.sched.pset) (posOfCore n))

/-- Mine(n, k) of R349. -/
def Launch.mine (l : Launch) (set : List Nat) (core k : Nat) : Bool :=
  let rank := (set.filter (fun n => decide (n < core))).length
  set.contains core &&
  (match l.sched.pmode with
    | 1 => k % set.length == rank
    | 2 => loopCoord l.sched.order l.tiles k l.sched.pdim % set.length == rank
    | _ => true)

/-- The cursor that a core uses (R349): the shared one under PMODE any, else its own. (DEDUCED, log 44) -/
def Launch.cursorKey (l : Launch) (set : List Nat) (core : Nat) : Nat := if l.sched.pmode = 0 && set.contains core then 0 else core + 1

/-- NextTile (R349) over the covered bits `m`: the box, the bits it takes, and the cursor; no box where the cursor runs out. -/
def Launch.nextTile (l : Launch) (set : List Nat) (core m : Nat) : Nat → Nat → Option (Box × List Nat) × Nat
  | 0, k => (none, k)
  | fuel + 1, k =>
    let cs := l.cells (l.cand k)
    let us := cs.filter (fun c => !m.testBit (l.cellBit c))
    if !l.mine set core k then l.nextTile set core m fuel (k + 1)
    else
      match us with
      | [] => l.nextTile set core m fuel (k + 1)
      | u :: _ =>
        if us.length = cs.length then (some (l.cand k, cs.map l.cellBit), k + 1)
        else (some (l.cellBox u, [l.cellBit u]), k)

/-- Every bit of the map is 1 (R350). -/
def allCovered (r : List Word) (m : Nat) : Bool := m % 2 ^ cellCount r == 2 ^ cellCount r - 1

/-- The coverage map of a launch read at its homes (R349). (DEDUCED, log 44) -/
def State.readMap (s : State) (ag : Agent) (part : Nat) (l : Launch) (k : State → Nat → Out) : Out :=
  let a := ptrAddr (recW l.record 8)
  let n := mapBytes l.record
  if !isTranslated a || !isTranslated (a + n - 1) then .next (s.mapFailed ag.die part (.refused a))
  else
    s.agentRead ag a n (fun s e => .next (s.mapFailed ag.die part e)) (fun s bs bad =>
      match bad with
      | x :: _ => .next (s.mapFailed ag.die part (.poison x))
      | [] => k s (fromBytesLE bs))

/-- The bytes of the map that bits change. -/
def mapRuns (a m : Nat) (bits : List Nat) : List (Nat × List Byte) :=
  let m1 := bits.foldl (fun x b => x ||| 2 ^ b) m
  (bits.foldl (fun acc b => insertNat (b / 8) acc) []).map (fun y => (a + y, [BitVec.ofNat 8 (bitsOf m1 (8 * y) 8)]))

/-- The five registers of a `tnext` answer (R346). -/
def State.answerTile (s : State) (n i : Nat) (ws : List Word) : State :=
  match (s.ctxAt n i).wait with
  | none => s
  | some w =>
    (s.onCtx n i (fun x => (List.range 5).foldl (fun x k => x.setG (irD w.ir + BitVec.ofNat 5 k) (ws.getD k 0)) x)).answer n i none

/-- The swapped tasks of a cluster that are ready and not yet promised a core (R354). -/
def State.unpromised (s : State) (part cl : Nat) : Nat :=
  ((s.partAt part).saved.filter (fun v => v.reason == 0 && v.ready && v.cluster == cl)).length
  - ((List.range 16).filter (fun p => (s.coreAt (16 * cl + p)).task.any (fun t => t.part == part && t.handed))).length

/-- DISPENSER_TNEXT (R346, R349, R354): DONE with HAND for a ready swapped task; else NextTile, its bits written before the answer.
(DEDUCED, log 44) -/
def execDispenserTnext (s : State) : Out :=
  s.dispenserServe .dispenserTnext (fun s l =>
    let n := s.ev.core
    let i := s.ev.ctx
    let part := s.ev.unit
    let ag := s.dispatchAgent (s.leadDie part) part .dispenserTnext s.ev
    if 0 < s.unpromised part (clusterOfCore n) then
      .next (((s.onCore n (fun c => { c with task := c.task.map (fun t => { t with handed := true }) })).answerTile n i
        [BitVec.ofNat 64 (2 ^ 63 + 2 ^ 61), 0, 0, 0, 0]).dispenserDone part)
    else
      (s.dispenserTakes .dispenserTnext).readMap ag part l (fun s m =>
        let set := s.setCores part l
        let key := l.cursorKey set n
        let k := tabGet 0 l.cursors key
        let r := l.nextTile set n m (l.candCount - k) k
        let cursors := tabSet 0 l.cursors key r.2
        match r.1 with
        | none =>
          let v : Word := if allCovered l.record m then BitVec.ofNat 64 (2 ^ 63) else BitVec.ofNat 64 (2 ^ 62)
          .next ((((s.onLaunch part (fun x => { x with cursors := cursors })).dropRemote ag.core).answerTile n i [v, 0, 0, 0, 0]).dispenserDone part)
        | some (b, bits) =>
          s.mapWrite ag part (mapRuns (ptrAddr (recW l.record 8)) m bits) (fun s =>
            let tok := l.nextToken
            let gen := l.gen.toNat % 65536
            let s1 := s.onLaunch part (fun x => { x with
              cursors := cursors, nextToken := (tok + 1) % 2 ^ 32, tokens := x.tokens ++ [(tok, n)] })
            let s2 := (s1.onCore n (fun c => { c with task := c.task.map (fun t => { t with tile := some { token := tok, gen := gen } }) })).acquire n .package
            let pair (xs : List Nat) (j : Nat) : Word := BitVec.ofNat 64 (xs.getD (2 * j + 1) 0 * 2 ^ 32 + xs.getD (2 * j) 0)
            .next (((s2.dropRemote ag.core).answerTile n i
              [BitVec.ofNat 64 (gen * 2 ^ 32 + tok), pair b.org 0, pair b.org 1, pair b.ext 0, pair b.ext 1]).dispenserDone part))))

/-- The completion decrement of a launch (R350): performed at DONE's home, or logged and reported with status 10. (DESIGN CHOICE, log 53) -/
def State.completeLaunch (s : State) : Out :=
  let part := s.ev.unit
  let q := s.ev.aux / 65536
  let done := s.ev.data.getD 0 0
  let queue := ((s.ev.data.getD 1 0)).toNat
  let d := s.ev.die
  let ag := s.dispatchAgent d part .dispenserTdone s.ev
  let fail (s : State) (e : AgentErr) : Out :=
    let cls := match e with
      | .poison _ => 0x02
      | _ => 0x06
    .next (((s.logHearth d cls 6 e.addr 10).sendStatus queue 10 s.ev.val).dropRemote (1008 * d))
  if q ≠ 0 then .next s
  else if !isTranslated (ptrAddr done) then fail s (.refused (ptrAddr done))
  else s.agentDecrement ag (ptrAddr done) 1 queue fail (fun s => .next (s.dropRemote (1008 * d)))

/-- DISPENSER_TDONE (R347, R350): a token is closed; when every bit is 1 and every token closed, the launch is complete and its DONE is
decremented. With `flag` the decrement itself is due. (DESIGN CHOICE, log 53) -/
def execDispenserTdone (s : State) : Out :=
  if s.ev.flag then s.completeLaunch
  else if (s.partAt s.ev.unit).halted then .next s
  else
    let part := s.ev.unit
    s.dispenserTurn .dispenserTdone (fun s l0 =>
      s.dispenserReached s.ev.core part false (fun s =>
        let tokens := l0.tokens.filter (fun t => t.1 != s.ev.val.toNat)
        let s1 := s.onLaunch part (fun l => { l with tokens := tokens })
        if l0.complete || !tokens.isEmpty then .next ((s1.dispenserDone part).checkFree part)
        else
          (s1.dispenserTakes .dispenserTdone).readMap (s1.dispatchAgent (s1.leadDie part) part .dispenserTdone s1.ev) part l0 (fun s m =>
            let s2 := s.dropRemote (1008 * s.leadDie part)
            let s3 := if allCovered l0.record m then
                (s2.onLaunch part (fun l => { l with complete := true })).post .dispenserTdone
                  { Ev.empty with unit := part, flag := true, die := s2.leadDie part, val := recEntry l0.record
                                  data := [recW l0.record 9, BitVec.ofNat 64 l0.queue, BitVec.ofNat 64 l0.num] }
              else s2
            .next ((s3.dispenserDone part).checkFree part))))

end Sys2Proof.Machine
end

