-- ==== Sys2Proof/Machine/Command.lean ====
section
/-!
DEFINITION. Command messages that arrive over Ultra Ethernet (R411 to R414): the endpoint table, the header, and the replies.
An arriving message's event carries the sender's endpoint number in `die` (256 or more: an address no valid entry names), the whole
payload with its header in `data`, and in `flag` whether the payload ends in a fraction of a doubleword.
-/

namespace Sys2Proof.Machine

open Sys2Proof

/-- Doubleword 0 of a message's header (R413). -/
def Ev.hdr (e : Ev) : Word := e.data.getD 0 0
/-- KIND of a message (R413). -/
def Ev.kind (e : Ev) : Nat := fieldOf e.hdr 56 8
/-- REQID of a message (R413). -/
def Ev.reqid (e : Ev) : Nat := fieldOf e.hdr 32 16
/-- LEN of a message (R413). -/
def Ev.len (e : Ev) : Nat := fieldOf e.hdr 16 16
/-- TARGET of a message (R413). -/
def Ev.target (e : Ev) : Nat := fieldOf e.hdr 0 16
/-- ARG of a message (R413). -/
def Ev.arg (e : Ev) : Word := e.data.getD 1 0
/-- The payload after the header (R413). -/
def Ev.payload (e : Ev) : List Word := e.data.drop 2

/-- Is a message's header that of R413: its KIND, a zero reserved field, and the LEN of its payload? -/
def Ev.headerOk (e : Ev) (kind : Nat) : Bool :=
  decide (2 ≤ e.data.length) && e.kind == kind && fieldOf e.hdr 48 8 == 0 && !e.flag
  && e.len == 8 * e.payload.length && decide (e.len ≤ 4096)

/-- Is an endpoint's entry valid (R412)? -/
def State.endpointValid (s : State) (e : Nat) : Bool := decide (e < 256) && (s.endpoint e).getLsbD 63

/-- The protection domain of an endpoint (R412). -/
def State.endpointDomain (s : State) (e : Nat) : Nat := fieldOf (s.endpoint e) 32 16

/-- A message of a kind from a valid endpoint with a right header is acted on; any other is dropped and logged (R412, R413). -/
def State.command (s : State) (kind : Nat) (k : State → Out) : Out :=
  if !s.endpointValid s.ev.die then .next (s.logHearth 0 0x06 6 0 0)
  else if !s.ev.headerOk kind then .next (s.logHearth 0 0x0A 6 0 0)
  else k s

/-- The reply to a management request (R388): 0 done, 1 busy, 2 refused, 3 failed. -/
def State.mgmtReply (s : State) (endpoint reqid code status : Nat) (payload : List Word) : State :=
  s.sendFabric { kind := 0x82, endpoint := endpoint, target := code, reqid := reqid, arg := BitVec.ofNat 64 status, payload := payload }

/-- The reply to the management request in hand. -/
def State.answerMgmt (s : State) (code status : Nat) (payload : List Word) : State :=
  s.mgmtReply s.ev.die s.ev.reqid code status payload

/-- A management request of a code: refused unless its endpoint has MGMT (R388, R414), and so is a code that R388 does not list.
(DESIGN CHOICE, log 64) -/
def State.management (s : State) (code : Nat) (k : State → Out) : Out :=
  s.command 0x02 (fun s =>
    if s.ev.target ≠ code then .next (s.answerMgmt s.ev.target 2 [])
    else if !(s.endpoint s.ev.die).getLsbD 62 then .next (s.answerMgmt code 2 [])
    else k s)

end Sys2Proof.Machine
end

