-- ==== Sys2Proof/Machine/Storage.lean ====
section
/-!
DEFINITION. The storage queue engine of a die (R392 to R404): its SSDs, the free-frame stack, the service of faults on storage-backed
pages, and the request ring.
An SSD's completion entry brings its port in `unit`, its command id in `aux`, its status in `val` (bit 15 DNR, [14:12] SCT, [7:0] SC), and
the data that came with it in `data`; `flag` says that data arrived poisoned, in the `core` words from word `ctx` on.
-/

namespace Sys2Proof.Machine

open Sys2Proof

/-- SSDCFG of SSD `n`. -/
def State.ssdCfg (s : State) (d n : Nat) : Word := s.dieReg d (ssdOff n 0)

/-- STATE of an SSD: 0 off, 1 bringing up, 2 ready, 3 failed, 4 stopping (R395). -/
def State.ssdState (s : State) (d n : Nat) : Nat := fieldOf (s.ssdCfg d n) 60 3

/-- STATE and ERRC of an SSD set. -/
def State.setSsdState (s : State) (d n st errc : Nat) : State :=
  s.setDieReg d (ssdOff n 0) (setField (setField (s.ssdCfg d n) 60 3 st) 48 8 errc)

/-- An SSD of a die. -/
def Die.ssd (x : Die) (n : Nat) : Ssd := x.ssds.toList.getD n { step := 0, cmds := [], nextCid := 0 }

/-- An SSD changed; OUT counts the commands that are out (R395). -/
def State.onSsd (s : State) (d n : Nat) (f : Ssd → Ssd) : State :=
  let y := f ((s.dieAt d).ssd n)
  let s1 := s.onDie d (fun x => if h : n < 4 then { x with ssds := x.ssds.set n y h } else x)
  s1.setDieReg d (ssdOff n 24) (setField (s1.dieReg d (ssdOff n 24)) 0 16 y.cmds.length)

/-- LBADS of an SSD (R395). -/
def State.lbads (s : State) (d n : Nat) : Nat := fieldOf (s.dieReg d (ssdOff n 24)) 56 8

/-- NSZE of an SSD (R395). -/
def State.nsze (s : State) (d n : Nat) : Nat := fieldOf (s.dieReg d (ssdOff n 16)) 0 48

/-- An entry of source code 0x16 for a context (R404). -/
def entry16 (event port tag status : Nat) : Word := inboxDw0 0x16 event (port * 2 ^ 48 + tag * 2 ^ 32 + status * 65536)

/-- An entry of source code 0x16 posted to SVC0 of a die (R404). -/
def State.postSvc0 (s : State) (d event port tag status : Nat) (dw1 : Word) : State :=
  if s.nsvc d = 0 then s else s.postInbox (s.svcCore d 0) 0 (0x1600 + d) (entry16 event port tag status) dw1

/-- TOP of a die's free-frame stack (R398). -/
def State.ffsTop (s : State) (d : Nat) : Nat := fieldOf (s.dieReg d 0x288) 0 32

/-- TOP set. -/
def State.setFfsTop (s : State) (d n : Nat) : State := s.setDieReg d 0x288 (setField (s.dieReg d 0x288) 0 32 n)

/-- EMPTY follows whether a fault waits for a frame (R398). -/
def State.setEmpty (s : State) (d : Nat) : State :=
  s.setDieReg d 0x298 (setField (s.dieReg d 0x298) 63 1 (if (s.dieAt d).sbQueue.isEmpty then 0 else 1))

/-- A word that could not be read as good data, logged: an error reply, or an uncorrectable error (R7, R384). -/
def State.logUnread (s : State) (d pa : Nat) : State :=
  match s.peekLine d pa with
  | .error c => s.logHearth d 0x06 5 pa (BitVec.ofNat 64 c)
  | .ok _ => s.logHearth d 0x02 5 pa 0

/-- A pop of the stack with TOP above 0 (R398): the frame; a TOP that falls to LOW is notified. An entry with an uncorrectable error
gives no frame, and is logged (R7). (DEDUCED, log 93) -/
def State.popFrame (s : State) (d : Nat) : Option Nat × State :=
  let top := s.ffsTop d - 1
  let low := fieldOf (s.dieReg d 0x288) 48 16
  let pa := fieldOf (s.dieReg d 0x280) 0 48 + 8 * top
  let w := s.peekWord d pa
  let s1 := if w.2 then (s.setFfsTop d top).logUnread d pa else s.setFfsTop d top
  let s2 := if low ≠ 0 ∧ top = low then
      (s1.setDieReg d 0x298 (setField (s1.dieReg d 0x298) 62 1 1)).postSvc0 d 2 0 0 0 (BitVec.ofNat 64 top)
    else s1
  (if w.2 then none else some w.1.toNat, s2)

/-- Pops until one gives a frame or the stack is empty; the number bounds them. -/
def State.popGood (s : State) (d : Nat) : Nat → Option Nat × State
  | 0 => (none, s)
  | k + 1 =>
    if s.ffsTop d = 0 then (none, s) else
    match s.popFrame d with
    | (none, s1) => s1.popGood d k
    | r => r

/-- A frame pushed (R398); one that the stack cannot take is lost, counted and logged. -/
def State.pushFrame (s : State) (d f : Nat) (ok : Bool) : State :=
  let cap := fieldOf (s.dieReg d 0x280) 48 16
  let top := s.ffsTop d
  if !ok ∨ 0x8000000000 ≤ f ∨ top = cap then
    let st := s.dieReg d 0x298
    (s.setDieReg d 0x298 (setField st 0 32 (min 0xFFFFFFFF (fieldOf st 0 32 + 1)))).logHearth d 0x0B 5 f 0
  else (s.poke d (fieldOf (s.dieReg d 0x280) 0 48 + 8 * top) (bytesLE 8 f)).setFfsTop d (top + 1)

/-- Is a leaf unserviceable (R396)? -/
def State.unserviceable (s : State) (l : Leaf) : Bool :=
  let d := l.ssd / 4
  let n := l.ssd % 4
  let b := 2 ^ (16 - s.lbads d n)
  l.level != 0 || s.ssdState d n != 2 || l.next % b != 0 || decide (s.nsze d n < l.next + b)

/-- The entry of a page at a die's engine. -/
def Die.sbFault (x : Die) (page : Nat) : Option SbFault := x.sbFaults.find? (fun f => f.page == page)

/-- The entry of a page replaced. -/
def State.putFault (s : State) (d : Nat) (f : SbFault) : State :=
  s.onDie d (fun x => { x with sbFaults := x.sbFaults.map (fun y => if y.page = f.page then f else y) })

/-- A page answered: RETRY or ERROR to the walkers of every die whose message came, and its entry is free (R399). -/
def State.answerFault (s : State) (d : Nat) (f : SbFault) (error : Bool) : State :=
  let s1 := s.onDie d (fun x => { x with
    sbFaults := x.sbFaults.filter (fun y => y.page != f.page), sbQueue := x.sbQueue.filter (fun p => p != f.page) })
  f.dies.foldl (fun a e => a.replyPage d e f.page f.ovf error) (s1.setEmpty d)

/-- OPC of a request (R401). -/
def reqOpc (r : List Word) : Nat := fieldOf (r.getD 0 0) 56 8
/-- Port of a request (R401). -/
def reqPort (r : List Word) : Nat := fieldOf (r.getD 0 0) 54 2
/-- TAG of a request (R401). -/
def reqTag (r : List Word) : Nat := fieldOf (r.getD 0 0) 32 16
/-- CMODE of a request (R401). -/
def reqMode (r : List Word) : Nat := fieldOf (r.getD 0 0) 30 2
/-- SLBA of a request (R401). -/
def reqSlba (r : List Word) : Nat := fieldOf (r.getD 1 0) 0 48
/-- NLB of a request (R401). -/
def reqNlb (r : List Word) : Nat := fieldOf (r.getD 2 0) 0 32
/-- The buffer of a request (R401). -/
def reqBuf (r : List Word) : Nat := fieldOf (r.getD 3 0) 0 48
/-- The core of a request's inbox entry (R401). -/
def reqCore (r : List Word) : Nat := fieldOf (r.getD 4 0) 52 12
/-- The context of a request's inbox entry (R401). -/
def reqCtx (r : List Word) : Nat := fieldOf (r.getD 4 0) 48 4
/-- The signal of a request (R401). -/
def reqSig (r : List Word) : Nat := fieldOf (r.getD 5 0) 0 56

/-- Does an outstanding Write of an SSD overlap blocks `lo` to `lo + n - 1` (R403)? -/
def Ssd.writesOver (x : Ssd) (lo n : Nat) : Bool :=
  x.cmds.any (fun c => c.page.isNone && reqOpc c.desc == 1 && decide (reqSlba c.desc < lo + n) && decide (lo < reqSlba c.desc + reqNlb c.desc))

/-- Lines of a buffer written by an engine go on from their physical-window homes to HBM4E at once, where a fetch of a page that maps the
buffer finds them (R308, R327). (DESIGN CHOICE, log 96) -/
def State.writeThrough (s : State) (pa n : Nat) : State :=
  (linesOf pa n).foldl (fun a l => a.evictHomeLine (a.physHome (l.1 * 64)) (winKey (l.1 * 64))) s

/-- Doublewords written by an engine of a die to HBM4E at their homes. (DESIGN CHOICE, log 96) -/
def State.engineWrite (s : State) (d pa : Nat) (ws : List Word) : State :=
  (s.poke d pa (ws.flatMap (fun w => bytesLE 8 w.toNat))).writeThrough pa (8 * ws.length)

/-- Bytes of an entry of the queue memory: 0 a submission entry, 1 a PRP-list slot, 2 a completion entry, 3 and 4 those of the admin queues. -/
def queueUnit (k : Nat) : Nat := if k = 1 then 128 else if k = 2 ∨ k = 4 then 16 else 64

/-- The PA of entry `i` of a kind in the 64 KiB of an SSD's queue memory; where in them the manual leaves open (R393, R395).
(DESIGN CHOICE, log 73) -/
def State.queuePlace (s : State) (d n k i : Nat) : Nat :=
  fieldOf (s.dieReg d (ssdOff n 8)) 0 48 + queueUnit k * (Config.queuePlace k i % (65536 / queueUnit k))

/-- `n` words that the manual leaves open. -/
def State.openWords (s : State) (n : Nat) : List Word := (List.range n).map (fun i => Config.freeWord (s.freeCtr + i))

/-- An admin command's submission entry written (R393): what it holds the manual leaves open. (DESIGN CHOICE, log 73) -/
def State.sendAdmin (s : State) (d n : Nat) : State :=
  { s with freeCtr := s.freeCtr + 8 }.engineWrite d (s.queuePlace d n 3 s.freeCtr) (s.openWords 8)

/-- A completion entry written by an SSD (R393): what it holds the manual leaves open. (DESIGN CHOICE, log 73) -/
def State.putCompletion (s : State) (d n k : Nat) : State :=
  { s with freeCtr := s.freeCtr + 2 }.engineWrite d (s.queuePlace d n k s.freeCtr) (s.openWords 2)

/-- The submission entry of a command and its PRP-list slot written (R399, R400): a Read of 64 KiB into a frame, or a request's command, whose
list is left open. (PRESUMED, log 72; DESIGN CHOICE, log 73) -/
def State.putCommand (s : State) (d n cid : Nat) (page : Option Nat) (r : List Word) : State :=
  let free (i : Nat) : Word := Config.freeWord (s.freeCtr + i)
  let nsid := fieldOf (s.ssdCfg d n) 0 32
  let dw0 (opc : Nat) : Word := BitVec.ofNat 64 (nsid * 2 ^ 32 + cid * 65536 + opc)
  let entry (opc prp1 : Nat) (prp2 : Word) (lba count : Nat) : List Word :=
    [dw0 opc, free 0, free 1, BitVec.ofNat 64 prp1, prp2, BitVec.ofNat 64 lba, setField (free 2) 0 32 count, free 3]
  let put (list : List Word) (ws : List Word) : State :=
    ({ s with freeCtr := s.freeCtr + 24 }.engineWrite d (s.queuePlace d n 1 cid) list).engineWrite d (s.queuePlace d n 0 cid) ws
  match page.bind (s.dieAt d).sbFault with
  | some f =>
    let fr := f.frame.getD 0
    put ((List.range 15).map (fun k => BitVec.ofNat 64 (fr + 4096 * (k + 1))))
      (entry 2 fr (BitVec.ofNat 64 (s.queuePlace d n 1 cid)) f.leaf.next (2 ^ (16 - s.lbads d n) - 1))
  | none =>
    let list := (List.range 16).map (fun i => free (8 + i))
    if reqOpc r = 0 then put list (dw0 0 :: (List.range 7).map free)
    else put list (entry (reqOpc r) (reqBuf r) (free 4) (reqSlba r) (reqNlb r - 1 + (if (r.getD 0 0).getLsbD 29 then 2 ^ 30 else 0)))

/-- The index of the submission entry that the next command of an SSD takes, which is its CID: the next one that no outstanding command holds
(R400). (DESIGN CHOICE, log 73) -/
def Ssd.freeCid (x : Ssd) : Nat :=
  (((List.range 256).map (fun i => (x.nextCid + i) % 256)).find? (fun k => !x.cmds.any (fun c => c.cid == k))).getD 0

/-- Two seconds of global time (R402). -/
def commandLimit : Nat := 2000000000

/-- A command submitted to an SSD (R393, R399, R401), which fails its SSD unless it completes within 2 s (R402). (DESIGN CHOICE, log 73) -/
def State.submit (s : State) (d n : Nat) (page : Option Nat) (desc : List Word) : State :=
  let cid := ((s.dieAt d).ssd n).freeCid
  let due := timeAfter s.time commandLimit
  ((s.putCommand d n cid page desc).onSsd d n (fun x => { x with
    cmds := x.cmds ++ [{ cid := cid, page := page, desc := desc, due := due }], nextCid := (cid + 1) % 256 })).post .ssdCommandTimeout
      { Ev.empty with die := d, unit := n, aux := cid, val := due, flag := true }

/-- A fault that cannot have a frame yet waits for one; the first to wait is notified (R398). -/
def State.waitFrame (s : State) (d page : Nat) : State :=
  if (s.dieAt d).sbQueue.contains page then s
  else
    let first := (s.dieAt d).sbQueue.isEmpty
    let s1 := (s.onDie d (fun x => { x with sbQueue := x.sbQueue ++ [page] })).setEmpty d
    if first then (s1.postSvc0 d 3 0 0 0 (BitVec.ofNat 64 (s1.ffsTop d))).logHearth d 0x0B 5 0 0 else s1

/-- Is it a page's turn to take a frame: it is the first that waits, or none waits (R398)? -/
def Die.frameTurn (x : Die) (page : Nat) : Bool :=
  match x.sbQueue with
  | [] => true
  | p :: _ => p == page

/-- A page takes the frame that is popped for it and waits no more; when no entry gives a frame, it waits for one. -/
def State.takeFrame (s : State) (d page : Nat) : Option Nat × State :=
  match s.popGood d (s.ffsTop d) with
  | (some fr, s1) => (some fr, (s1.onDie d (fun y => { y with sbQueue := y.sbQueue.filter (fun p => p != page) })).setEmpty d)
  | (none, s1) => (none, s1.waitFrame d page)

/-- A granted migration gets its frame from die 0's stack and reads the page from its endpoint, or waits for a frame (R418). -/
def State.migrateFrame (s : State) (d page : Nat) : State :=
  match s.migrations.find? (fun m => m.page == page && m.phase == 2) with
  | none => s
  | some m =>
    if d ≠ 0 then s
    else if s.ffsTop 0 = 0 ∨ !(s.dieAt 0).frameTurn page then s.waitFrame 0 page
    else
      match s.takeFrame 0 page with
      | (none, s1) => s1
      | (some fr, s1) =>
        let s2 := { s1 with migrations := s1.migrations.map (fun (y : Migrate) => if y.page = page then { y with frame := some fr, phase := 3 } else y) }
        s2.sendRma 0 m.leaf.frame false [65536]

/-- A pending page looked at: it gets a frame and its Read is submitted once no overlapping Write is out and the queue has room (R399). -/
def State.progressFault (s : State) (d page : Nat) : State :=
  match (s.dieAt d).sbFault page with
  | none => s.migrateFrame d page
  | some f =>
    let n := f.leaf.ssd % 4
    let x := (s.dieAt d).ssd n
    if f.submitted ≠ 0 then s
    else if s.ssdState d n ≠ 2 then
      let s1 := match f.frame with
        | some p => s.pushFrame d p true
        | none => s
      s1.answerFault d f true
    else if x.writesOver f.leaf.next (2 ^ (16 - s.lbads d n)) then s
    else
      let go (a : State) (f : SbFault) : State :=
        if 256 ≤ x.cmds.length then a.putFault d f else (a.putFault d { f with submitted := 1 }).submit d n (some page) []
      match f.frame with
      | some _ => go s f
      | none =>
        if s.ffsTop d = 0 ∨ !(s.dieAt d).frameTurn page then s.waitFrame d page
        else
          match s.takeFrame d page with
          | (none, s1) => s1
          | (some fr, s1) => go s1 { f with frame := some fr }

/-- Every pending page of a die looked at: those that wait for a frame in their order, then the others. -/
def State.progressFaults (s : State) (d : Nat) : State :=
  let x := s.dieAt d
  let ps := x.sbQueue ++ (x.sbFaults.map (fun f => f.page)).filter (fun p => !x.sbQueue.contains p)
  ps.foldl (fun a p => a.progressFault d p) s

/-- The leaf of a PA at its physical-window home, as it now stands. -/
def State.leafAt (s : State) (d pa level : Nat) : Option Leaf :=
  let a := s.peekWord d pa
  let b := s.peekWord d (pa + 8)
  if a.2 || b.2 then none else some { w0 := a.1, w1 := b.1, pa := pa, level := level }

/-- SQE_FAULT_MESSAGE (R396, R399): a page already pending is joined; a new one is read afresh and answered, or served. -/
def execSqeFaultMessage (s : State) : Out :=
  let e := s.ev
  let d := e.die
  let from' := dieOfCore e.core
  match (s.dieAt d).sbFault e.addr with
  | some f => .next (s.putFault d { f with dies := insertNat from' f.dies, ovf := f.ovf || e.flag })
  | none =>
    if 4096 ≤ (s.dieAt d).sbFaults.length then .next (s.retryLater .sqeFaultMessage e)
    else
      let l0 := e.faultLeaf
      let answer (a : State) (error : Bool) : Out := .next (a.replyPage d from' e.addr e.flag error)
      match s.leafAt d l0.pa l0.level with
      | none => answer (s.logUnread d l0.pa) true
      | some l =>
        if l.v || !l.sb || l.ssd / 4 != d then answer s false
        else if s.unserviceable l then answer (s.logHearth d 0x07 5 l.pa 0) true
        else
          let f : SbFault := { page := e.addr, leaf := l, frame := none, dies := [from'], ovf := e.flag, submitted := 0 }
          .next ((s.onDie d (fun x => { x with sbFaults := x.sbFaults ++ [f] })).progressFault d e.addr)

/-- FFSBASE_WRITE (R398): the stack is set, with TOP 0; faults keep waiting. -/
def execFfsbaseWrite (s : State) : Out :=
  .next (((s.setDieReg s.ev.die 0x280 s.ev.val).setFfsTop s.ev.die 0).answerReg none)

/-- FFS_PUSH (R398): a frame pushed by software, which serves the faults that wait. -/
def execFfsPush (s : State) : Out :=
  let v := s.ev.val
  let d := s.ev.die
  let s1 := s.pushFrame d (fieldOf v 16 32 * 65536) (fieldOf v 48 16 == 0 && fieldOf v 0 16 == 0)
  .next ((s1.progressFaults d).answerReg none)

/-- FFSSTAT_READ (R398): the read clears REJ. -/
def execFfsstatRead (s : State) : Out :=
  let d := s.ev.die
  let v := s.dieReg d 0x298
  .next ((s.setDieReg d 0x298 (setField v 0 32 0)).answerReg (some v))

/-- FFSSTAT_WRITE (R398): LOWN clears by writing one. -/
def execFfsstatWrite (s : State) : Out :=
  let d := s.ev.die
  let s1 := if s.ev.val.getLsbD 62 then s.setDieReg d 0x298 (setField (s.dieReg d 0x298) 62 1 0) else s
  .next (s1.answerReg none)

/-- A host-memory or HBM4E range of PAs (R300). -/
def paMemory (a n : Nat) : Bool := (paHbm a && paHbm (a + n - 1)) || (paHost a && paHost (a + n - 1))

/-- Is the signal of a request usable (R401)? -/
def reqSigOk (r : List Word) : Bool := fieldOf (r.getD 5 0) 56 8 == 0 && reqSig r % 8 == 0 && paMemory (reqSig r) 8
/-- Is the inbox target of a request usable (R401)? -/
def reqBoxOk (r : List Word) : Bool := decide (reqCore r < 4032) && decide (reqCtx r ≤ 10)

/-- The event entry of a request's completion, to its context or to SVC0 (R401, R404); an error is logged. -/
def State.postRequest (s : State) (d : Nat) (r : List Word) (status : Nat) (svc : Bool) : State :=
  let ev := if status = 0 then 0 else 1
  let dw1 : Word := BitVec.ofNat 64 (reqSlba r)
  if svc then s.postSvc0 d 1 (reqPort r) (reqTag r) status dw1
  else s.postInbox (reqCore r) (reqCtx r) (0x1600 + d) (entry16 ev (reqPort r) (reqTag r) status) dw1

/-- The signal of a request in HBM4E decremented at its home as a release (R404); false when the signal object is poisoned or cannot be
reached, as in host memory whose region's entry cannot be read. (DEDUCED, logs 74, 93) -/
def State.reqDecrement (s : State) (d : Nat) (r : List Word) : Bool × State :=
  let pa := reqSig r
  if paHost pa then (false, s.logRegion d pa)
  else
    match s.peek d pa 8 with
    | .error c => (false, s.logHearth d 0x06 5 pa (BitVec.ofNat 64 c))
    | .ok (bs, bad) =>
      if bad then (false, s.logHearth d 0x02 5 pa 0)
      else (true, s.poke d pa (bytesLE 8 (BitVec.ofNat 64 (fromBytesLE bs) - 1 : Word).toNat))

/-- The entries of a request whose decrement is done with (R401, R404): one that failed (`late`) makes the status 0xFFFF, and what cannot
be delivered as asked goes to SVC0. (DEDUCED, log 74) -/
def State.finishRequest (s : State) (d : Nat) (r : List Word) (status : Nat) (late : Bool) : State :=
  let m := reqMode r
  let wantSig := m = 2 ∨ m = 3
  let wantBox := m = 1 ∨ m = 3
  let status' := if late ∧ status = 0 then 0xFFFF else status
  let s9 := if late ∧ status = 0 then s.logHearth d 0x0B 5 (reqSlba r) 0xFFFF else s
  let s1 := if wantBox ∧ reqBoxOk r then s9.postRequest d r status' false else s9
  if m = 0 ∨ (wantSig ∧ (!reqSigOk r ∨ late)) ∨ (wantBox ∧ !reqBoxOk r) then s1.postRequest d r status' true else s1

/-- The decrement message for a signal in host memory goes to its endpoint; the request waits for the answer (R421). (DESIGN CHOICE, log 105) -/
def State.sendDecrement (s : State) (d : Nat) (r : List Word) (status : Nat) : State :=
  let t := s.remoteOf d (reqSig r)
  let s1 := s.sendFabric { kind := 0x03, endpoint := t.1, target := 0, reqid := 0, arg := t.2, payload := [1] }
  let s2 := s1.onDie d (fun x => { x with hostWrites := x.hostWrites ++ [t.1], sigWaits := x.sigWaits ++ [(r, status)] })
  { s2 with remoteDecs := s2.remoteDecs ++ [{ agent := 8, core := d, unit := reqPort r, addr := t.2.toNat, data := r }] }

/-- A request completes with a status (R401, R404): the decrement, then the entries. (DEDUCED, log 74) -/
def State.completeRequest (s : State) (d : Nat) (r : List Word) (status : Nat) : State :=
  let s0 := if status = 0 then s else s.logHearth d 0x0B 5 (reqSlba r) (BitVec.ofNat 64 status)
  if (reqMode r = 2 ∨ reqMode r = 3) ∧ reqSigOk r then
    if paHost (reqSig r) ∧ (s0.badRegion d (reqSig r)).isNone then s0.sendDecrement d r status
    else
      let res := s0.reqDecrement d r
      res.2.finishRequest d r status (!res.1)
  else s0.finishRequest d r status false

/-- A request that is done with its data completes once the RMA writes of the engine are acknowledged (R421). -/
def State.requestDone (s : State) (d : Nat) (r : List Word) (status : Nat) : State :=
  if (s.dieAt d).hostWrites.isEmpty then s.completeRequest d r status
  else s.onDie d (fun x => { x with ackWaits := x.ackWaits ++ [(r, status)] })

/-- Does a descriptor break the table of R401, or name what its SSD does not serve? (DEDUCED, log 74) -/
def State.requestBad (s : State) (d : Nat) (r : List Word) : Bool :=
  let w (i : Nat) : Word := r.getD i 0
  let n := reqPort r
  let opc := reqOpc r
  let m := reqMode r
  let lb := s.lbads d n
  let size := reqNlb r * 2 ^ lb
  decide (2 < opc) || fieldOf (w 0) 48 6 != 0 || m == 0 || ((w 0).getLsbD 29 && opc != 1) || fieldOf (w 0) 0 29 != 0
  || fieldOf (w 4) 0 48 != 0 || !reqBoxOk r || fieldOf (w 5) 56 8 != 0 || w 6 != 0 || w 7 != 0
  || (if m = 2 ∨ m = 3 then !reqSigOk r else w 5 != 0)
  || s.ssdState d n != 2
  || (if opc = 0 then w 1 != 0 || w 2 != 0 || w 3 != 0
      else fieldOf (w 1) 48 16 != 0 || fieldOf (w 2) 32 32 != 0 || fieldOf (w 3) 48 16 != 0 || reqBuf r % 4096 != 0
        || reqNlb r == 0 || decide (2 ^ (21 - lb) < reqNlb r) || decide (s.nsze d n < reqSlba r + reqNlb r)
        || !paMemory (reqBuf r) size)

/-- Does reading a Write's buffer meet poison or an error reply (R401)? -/
def State.bufferBad (s : State) (d a n : Nat) : Bool :=
  (linesOf a n).any (fun l =>
    match s.peek d (l.1 * 64 + l.2.1) l.2.2 with
    | .ok (_, bad) => bad
    | .error _ => true)

/-- HEAD of the request ring (R401). -/
def State.srqHead (s : State) (d : Nat) : Nat := fieldOf (s.dieReg d 0x2A8) 0 32
/-- TAIL of the request ring (R401). -/
def State.srqTail (s : State) (d : Nat) : Nat := fieldOf (s.dieReg d 0x2A8) 32 32
/-- CAP of the request ring (R401). -/
def State.srqCap (s : State) (d : Nat) : Nat := fieldOf (s.dieReg d 0x2A0) 48 16

/-- The descriptor at HEAD, and whether a word of it is poisoned or its home cannot answer. -/
def State.srqDesc (s : State) (d : Nat) : List Word × Bool :=
  let a := fieldOf (s.dieReg d 0x2A0) 0 48 + 64 * s.srqHead d
  let ws := (List.range 8).map (fun i => s.peekWord d (a + 8 * i))
  (ws.map (fun w => w.1), ws.any (fun w => w.2))

/-- Is the engine of a die already to take a descriptor? -/
def Move.takesDesc (d : Nat) : Move → Bool
  | .event i e => (i == .srqFlush || i == .srqWrite || i == .srqRead) && e.die == d
  | _ => false

/-- The engine goes on with the descriptor at HEAD, if there is one (R401). -/
def State.kickRing (s : State) (d : Nat) : State :=
  if s.srqCap d = 0 ∨ s.srqHead d = s.srqTail d ∨ s.agenda.any (fun m => m.takesDesc d) then s
  else
    let opc := reqOpc (s.srqDesc d).1
    s.post (if opc = 0 then .srqFlush else if opc = 1 then .srqWrite else .srqRead) { Ev.empty with die := d }

/-- SRQBASE_WRITE (R401): the ring is set, with HEAD and TAIL 0. -/
def execSrqbaseWrite (s : State) : Out :=
  .next (((s.setDieReg s.ev.die 0x2A0 s.ev.val).setDieReg s.ev.die 0x2A8 0).answerReg none)

/-- SRQ_TAIL_WRITE (R401): TAIL moves on; a value of CAP or more is ignored and logged. -/
def execSrqTailWrite (s : State) : Out :=
  let d := s.ev.die
  let t := fieldOf s.ev.val 32 32
  if s.srqCap d ≤ t then .next ((s.logHearth d 0x07 5 (regPa d 0x2A8) 0).answerReg none)
  else .next (((s.setDieReg d 0x2A8 (setField (s.dieReg d 0x2A8) 32 32 t)).kickRing d).answerReg none)

/-- The engine takes the descriptor at HEAD (R401): rejected, failed for its buffer, or submitted, a Write with its buffer in host memory once
that has been read. It waits for a place in the SSD's queue. (DEDUCED, log 74) -/
def State.takeDesc (s : State) (row : Instr) : Out :=
  let d := s.ev.die
  if s.srqCap d = 0 ∨ s.srqHead d = s.srqTail d then .next s
  else
    let (r, unread) := s.srqDesc d
    let n := reqPort r
    let size := reqNlb r * 2 ^ s.lbads d n
    let lost := paHost (reqBuf r) && (s.badRegion d (reqBuf r)).isSome
    let bad := unread || s.requestBad d r || lost
    if !bad ∧ 256 ≤ ((s.dieAt d).ssd n).cmds.length then .next (s.retryLater row s.ev)
    else
      let s0 := if lost then s.logRegion d (reqBuf r) else s
      let s1 := s0.setDieReg d 0x2A8 (setField (s.dieReg d 0x2A8) 0 32 ((s.srqHead d + 1) % s.srqCap d))
      let s2 :=
        if bad then s1.requestDone d r 0xFFFF
        else if reqOpc r = 1 ∧ paHbm (reqBuf r) ∧ s1.bufferBad d (reqBuf r) size then s1.requestDone d r 0xA080
        else if reqOpc r = 1 ∧ paHost (reqBuf r) then
          (s1.sendRma d (reqBuf r) false [BitVec.ofNat 64 size]).onDie d (fun x => { x with
            bufReads := x.bufReads ++ [((s1.remoteOf d (reqBuf r)).1, r)] })
        else s1.submit d n none r
      .next (s2.kickRing d)

/-- The buffer of a Write in host memory has been read, or the read has failed (R401): the command is submitted, or nothing is. A Write whose
SSD has meanwhile been stopped is rejected. (DEDUCED, log 74) -/
def State.bufferRead (s : State) (d : Nat) (r : List Word) (fail : Bool) : State :=
  if fail then s.requestDone d r 0xA080
  else if s.ssdState d (reqPort r) ≠ 2 then s.requestDone d r 0xFFFF
  else s.submit d (reqPort r) none r

/-- SRQ_FLUSH (R401). -/
def execSrqFlush (s : State) : Out := s.takeDesc .srqFlush

/-- SRQ_WRITE (R401). -/
def execSrqWrite (s : State) : Out := s.takeDesc .srqWrite

/-- SRQ_READ (R401). -/
def execSrqRead (s : State) : Out := s.takeDesc .srqRead

/-- `n` doublewords of an SSD's data: those of its event, and free values for what it does not show. (DESIGN CHOICE, log 73) -/
def State.ssdData (s : State) (n : Nat) : List Word :=
  (List.range n).map (fun i => (s.ev.data[i]?).getD (Config.freeWord (s.freeCtr + i)))

/-- A word of a line marked as poison at its physical-window home. -/
def State.pokePoison (s : State) (d pa : Nat) : State :=
  match s.peekLine d pa with
  | .error _ => s
  | .ok l => (s.setSliceLine (s.physHome pa) (winKey pa) (l.poisonWord (pa % 64 / 4))).writeThrough pa 4

/-- An SSD's data written to HBM4E at its homes, or to host memory by RMA writes (R399, R401, R420). (DESIGN CHOICE, logs 73, 96) -/
def State.writeBuffer (s : State) (d a : Nat) (ws : List Word) : State :=
  if paHost a then
    (s.sendRma d a true ws).onDie d (fun x => { x with hostWrites := x.hostWrites ++ [(s.remoteOf d a).1] })
  else s.engineWrite d a ws

/-- A controller is reset, for a bring-up or a stop (R393); a bring-up without a device fails. (DESIGN CHOICE, log 71) -/
def State.bringUp (s : State) (d n : Nat) : State :=
  if Config.ssdPresent (4 * d + n) then (s.setSsdState d n 1 0).onSsd d n (fun x => { x with step := 1 })
  else ((s.setSsdState d n 3 1).onSsd d n (fun x => { x with step := 0 })).logHearth d 0x0B 5 (regPa d (ssdOff n 0)) 1

/-- A bring-up that fails (R393): STATE failed, its ERRC, logged. -/
def State.failBringUp (s : State) (d n errc : Nat) : State :=
  ((s.setSsdState d n 3 errc).onSsd d n (fun x => { x with step := 0 })).logHearth d 0x0B 5 (regPa d (ssdOff n 0)) (BitVec.ofNat 64 errc)

/-- A stop goes on once no command is out: the controller is reset (R393). -/
def State.stopWhenIdle (s : State) (d n : Nat) : State :=
  if s.ssdState d n = 4 ∧ ((s.dieAt d).ssd n).cmds.isEmpty then s.onSsd d n (fun x => { x with step := 7 }) else s

/-- The port of a SSD configuration register. -/
def ssdPort (off : Nat) : Nat := (off - 0x200) / 32 % 4

/-- SSD_ENABLE (R393, R395): EN set brings the controller up; while EN = 1 the store changes nothing. -/
def execSsdEnable (s : State) : Out :=
  let d := s.ev.die
  let n := ssdPort s.ev.addr
  let v := s.ssdCfg d n
  if v.getLsbD 63 then .next (s.answerReg none)
  else
    let s1 := s.setDieReg d (ssdOff n 0) (setField (setField v 0 32 (fieldOf s.ev.val 0 32)) 63 1 1)
    .next ((if s.ssdState d n = 4 then s1 else s1.bringUp d n).answerReg none)

/-- SSD_DISABLE (R393, R395, R406): EN cleared stops the controller once its commands are complete; faults not yet submitted are answered
ERROR. While EN = 0 the store sets NSID. (DEDUCED, log 74) -/
def execSsdDisable (s : State) : Out :=
  let d := s.ev.die
  let n := ssdPort s.ev.addr
  let v := s.ssdCfg d n
  if !v.getLsbD 63 then .next ((s.setDieReg d (ssdOff n 0) (setField v 0 32 (fieldOf s.ev.val 0 32))).answerReg none)
  else
    let s1 := s.setDieReg d (ssdOff n 0) (setField (setField v 63 1 0) 60 3 4)
    .next ((((s1.progressFaults d).progressFaults d).stopWhenIdle d n).answerReg none)

/-- CSTS_RDY_CHANGE (R393): CSTS.RDY of SSD `unit` becomes `flag`, which a bring-up or a stop waits for. -/
def execCstsRdyChange (s : State) : Out :=
  let d := s.ev.die
  let n := s.ev.unit
  match ((s.dieAt d).ssd n).step, s.ev.flag with
  | 1, false => .next (s.onSsd d n (fun x => { x with step := 2 }))
  | 2, true => .next ((s.sendAdmin d n).onSsd d n (fun x => { x with step := 3 }))
  | 7, false =>
    let s1 := (s.setSsdState d n 0 0).onSsd d n (fun x => { x with step := 0 })
    .next (if (s1.ssdCfg d n).getLsbD 63 then s1.bringUp d n else s1)
  | _, _ => .next s

/-- CAP_TO_EXPIRY (R393): CAP.TO runs out while a reset or ready is waited for. (DEDUCED, log 74) -/
def execCapToExpiry (s : State) : Out :=
  let d := s.ev.die
  let n := s.ev.unit
  match ((s.dieAt d).ssd n).step with
  | 1 => .next (s.failBringUp d n 2)
  | 2 => .next (s.failBringUp d n 3)
  | 7 => .next (s.failBringUp d n 2)
  | _ => .next s

/-- An admin command of a bring-up completes (R393): Identify Namespace gives NSZE, LBADS and the metadata size in its data. (PRESUMED, log 72) -/
def State.adminDone (s : State) (d n : Nat) : State :=
  let status := fieldOf s.ev.val 0 16
  let w (i : Nat) : Nat := (s.ev.data.getD i 0).toNat
  let go (a : State) (k : Nat) : State := (a.sendAdmin d n).onSsd d n (fun x => { x with step := k })
  match ((s.dieAt d).ssd n).step with
  | 3 => if status ≠ 0 then s.failBringUp d n 4 else go s 4
  | 4 =>
    if status % 4096 = 0x0B ∨ (status = 0 ∧ w 0 = 0) then s.failBringUp d n 5
    else if status ≠ 0 then s.failBringUp d n 4
    else if (w 1 ≠ 9 ∧ w 1 ≠ 12) ∨ w 2 ≠ 0 then s.failBringUp d n 6
    else
      let s1 := s.setDieReg d (ssdOff n 16) (BitVec.ofNat 64 (w 0 % 2 ^ 48))
      go (s1.setDieReg d (ssdOff n 24) (setField (s1.dieReg d (ssdOff n 24)) 56 8 (w 1))) 5
  | 5 => if status ≠ 0 then s.failBringUp d n 7 else go s 6
  | 6 => if status ≠ 0 then s.failBringUp d n 7 else (s.onSsd d n (fun x => { x with step := 0 })).setSsdState d n 2 0
  | _ => s

/-- A fault Read completes (R399): submitted again once, failed, as it is when the home of the frame cannot be reached, or the frame filled and
the leaf made valid if it is unchanged. (DEDUCED, log 74) -/
def State.faultReadDone (s : State) (d n : Nat) (f : SbFault) : State :=
  let status := fieldOf s.ev.val 0 16
  let fr := f.frame.getD 0
  if status ≠ 0 ∧ !s.ev.val.getLsbD 15 ∧ f.submitted = 1 then (s.putFault d { f with submitted := 2 }).submit d n (some f.page) []
  else if status ≠ 0 ∨ s.ev.flag then
    (((s.pushFrame d fr true).logHearth d 0x0B 5 (f.page * 65536) (BitVec.ofNat 64 status)).answerFault d f true).progressFaults d
  else
    match s.peekLine d fr with
    | .error c => (((s.pushFrame d fr true).logHearth d 0x06 5 fr (BitVec.ofNat 64 c)).answerFault d f true).progressFaults d
    | .ok _ =>
      let s1 := { s with freeCtr := s.freeCtr + 8192 }.writeBuffer d fr (s.ssdData 8192)
      let s2 := match s1.leafAt d f.leaf.pa f.leaf.level with
        | some l =>
          if !l.v && l.sb && l.ssd == f.leaf.ssd && l.next == f.leaf.next then
            s1.poke d l.pa (bytesLE 8 (setField (setField l.w0 63 1 1) 0 32 (fr / 65536)).toNat)
          else s1.pushFrame d fr true
        | none => (s1.logUnread d f.leaf.pa).pushFrame d fr true
      (s2.answerFault d f false).progressFaults d

/-- A request's command completes (R401, R404): a Read's data reach the buffer, poisoned words as poison. -/
def State.requestCmdDone (s : State) (d n : Nat) (r : List Word) : State :=
  let status := fieldOf s.ev.val 0 16
  let count := reqNlb r * 2 ^ s.lbads d n / 8
  if reqOpc r ≠ 2 then s.requestDone d r status
  else if status ≠ 0 ∧ !s.ev.flag then s.requestDone d r status
  else
    let s1 := { s with freeCtr := s.freeCtr + count }.writeBuffer d (reqBuf r) (s.ssdData count)
    if s.ev.flag then
      let bad := (List.range s.ev.core).map (fun i => s.ev.ctx + i)
      (bad.foldl (fun a w => if w < 2 * count ∧ paHbm (reqBuf r) then a.pokePoison d (reqBuf r + 4 * w) else a) s1).requestDone d r 0xA081
    else s1.requestDone d r status

/-- NVME_COMPLETION (R393, R399, R401): an entry of SSD `unit` completes a bring-up step, a fault Read or a request. -/
def execNvmeCompletion (s : State) : Out :=
  let d := s.ev.die
  let n := s.ev.unit
  let x := (s.dieAt d).ssd n
  if s.ssdState d n = 1 then .next ((s.putCompletion d n 4).adminDone d n)
  else
    match x.cmds.find? (fun c => c.cid == s.ev.aux) with
    | none => .next s
    | some c =>
      let s1 := (s.putCompletion d n 2).onSsd d n (fun y => { y with cmds := y.cmds.filter (fun z => z.cid != c.cid) })
      let s2 := match c.page with
        | some p =>
          match (s1.dieAt d).sbFault p with
          | some f => s1.faultReadDone d n f
          | none => s1
        | none => (s1.requestCmdDone d n c.desc).progressFaults d
      .next (s2.stopWhenIdle d n)

/-- An SSD fails (R402): every pending fault of it is answered ERROR and its frame pushed back, every outstanding request completes with
0xFFFE, and an entry tells SVC0. -/
def State.failSsd (s : State) (d n errc : Nat) : State :=
  let reqs := (((s.dieAt d).ssd n).cmds.filter (fun c => c.page.isNone)).map (fun c => c.desc)
    ++ ((s.dieAt d).bufReads.filter (fun b => reqPort b.2 == n)).map (fun b => b.2)
  let s0 := (s.setSsdState d n 3 errc).onSsd d n (fun x => { x with cmds := [], step := 0 })
  let s1 := s0.onDie d (fun x => { x with bufReads := x.bufReads.filter (fun b => reqPort b.2 != n) })
  let faults := (s1.dieAt d).sbFaults.filter (fun f => f.leaf.ssd == 4 * d + n)
  let s2 := faults.foldl (fun a f =>
    let b := match f.frame with
      | some p => a.pushFrame d p true
      | none => a
    b.answerFault d f true) s1
  let s3 := reqs.foldl (fun a r => a.requestDone d r 0xFFFE) s2
  ((s3.logHearth d 0x0B 5 (regPa d (ssdOff n 0)) (BitVec.ofNat 64 errc)).postSvc0 d 4 n 0 0 (BitVec.ofNat 64 errc)).progressFaults d

/-- SSD_COMMAND_TIMEOUT (R393, R402): an I/O command of SSD `unit` (`flag`), the one with CID `aux` and limit `val`, fails its SSD if it has not
completed when TIME reaches the limit; or an admin command of a bring-up has not completed in the time that the engine gives it. -/
def execSsdCommandTimeout (s : State) : Out :=
  let d := s.ev.die
  let n := s.ev.unit
  let x := (s.dieAt d).ssd n
  if s.ev.flag then
    if !x.cmds.any (fun c => c.cid == s.ev.aux && c.due == s.ev.val) then .next s
    else if s.time.toNat < s.ev.val.toNat then .next (s.retryLater .ssdCommandTimeout s.ev)
    else .next (s.failSsd d n 8)
  else if s.ssdState d n = 1 then
    .next (if x.step = 3 ∨ x.step = 4 then s.failBringUp d n 4 else if x.step = 5 ∨ x.step = 6 then s.failBringUp d n 7 else s)
  else .next s

/-- PCIE_LINK_DOWN (R393, R402): the link of SSD `unit` is lost. -/
def execPcieLinkDown (s : State) : Out :=
  let d := s.ev.die
  let n := s.ev.unit
  if s.ssdState d n = 1 then .next (s.failBringUp d n 9)
  else if s.ssdState d n = 2 ∨ s.ssdState d n = 4 then .next (s.failSsd d n 9)
  else .next s

end Sys2Proof.Machine
end

