-- ==== Sys2Proof/Machine/Fabric.lean ====
section
/-!
DEFINITION. The fabric (R411 to R424): enqueues, decrements and watches from outside, migration and release of pages, host memory, RMA.
A message's event is as Command.lean says. An RMA operation of a remote party carries its endpoint in `die`, its address in `val`, and its
data, or for a read its length in bytes, in `data`; a write's length in bytes in `unit`. The answers that come back to the device name the
waiting core in `core`, with `aux` 0, or 5 for FABRIC-FAIL. The `sent` list shows RMA traffic as kinds of the model's own: 0x100 a read, 0x101
a write, 0x102 and 0x103 the responses to a remote party's, 0x104 the answer to a UET atomic.
-/

namespace Sys2Proof.Machine

open Sys2Proof

/-- FABRIC_ENQUEUE (R416): the records enter the queue in payload order, or are all refused with the lowest status that applies. (DEDUCED, log 81) -/
def execFabricEnqueue (s : State) : Out :=
  s.command 0x01 (fun s =>
    let q := s.ev.target
    let ws := s.ev.payload
    let n := ws.length / 16
    let d := dieOfQueue q
    let valid := decide (q < 32768) && (s.queueEntry q 0).getLsbD 63
    let full := valid && decide (64 + fieldOf (s.queueEntry q 1) 0 16 < (s.queueAt q).records.length + (s.queueAt q).spilled + n)
    let recs := (List.range n).map (fun i => (ws.drop (16 * i)).take 16)
    let answer (a : State) (st : Nat) (entry : Word) : State :=
      a.sendFabric { kind := 0x81, endpoint := s.ev.die, target := q, reqid := s.ev.reqid, arg := BitVec.ofNat 64 st, payload := [entry] }
    let refuse (st : Nat) : Out := .next (recs.foldl (fun a r => answer a st (recEntry r)) s)
    let s := if decide (q < 32768) && s.queueBad q then s.logHearth d 0x02 6 (s.queuePa q) 0 else s
    if ws.isEmpty || ws.length % 16 != 0 then .next (answer s 1 0)
    else if full then refuse 7
    else if !valid || s.queueOwner q != s.ev.die || decide (4 ≤ d) then refuse 8
    else .next (s.enqueue q recs))

/-- The fabric as an agent in the domain of the sender's endpoint (R420); a message that is taken up again comes with `core` 1, so that later
messages of its connection wait behind it (R423). (DEDUCED, log 77; DESIGN CHOICE, log 113) -/
def State.fabricAgent (s : State) (row : Instr) : Agent :=
  { core := 0, die := 0, dom := s.endpointDomain s.ev.die, kind := 7, ctx := 0, svc := false, row := row, ev := { s.ev with aux := 0, addr := 0, core := 1 } }

/-- A signal that a message names, at its home (R420): a translation fault is served first; what cannot be reached or may not be accessed
fails with a status of 0x83 and the CLASS that logs it. (DEDUCED, log 70) -/
def State.fabricSignal (s : State) (row : Instr) (need : Need) (fail : State → Nat → Nat → Out) (k : State → Nat → L2Line → Out) : Out :=
  let va := s.ev.arg.toNat
  let ag := s.fabricAgent row
  if va % 8 ≠ 0 || decide (2 ^ 56 ≤ va) || !isTranslated va then fail s 2 0x06
  else s.agentAllowed ag need [(va, 8)] (fun s _ => fail s 2 0x06) (fun s =>
    match s.agentEnded va with
    | some (.poison _, s1) => fail s1 6 0x02
    | some (_, s1) => fail s1 2 0x06
    | none =>
      match s.homeLine 0 va none with
      | (.line slice l leaf, s1) =>
        if l.poisoned (va % 64) 8 then fail s1 6 0x02 else k (s1.countAccess slice va 0 leaf) slice l
      | (.fault slice leaf, s1) => s1.agentFault ag slice va leaf []
      | (.poison, s1) => fail s1 6 0x02
      | (_, s1) => fail s1 2 0x06)

/-- An arriving decrement or watch that fails is answered with 0x83 and logged (R420). (DEDUCED, log 70) -/
def State.signalFailed (s : State) (status cls : Nat) : Out :=
  let va := s.ev.arg
  .next ((s.logHearth 0 cls 6 va.toNat (BitVec.ofNat 64 status)).sendFabric
    { kind := 0x83, endpoint := s.ev.die, target := 0, reqid := s.ev.reqid, arg := va, payload := [BitVec.ofNat 64 status] })

/-- FABRIC_DECREMENT (R420): the signal is decremented at its home, as a release; its monitors answer. (DEDUCED, log 70) -/
def execFabricDecrement (s : State) : Out :=
  s.command 0x03 (fun s =>
    if s.ev.payload.length ≠ 1 then .next (s.logHearth 0 0x0A 6 0 0)
    else
      s.fabricSignal .fabricDecrement (Need.both false) State.signalFailed (fun s slice l =>
        .next (s.decrementLine slice s.ev.arg.toNat l (s.ev.payload.getD 0 0))))

/-- FABRIC_WATCH (R420, R421): a watch already met is answered at once; otherwise it is armed, at most 4096 per die. (DEDUCED, log 70) -/
def execFabricWatch (s : State) : Out :=
  s.command 0x04 (fun s =>
    if s.ev.payload.length ≠ 2 then .next (s.logHearth 0 0x0A 6 0 0)
    else
      s.fabricSignal .fabricWatch (Need.load false) State.signalFailed (fun s slice l =>
        let va := s.ev.arg.toNat
        let thr := s.ev.payload.getD 0 0
        let cookie := s.ev.payload.getD 1 0
        let v : Word := BitVec.ofNat 64 (fromBytesLE (l.bytes (va % 64) 8))
        let d := dieOfCore slice
        if v.toInt ≤ thr.toInt then
          .next (s.sendFabric { kind := 0x84, endpoint := s.ev.die, target := 0, reqid := s.ev.reqid, arg := s.ev.arg, payload := [v, cookie] })
        else if 4096 ≤ (s.dieAt d).hostWatches.length then s.signalFailed 7 0x06
        else .next (s.onDie d (fun x => { x with hostWatches := x.hostWatches ++
          [{ va := va, thr := thr, cookie := cookie, endpoint := s.ev.die, reqid := s.ev.reqid }] }))))

/-- The migration entry of a page. -/
def State.migration (s : State) (page : Nat) : Option Migrate := s.migrations.find? (fun m => m.page == page)

/-- A migration entry replaced. -/
def State.putMigration (s : State) (m : Migrate) : State :=
  { s with migrations := s.migrations.map (fun x => if x.page = m.page then m else x) }

/-- A migration entry removed. -/
def State.dropMigration (s : State) (page : Nat) : State := { s with migrations := s.migrations.filter (fun m => m.page != page) }

/-- The migration engine answers a page: RETRY or ERROR to the walkers of every die whose message came (R418). -/
def State.answerMigration (s : State) (m : Migrate) (error : Bool) : State :=
  m.dies.foldl (fun a e => a.replyPage 0 e m.page m.ovf error) (s.dropMigration m.page)

/-- A migration refused, timed out or failed (R418): ERROR, an entry for SVC0 of die 0, and the log. -/
def State.refuseMigration (s : State) (m : Migrate) : State :=
  let s1 := (s.answerMigration m true).logHearth 0 0x06 5 (m.page * 65536) 0
  if s1.nsvc 0 = 0 then s1 else s1.postService 0 (s1.svcCore 0 0) 3 0 (BitVec.ofNat 64 (m.page * 65536))

/-- One second of global time (R418). -/
def grantLimit : Nat := 1000000000

/-- The ownership of a page is asked of its endpoint (R418). -/
def State.askOwnership (s : State) (m : Migrate) : State :=
  let r := s.remoteOf 0 m.leaf.frame
  let s1 := s.sendFabric { kind := 0x07, endpoint := r.1, target := 0, reqid := 0, arg := r.2, payload := [] }
  s1.post .migrationGrantTimeout { Ev.empty with addr := m.page, val := s.time + BitVec.ofNat 64 grantLimit }

/-- A new page of the migration engine (R418): its leaf is read at its home; one that is no longer a migratable host page is answered RETRY.
A 2 MiB leaf cannot be given a 64 KiB frame and is answered ERROR, and so is a page whose region's entry has an uncorrectable error (R7).
(DEDUCED, logs 75, 93) -/
def State.startMigration (s : State) (page : Nat) (pa level : Nat) (dies : List Nat) (ovf : Bool) : State :=
  let m (l : Leaf) : Migrate := { page := page, leaf := l, frame := none, dies := dies, ovf := ovf, phase := 1,
                                  endpoint := (s.remoteOf 0 l.frame).1, reqid := 0, host := 0, granted := 0 }
  let none' : Leaf := { w0 := 0, w1 := 0, pa := pa, level := level }
  match s.leafAt 0 pa level with
  | none => (s.logUnread 0 pa).answerMigration (m none') true
  | some l =>
    if !l.migratable then s.answerMigration (m l) false
    else if l.level ≠ 0 ∨ (s.badRegion 0 l.frame).isSome then (s.logRegion 0 l.frame).refuseMigration (m l)
    else { s with migrations := s.migrations ++ [m l] }.askOwnership (m l)

/-- MIGRATION_FAULT (R418): a pending page is joined, also one under release; a new page is served. -/
def execMigrationFault (s : State) : Out :=
  let e := s.ev
  let d := dieOfCore e.core
  match s.migration e.addr with
  | some m => .next (s.putMigration { m with dies := insertNat d m.dies, ovf := m.ovf || e.flag })
  | none => .next (s.startMigration e.addr e.faultLeaf.pa e.aux [d] e.flag)

/-- FABRIC_GRANT (R418): a 0x87 for a page whose ownership was asked; a grant goes on with a frame, a refusal ends the migration. -/
def execFabricGrant (s : State) : Out :=
  s.command 0x87 (fun s =>
    match s.migrations.find? (fun m => m.phase == 1 && m.endpoint == s.ev.die && (s.remoteOf 0 m.leaf.frame).2 == s.ev.arg) with
    | none => .next (s.logHearth 0 0x0A 6 0 0)
    | some m =>
      if s.ev.payload.getD 0 2 ≠ 0 then .next (s.refuseMigration m)
      else .next ((s.putMigration { m with phase := 2, granted := s.time }).migrateFrame 0 m.page))

/-- MIGRATION_GRANT_TIMEOUT (R418): no grant has come within 1 s. -/
def execMigrationGrantTimeout (s : State) : Out :=
  match s.migration s.ev.addr with
  | none => .next s
  | some m =>
    if m.phase ≠ 1 then .next s
    else if s.time.toNat < s.ev.val.toNat then .next (s.retryLater .migrationGrantTimeout s.ev)
    else .next (s.refuseMigration m)

/-- The leaf of a migrated page (R418). -/
def migratedLeaf (w0 : Word) (frame : Nat) : Word := setField (setField (setField w0 58 2 0) 63 1 1) 0 32 (frame / 65536)

/-- MIGRATION_FILL_DONE (R418): the page `addr` has been read into `data` (`aux` 5 a failure, as it is when the home of the frame cannot be
reached); its frame is filled, and the leaf, if it is unchanged, becomes a device leaf. (DEDUCED, log 74) -/
def execMigrationFillDone (s : State) : Out :=
  match s.migration s.ev.addr with
  | none => .next s
  | some m =>
    match m.phase, m.frame with
    | 3, some f =>
      if s.ev.aux ≠ 0 then .next (((s.pushFrame 0 f true).refuseMigration m).progressFaults 0)
      else
        match s.peekLine 0 f with
        | .error c => .next ((((s.pushFrame 0 f true).logHearth 0 0x06 5 f (BitVec.ofNat 64 c)).refuseMigration m).progressFaults 0)
        | .ok _ =>
        let s1 := { s with freeCtr := s.freeCtr + 8192 }.writeBuffer 0 f (s.ssdData 8192)
        let s2 := match s1.leafAt 0 m.leaf.pa 0 with
          | some l =>
            if l.w0 = m.leaf.w0 ∧ l.w1 = m.leaf.w1 then s1.poke 0 m.leaf.pa (bytesLE 8 (migratedLeaf m.leaf.w0 f).toNat)
            else s1.pushFrame 0 f true
          | none => (s1.logUnread 0 m.leaf.pa).pushFrame 0 f true
        .next ((s2.answerMigration m false).progressFaults 0)
    | _, _ => .next s

/-- The remote-window PA of a host address in a migratable region of an endpoint (R412, R417, R419). -/
def State.remotePa (s : State) (endpoint : Nat) (host : Word) : Option Nat :=
  let base := fieldOf (s.dieReg 0 0x320) 0 48
  ((List.range 128).find? (fun r =>
    let w := s.peekWord 0 (base + 32 * r)
    let b := s.peekWord 0 (base + 32 * r + 8)
    !w.2 && w.1.getLsbD 63 && !w.1.getLsbD 62 && fieldOf w.1 32 8 == endpoint && !b.2
      && decide (b.1.toNat ≤ host.toNat) && decide (host.toNat + 65536 ≤ b.1.toNat + 2 ^ 40))).map (fun r =>
    0x800000000000 + r * 2 ^ 40 + (host.toNat - (s.peekWord 0 (base + 32 * r + 8)).1.toNat))

/-- The reply to a release request (R414, R419). -/
def State.released (s : State) (endpoint reqid : Nat) (arg : Word) (status : Nat) : State :=
  s.sendFabric { kind := 0x88, endpoint := endpoint, target := 0, reqid := reqid, arg := arg, payload := [BitVec.ofNat 64 status] }

/-- The bytes of a 64 KiB frame at its physical-window homes. -/
def State.frameWords (s : State) (f : Nat) : List Word := (List.range 8192).map (fun i => (s.peekWord 0 (f + 8 * i)).1)

/-- The first doubleword of a frame that cannot be read as good data (R7). -/
def State.frameBad (s : State) (f : Nat) : Option Nat := ((List.range 8192).map (fun i => f + 8 * i)).find? (fun a => (s.peekWord 0 a).2)

/-- FABRIC_RELEASE_REQUEST (R419): the page is written back to its frame and its leaf becomes a host-owned one that is not valid; its
translations are dropped, and the frame is written to the host. Refused for a page that is no resident device page of 64 KiB, that the
sender's domain may not write, or whose host address lies in no region of the sender; and, with the leaf as before, for a frame with
poisoned data, which are not delivered to the host as good (R7). (DEDUCED, logs 76, 93) -/
def execFabricReleaseRequest (s : State) : Out :=
  s.command 0x08 (fun s =>
    let va := s.ev.arg.toNat % 2 ^ 56
    let host := s.ev.payload.getD 0 0
    let refuse (a : State) : Out := .next (a.released s.ev.die s.ev.reqid s.ev.arg 2)
    let ag := s.fabricAgent .fabricReleaseRequest
    if s.ev.payload.length ≠ 1 || va % 65536 != 0 || !isTranslated va then refuse s
    else s.agentAllowed ag (Need.store false) [(va, 1)] (fun s _ => refuse s) (fun s =>
      match s.walk (s.walkSlice 0 va) va with
      | (.leaf l, s1) =>
        if !l.v || l.ho || l.level != 0 || (s1.migration (pageOf va)).isSome then refuse s1
        else
          match s1.remotePa s.ev.die host with
          | none => refuse s1
          | some pa =>
            let leaf : Word := setField (setField (setField (setField l.w0 63 1 0) 59 1 1) 58 1 0) 0 32 (pa / 65536)
            let s2 := (((s1.purgePage 0 .system va false).poke 0 l.pa (bytesLE 8 leaf.toNat)).tinvalPage 0 .system va)
            match s2.frameBad l.frame with
            | some a => refuse ((s2.poke 0 l.pa (bytesLE 8 l.w0.toNat)).logHearth 0 0x02 5 a 0)
            | none =>
            let s3 := s2.sendRma 0 pa true (s2.frameWords l.frame)
            .next { s3 with migrations := s3.migrations ++ [
              { page := pageOf va, leaf := { l with w0 := leaf }, frame := some l.frame, dies := [], ovf := false, phase := 4,
                endpoint := s.ev.die, reqid := s.ev.reqid, host := s.ev.arg, granted := 0 }] }
      | (_, s1) => refuse s1))

/-- RELEASE_WRITE_DONE (R419): the host has the page `addr`: the leaf becomes valid, the frame is pushed to its die's stack and the reply
goes out; faults that came meanwhile are served by migration. A write that failed (`aux`) gives the page back to the device. (DEDUCED, log 76) -/
def execReleaseWriteDone (s : State) : Out :=
  match s.migration s.ev.addr with
  | none => .next s
  | some m =>
    match m.phase, m.frame with
    | 4, some f =>
      let ok := s.ev.aux = 0
      let w : Word := if ok then setField m.leaf.w0 63 1 1 else migratedLeaf m.leaf.w0 f
      let s1 := (s.dropMigration m.page).poke 0 m.leaf.pa (bytesLE 8 w.toNat)
      let s2 := if ok then (s1.pushFrame (paDie f) f true).progressFaults (paDie f) else s1.logHearth 0 0x06 5 (m.page * 65536) 5
      let s3 := s2.released m.endpoint m.reqid m.host (if ok then 0 else 2)
      .next (if m.dies.isEmpty then s3 else s3.startMigration m.page m.leaf.pa 0 m.dies m.ovf)
    | _, _ => .next s

/-- The first entry of a list equal to a number removed. -/
def dropOne (l : List Nat) (x : Nat) : List Nat := l.eraseIdx ((l.findIdx? (fun y => y == x)).getD l.length)

/-- A refused decrement of an engine operation is its ERR 5 and answers the message that its completion waits for; it replaces no earlier
error, neither in the entry nor in LERR (R293, R421). -/
def State.opRefused (s : State) (r : RemoteDec) : State :=
  let n := r.core
  let s1 := s.logEngine n 0x06 r.addr 5
  match (s1.coreAt n).findOp r.unit with
  | some o =>
    (s1.onCore n (fun c => { c with hostWrites := dropOne c.hostWrites s.ev.die })).putOp n
      (if o.err = 0 then { o with err := 5, errDw := BitVec.ofNat 64 o.sig } else o)
  | none => if r.data.getD 0 0 = 0 then s1.onCore n (fun c => { c with opLerr := 5 }) else s1

/-- A refused decrement of an `msignal` (R210, R421): the command that still waits for its answer retires with ERR 8; one that has retired is
followed by its error event. (DEDUCED, log 78) -/
def State.signalRefused (s : State) (r : RemoteDec) : State :=
  let n := r.core
  let va := r.data.getD 1 0
  let waits := match (s.coreAt n).mx.queue with
    | h :: _ => (s.coreAt n).mx.sig == 1 && h.tag == r.unit
    | [] => false
  if waits then
    s.onCore n (fun c => { c with mx := { c.mx with sig := 2 }, hostWrites := dropOne c.hostWrites s.ev.die })
  else
    ((s.onMx n (fun m => { m with lerr := 8 })).postInbox n (r.data.getD 2 0).toNat 0x1400
      (inboxDw0 0x14 1 (8 * 2 ^ 48 + r.unit * 2 ^ 32)) va).logCore n (mxClass 8) (fieldOf va 0 56) 8

/-- The first request of a die whose decrement message to an endpoint waits for its answer, and that `p` names, ends as one that failed
(R404, R421). (DESIGN CHOICE, log 79) -/
def State.failDecrement (s : State) (d e : Nat) (p : List Word → Bool) : State :=
  let mine (w : List Word × Nat) : Bool := p w.1 && (s.remoteOf d (reqSig w.1)).1 == e
  match (s.dieAt d).sigWaits.find? mine with
  | none => s
  | some w =>
    (s.onDie d (fun x => { x with
      sigWaits := x.sigWaits.eraseP mine, hostWrites := dropOne x.hostWrites e })).finishRequest d w.1 w.2 true

/-- The storage requests of a die that waited for acknowledgements go on once none is out (R421). -/
def State.ackStorage (s : State) (d : Nat) : State :=
  let x := s.dieAt d
  if x.hostWrites.isEmpty then
    let s1 := s.onDie d (fun x => { x with ackWaits := [], sigWaits := [] })
    x.ackWaits.foldl (fun a w => a.completeRequest d w.1 w.2) (x.sigWaits.foldl (fun a w => a.finishRequest d w.1 w.2 false) s1)
  else s

/-- A refused decrement of a storage request is its status 0xFFFF (R421): of one that waits for the answer, or in an entry that follows.
(DEDUCED, log 78) -/
def State.requestRefused (s : State) (r : RemoteDec) : State :=
  if (s.dieAt r.core).sigWaits.any (fun w => w.1 == r.data && (s.remoteOf r.core (reqSig w.1)).1 == s.ev.die) then
    (s.failDecrement r.core s.ev.die (fun d => d == r.data)).ackStorage r.core
  else (s.logHearth r.core 0x0B 5 (reqSlba r.data) 0xFFFF).postRequest r.core r.data 0xFFFF (reqMode r.data == 2)

/-- FABRIC_DECREMENT_FAILED (R350, R421): a decrement that the device sent has failed: ERR 5 of an engine operation, ERR 8 of a matrix
command, status 0xFFFF of a storage request, or a launch's status 10. (DEDUCED, logs 70, 78) -/
def execFabricDecrementFailed (s : State) : Out :=
  s.command 0x83 (fun s =>
    match s.remoteDecs.find? (fun r => BitVec.ofNat 64 r.addr == s.ev.arg) with
    | none => .next (s.logHearth 0 0x0A 6 0 0)
    | some r =>
      let s1 : State := { s with remoteDecs := s.remoteDecs.filter (fun x => x != r) }
      if r.agent = 4 then .next (s1.opRefused r)
      else if r.agent = 5 then .next (s1.signalRefused r)
      else if r.agent = 8 then .next (s1.requestRefused r)
      else .next ((s1.logHearth (dieOfCore r.core) 0x06 6 r.addr 10).sendStatus r.unit 10 (r.data.getD 0 0)))

/-- The line that 64 bytes of host memory make. -/
def hostLine (ws : List Word) : L2Line :=
  { data := BitVec.ofNat 512 (joinChunks 64 (ws.map BitVec.toNat)), poison := 0, dirty := 0, ver := 0, verDirty := false }

/-- One waiting read of host memory answered with its line, or with FABRIC-FAIL (R420, R422). A read sent before an acquire gets its
words without making them valid; a fetch sent before an invalidation of the instruction cache is sent again (R332). -/
def State.answerRemote (s : State) (n : Nat) (r : Req) (l : L2Line) (fail : Bool) : State :=
  match r.again with
  | some p =>
    if fail then s.post p.1 { p.2 with aux := 16 + 5, addr := r.va }
    else
      (s.onCore n (fun c => { c with remoteData := r.words.foldl (fun t w =>
        tabPut t w (BitVec.ofNat 32 (fromBytesLE (l.bytes (w % 16 * 4) 4)))) c.remoteData })).post p.1 p.2
  | none =>
    if !(s.ctxAt n r.ctx).waitsMem r.va then s
    else if fail then (if (s.ctxAt n r.ctx).probes then s.loseProbe n r.ctx r.va else s.replyWaiting n r.ctx r.ea 5)
    else if r.kind = 2 then
      if r.stale then s.resumeReq { r with stale := false }
      else (s.onCore n (fun c => { c with icache := tabPut c.icache (r.va / 64) l.icLine })).ready n r.ctx
    else (s.deliver n r.ctx (r.va / 64) r.words l (!r.stale)).ready n r.ctx

/-- A Write whose buffer at a PA was being read from host memory goes on (R401, R422); it waits for a place in its SSD's queue. -/
def State.bufferArrives (s : State) (d pa : Nat) (fail : Bool) : State :=
  let mine (b : Nat × List Word) : Bool := reqBuf b.2 == pa
  match (s.dieAt d).bufReads.find? mine with
  | none => s
  | some b =>
    if !fail ∧ s.ssdState d (reqPort b.2) = 2 ∧ 256 ≤ ((s.dieAt d).ssd (reqPort b.2)).cmds.length then s.retryLater .remoteReadResponse s.ev
    else
      let s1 := s.onDie d (fun x => { x with bufReads := x.bufReads.eraseP mine })
      (if fail then s1.logHearth d 0x06 5 pa 5 else s1).bufferRead d b.2 fail

/-- REMOTE_READ_RESPONSE (R401, R420, R422): the line at `addr` of host memory reaches the accesses of a core that wait for it, or with `core`
4032 + d the buffer at `addr` has been read for die d's storage queue engine. (DESIGN CHOICE, log 79) -/
def execRemoteReadResponse (s : State) : Out :=
  if 4032 ≤ s.ev.core then .next (s.bufferArrives (s.ev.core - 4032) s.ev.addr (s.ev.aux != 0)) else
  let n := s.ev.core
  let mine (r : Nat × Req) : Bool := r.2.va / 64 == s.ev.addr / 64
  let rs := (s.coreAt n).remoteWaits.filter mine
  let s1 := s.onCore n (fun c => { c with remoteWaits := c.remoteWaits.filter (fun r => !mine r) })
  .next ((rs.foldl (fun a r => a.answerRemote n r.2 (hostLine s.ev.data) (s.ev.aux != 0)) s1).wakeAll)

/-- An RMA operation of a remote party as an agent of its endpoint's domain. (DESIGN CHOICE, log 19) -/
def State.rmaAnswer (s : State) (kind status : Nat) (payload : List Word) : State :=
  s.sendFabric { kind := kind, endpoint := s.ev.die, target := status, reqid := 0, arg := s.ev.val, payload := payload }

/-- An RMA operation that fails is logged and answered so (R302, R420). -/
def State.rmaFailed (s : State) (kind : Nat) (e : AgentErr) : Out :=
  let cls := match e with
    | .poison _ => 0x02
    | _ => 0x06
  .next ((s.logHearth 0 cls 6 e.addr 0).rmaAnswer kind 1 [])

/-- An RMA operation goes on where it is not refused: it reaches translated memory only, for the windows of a core and of the device belong
to no remote party (R76, R235), and needs the right of its endpoint's domain (R302). (DEDUCED, logs 70, 77) -/
def State.rmaAllowed (s : State) (ag : Agent) (need : Need) (va n : Nat) (refused : State → Nat → Out) (k : State → Out) : Out :=
  if n ≠ 0 && (!isTranslated va || !isTranslated (va + n - 1)) then refused s va else s.agentAllowed ag need [(va, n)] refused k

/-- RMA_READ (R411): device memory read at its homes for a remote party, with the rights of its endpoint's domain. -/
def execRmaRead (s : State) : Out :=
  if !s.endpointValid s.ev.die then .next (s.logHearth 0 0x06 6 0 0)
  else
    let va := fieldOf s.ev.val 0 56
    let n := (s.ev.data.getD 0 0).toNat
    let ag := s.fabricAgent .rmaRead
    s.rmaAllowed ag (Need.load false) va n (fun s a => s.rmaFailed 0x102 (.refused a)) (fun s =>
      s.agentRead ag va n (fun s e => s.rmaFailed 0x102 e) (fun s bs bad =>
        match bad with
        | a :: _ => s.rmaFailed 0x102 (.poison a)
        | [] => .next ((s.dropRemote 0).rmaAnswer 0x102 0 (wordsLE ((n + 7) / 8) bs))))

/-- RMA_WRITE (R411, R423): performed at its homes before any later message of its connection. -/
def execRmaWrite (s : State) : Out :=
  if !s.endpointValid s.ev.die then .next (s.logHearth 0 0x06 6 0 0)
  else
    let va := fieldOf s.ev.val 0 56
    let bs := (s.ev.data.flatMap (fun (w : Word) => bytesLE 8 w.toNat)).take s.ev.unit
    let ag := s.fabricAgent .rmaWrite
    s.rmaAllowed ag (Need.store false) va bs.length (fun s a => s.rmaFailed 0x103 (.refused a)) (fun s =>
      s.agentWrites ag [(va, bs)] (fun s e => s.rmaFailed 0x103 e) (fun s => .next (s.rmaAnswer 0x103 0 [])))

/-- UET_ATOMIC (R411): answered as unsupported and logged. -/
def execUetAtomic (s : State) : Out :=
  let s1 := s.logHearth 0 0x06 6 0 0
  .next (if s.endpointValid s.ev.die then s1.rmaAnswer 0x104 1 [] else s1)

/-- An engine operation whose write to host memory failed stops with ERR 3 and the address of the word (R292, R422). (DESIGN CHOICE, log 79) -/
def State.failOp (s : State) (n id a : Nat) : State :=
  s.onCore n (fun c => { c with ops := c.ops.map (fun o =>
    if o.id = id ∧ o.err = 0 then { o with err := 3, errDw := BitVec.ofNat 64 (a / 4 * 4) } else o) })

/-- A result write of a stream to host memory has failed: the slot sinks with the poison error (R183, R422). -/
def State.failResult (s : State) (n slot : Nat) : State :=
  let st := s.streamAt n slot
  if st.res = 1 then s.setStream n slot { st with res := 2 } else s

/-- RMA_WRITE_ACKNOWLEDGEMENT (R420, R422): endpoint `die` acknowledges an RMA write of a core, or with `core` 4032 + d of die d's storage
queue engine; `aux` 5 is FABRIC-FAIL, logged, which stops the engine operation `unit` when `flag` says that the write was its own, or with
`val` 1 fails the result write of stream slot `unit`, or of a storage queue engine says with `flag` that it was a decrement message.
(DESIGN CHOICE, log 79) -/
def execRmaWriteAcknowledgement (s : State) : Out :=
  let n := s.ev.core
  let e := s.ev.die
  let s0 := if s.ev.aux = 0 then s else if 4032 ≤ n then s.logHearth (n - 4032) 0x06 5 s.ev.addr 5 else s.logCore n 0x06 s.ev.addr 5
  if 4032 ≤ n then
    let s1 := if s.ev.aux ≠ 0 ∧ s.ev.flag then s0.failDecrement (n - 4032) e (fun _ => true)
      else s0.onDie (n - 4032) (fun x => { x with hostWrites := dropOne x.hostWrites e })
    .next (s1.ackStorage (n - 4032))
  else
    let s1 := if s.ev.aux ≠ 0 ∧ s.ev.flag then (if s.ev.val = 1 then s0.failResult n s.ev.unit else s0.failOp n s.ev.unit s.ev.addr) else s0
    .next ((s1.onCore n (fun c => { c with hostWrites := dropOne c.hostWrites e })).wakeAll)

/-- Does an address lie on a pinned page of a region of an endpoint? -/
def State.onEndpoint (s : State) (n va e : Nat) : Bool :=
  match (s.queryLeaf (dieOfCore n) va).1 with
  | .leaf l => l.ho && l.pin && (s.remoteOf (dieOfCore n) l.frame).1 == e
  | _ => false

/-- What one core had outstanding on a connection that failed (R411, R422): reads end with FABRIC-FAIL, writes are dropped and logged, and
the engine operations that were writing there stop. -/
def State.failCore (s : State) (n e : Nat) : State :=
  let c := s.coreAt n
  let reads := c.remoteWaits.filter (fun r => r.1 == e)
  let lost := c.hostWrites.contains e
  let s1 := s.onCore n (fun c => { c with
    remoteWaits := c.remoteWaits.filter (fun r => r.1 != e), hostWrites := c.hostWrites.filter (fun x => x != e) })
  let s2 := reads.foldl (fun a r => a.answerRemote n r.2 (hostLine []) true) s1
  if lost then
    let s3 := (c.ops.filter (fun o => s.onEndpoint n (ptrAddr o.dst) e)).foldl (fun a o => a.failOp n o.id (ptrAddr o.dst)) (s2.logCore n 0x06 0 5)
    ((List.range 16).foldl (fun a k => if s.onEndpoint n (ptrAddr (c.stream k).result0) e then a.failResult n k else a) s3).wakeAll
  else s2.wakeAll

/-- What the migration engine had outstanding on a connection that failed (R418, R419). A page granted in the same tick is read again, on
another connection (R426). (DEDUCED, log 75) -/
def State.failMigration (s : State) (m : Migrate) : State :=
  if m.phase = 1 then s.refuseMigration m
  else if m.phase = 3 ∧ m.granted = s.time then s.sendRma 0 m.leaf.frame false [65536]
  else if m.phase = 3 then s.post .migrationFillDone { Ev.empty with addr := m.page, aux := 5 }
  else if m.phase = 4 then s.post .releaseWriteDone { Ev.empty with addr := m.page, aux := 5 }
  else s

/-- The fabric legs of the barriers under way break (R424). (DEDUCED, log 80) -/
def State.breakFabricBarriers (s : State) : State :=
  s.clusters.foldl (fun a c => (List.range 16).foldl (fun b i =>
    let x := (b.clusterAt c.1).barrier i
    if x.en && !x.brk && x.level == 3 && x.own.isSome then b.breakBarrier c.1 i 0x05 none else b) a) s

/-- What the storage queue engine of a die had outstanding on a connection that failed (R401, R422): reads of buffers fail, decrements fail, and
writes are dropped and logged. (DEDUCED, log 80) -/
def State.failStorage (s : State) (d e : Nat) : State :=
  let x := s.dieAt d
  let s1 := (x.bufReads.filter (fun b => b.1 == e)).foldl (fun a b => a.bufferArrives d (reqBuf b.2) true) s
  let s2 := x.sigWaits.foldl (fun a w => a.failDecrement d e (fun r => r == w.1)) s1
  if (s2.dieAt d).hostWrites.contains e then
    ((s2.onDie d (fun x => { x with hostWrites := x.hostWrites.filter (fun y => y != e) })).logHearth d 0x06 5 0 5).ackStorage d
  else s2.ackStorage d

/-- CONNECTION_FAIL (R411, R422): the connection with endpoint `die`, or with module rank `die` - 256, has failed. (DEDUCED, log 80) -/
def execConnectionFail (s : State) : Out :=
  let e := s.ev.die
  if 256 ≤ e then .next s.breakFabricBarriers
  else
    let s1 := (s.cores.map (fun nc => nc.1)).foldl (fun a n => a.failCore n e) s
    let s2 := (s1.migrations.filter (fun m => m.endpoint == e)).foldl (fun a m => a.failMigration m) s1
    .next ([0, 1, 2, 3].foldl (fun a d => a.failStorage d e) s2)

end Sys2Proof.Machine
end

