-- ==== Sys2Proof/Machine/Integer.lean ====
section
/-!
DEFINITION. The integer instructions: register-register (R71, R72), immediate (R73, R74), branches and jumps (R79, R80),
and the 16-bit forms of all of these (R58).
-/

namespace Sys2Proof.Machine

open Sys2Proof

/-- `add` (R71). -/
def execAdd (d a b : Reg) (s : State) : Out :=
  s.alu 4 d a b (fun x y => x + y)

/-- `sll` (R71). -/
def execSll (d a b : Reg) (s : State) : Out :=
  s.alu 4 d a b shiftL

/-- `slt` (R71). -/
def execSlt (d a b : Reg) (s : State) : Out :=
  s.alu 4 d a b setLess

/-- `sltn` (R71). -/
def execSltn (d a b : Reg) (s : State) : Out :=
  s.alu 4 d a b setLessN

/-- `xor` (R71). -/
def execXor (d a b : Reg) (s : State) : Out :=
  s.alu 4 d a b (fun x y => x ^^^ y)

/-- `srl` (R71). -/
def execSrl (d a b : Reg) (s : State) : Out :=
  s.alu 4 d a b shiftR

/-- `or` (R71). -/
def execOr (d a b : Reg) (s : State) : Out :=
  s.alu 4 d a b (fun x y => x ||| y)

/-- `and` (R71). -/
def execAnd (d a b : Reg) (s : State) : Out :=
  s.alu 4 d a b (fun x y => x &&& y)

/-- `sub` (R71). -/
def execSub (d a b : Reg) (s : State) : Out :=
  s.alu 4 d a b (fun x y => x - y)

/-- `min` (R71). -/
def execMin (d a b : Reg) (s : State) : Out :=
  s.alu 4 d a b minS

/-- `max` (R71). -/
def execMax (d a b : Reg) (s : State) : Out :=
  s.alu 4 d a b maxS

/-- `minn` (R71). -/
def execMinn (d a b : Reg) (s : State) : Out :=
  s.alu 4 d a b minU

/-- `maxn` (R71). -/
def execMaxn (d a b : Reg) (s : State) : Out :=
  s.alu 4 d a b maxU

/-- `sra` (R71). -/
def execSra (d a b : Reg) (s : State) : Out :=
  s.alu 4 d a b shiftA

/-- `mul` (R71). -/
def execMul (d a b : Reg) (s : State) : Out :=
  s.alu 4 d a b (fun x y => x * y)

/-- `mulh` (R71). -/
def execMulh (d a b : Reg) (s : State) : Out :=
  s.alu 4 d a b mulHigh

/-- `mulhn` (R71). -/
def execMulhn (d a b : Reg) (s : State) : Out :=
  s.alu 4 d a b mulHighN

/-- `div` (R72). -/
def execDiv (d a b : Reg) (s : State) : Out :=
  s.alu 4 d a b quot

/-- `divn` (R72). -/
def execDivn (d a b : Reg) (s : State) : Out :=
  s.alu 4 d a b quotN

/-- `rem` (R72). -/
def execRem (d a b : Reg) (s : State) : Out :=
  s.alu 4 d a b remainder

/-- `remn` (R72). -/
def execRemn (d a b : Reg) (s : State) : Out :=
  s.alu 4 d a b remainderN

/-- `clz` (R71). -/
def execClz (d a : Reg) (s : State) : Out :=
  s.unary 4 d a clzOf

/-- `ctz` (R71). -/
def execCtz (d a : Reg) (s : State) : Out :=
  s.unary 4 d a ctzOf

/-- `cpop` (R71). -/
def execCpop (d a : Reg) (s : State) : Out :=
  s.unary 4 d a cpopOf

/-- `add.w` (R71). -/
def execAddW (d a b : Reg) (s : State) : Out :=
  s.aluW 4 d a b (fun x y => x + y)

/-- `sll.w` (R71). -/
def execSllW (d a b : Reg) (s : State) : Out :=
  s.aluW 4 d a b shiftL

/-- `slt.w` (R71). -/
def execSltW (d a b : Reg) (s : State) : Out :=
  s.cmpW 4 d a b (fun x y => x.slt y)

/-- `sltn.w` (R71). -/
def execSltnW (d a b : Reg) (s : State) : Out :=
  s.cmpW 4 d a b (fun x y => x.ult y)

/-- `xor.w` (R71). -/
def execXorW (d a b : Reg) (s : State) : Out :=
  s.aluW 4 d a b (fun x y => x ^^^ y)

/-- `srl.w` (R71). -/
def execSrlW (d a b : Reg) (s : State) : Out :=
  s.aluW 4 d a b shiftR

/-- `or.w` (R71). -/
def execOrW (d a b : Reg) (s : State) : Out :=
  s.aluW 4 d a b (fun x y => x ||| y)

/-- `and.w` (R71). -/
def execAndW (d a b : Reg) (s : State) : Out :=
  s.aluW 4 d a b (fun x y => x &&& y)

/-- `sub.w` (R71). -/
def execSubW (d a b : Reg) (s : State) : Out :=
  s.aluW 4 d a b (fun x y => x - y)

/-- `min.w` (R71). -/
def execMinW (d a b : Reg) (s : State) : Out :=
  s.aluW 4 d a b minS

/-- `max.w` (R71). -/
def execMaxW (d a b : Reg) (s : State) : Out :=
  s.aluW 4 d a b maxS

/-- `minn.w` (R71). -/
def execMinnW (d a b : Reg) (s : State) : Out :=
  s.aluW 4 d a b minU

/-- `maxn.w` (R71). -/
def execMaxnW (d a b : Reg) (s : State) : Out :=
  s.aluW 4 d a b maxU

/-- `sra.w` (R71). -/
def execSraW (d a b : Reg) (s : State) : Out :=
  s.aluW 4 d a b shiftA

/-- `mul.w` (R71). -/
def execMulW (d a b : Reg) (s : State) : Out :=
  s.aluW 4 d a b (fun x y => x * y)

/-- `mulh.w` (R71). -/
def execMulhW (d a b : Reg) (s : State) : Out :=
  s.aluW 4 d a b mulHigh

/-- `mulhn.w` (R71). -/
def execMulhnW (d a b : Reg) (s : State) : Out :=
  s.aluW 4 d a b mulHighN

/-- `div.w` (R72). -/
def execDivW (d a b : Reg) (s : State) : Out :=
  s.aluW 4 d a b quot

/-- `divn.w` (R72). -/
def execDivnW (d a b : Reg) (s : State) : Out :=
  s.aluW 4 d a b quotN

/-- `rem.w` (R72). -/
def execRemW (d a b : Reg) (s : State) : Out :=
  s.aluW 4 d a b remainder

/-- `remn.w` (R72). -/
def execRemnW (d a b : Reg) (s : State) : Out :=
  s.aluW 4 d a b remainderN

/-- `clz.w` (R71). -/
def execClzW (d a : Reg) (s : State) : Out :=
  s.unary 4 d a (fun x => ext32 (clzOf (low32 x)))

/-- `ctz.w` (R71). -/
def execCtzW (d a : Reg) (s : State) : Out :=
  s.unary 4 d a (fun x => ext32 (ctzOf (low32 x)))

/-- `cpop.w` (R71). -/
def execCpopW (d a : Reg) (s : State) : Out :=
  s.unary 4 d a (fun x => ext32 (cpopOf (low32 x)))

/-- `addi` (R73). -/
def execAddi (d a : Reg) (i : BitVec 12) (s : State) : Out :=
  s.aluImm 4 d a (immWord i) (fun x y => x + y)

/-- `slti` (R73). -/
def execSlti (d a : Reg) (i : BitVec 12) (s : State) : Out :=
  s.aluImm 4 d a (immWord i) setLess

/-- `sltni` (R73). -/
def execSltni (d a : Reg) (i : BitVec 12) (s : State) : Out :=
  s.aluImm 4 d a (immWord i) setLessN

/-- `xori` (R73). -/
def execXori (d a : Reg) (i : BitVec 12) (s : State) : Out :=
  s.aluImm 4 d a (immWord i) (fun x y => x ^^^ y)

/-- `ori` (R73). -/
def execOri (d a : Reg) (i : BitVec 12) (s : State) : Out :=
  s.aluImm 4 d a (immWord i) (fun x y => x ||| y)

/-- `andi` (R73). -/
def execAndi (d a : Reg) (i : BitVec 12) (s : State) : Out :=
  s.aluImm 4 d a (immWord i) (fun x y => x &&& y)

/-- `slli` (R73). -/
def execSlli (d a : Reg) (c : BitVec 6) (s : State) : Out :=
  s.aluImm 4 d a (c.setWidth 64) shiftL

/-- `srli` (R73). -/
def execSrli (d a : Reg) (c : BitVec 6) (s : State) : Out :=
  s.aluImm 4 d a (c.setWidth 64) shiftR

/-- `srai` (R73). -/
def execSrai (d a : Reg) (c : BitVec 6) (s : State) : Out :=
  s.aluImm 4 d a (c.setWidth 64) shiftA

/-- `ldhi` (R74). -/
def execLdhi (d : Reg) (i : BitVec 20) (s : State) : Out :=
  .next ((s.setG d (ext32 (i ++ 0#12))).finish 4)

/-- `pcadd` (R74): PC is the address of the instruction itself; the result is a plain-byte pointer. -/
def execPcadd (d : Reg) (i : BitVec 20) (s : State) : Out :=
  .next ((s.setG d ((s.ctx.pc + (i ++ 0#12).signExtend 56).setWidth 64)).finish 4)

/-- `beq` (R79). -/
def execBeq (a b : Reg) (o : BitVec 12) (s : State) : Out :=
  s.branch 4 (s.g a == s.g b) (offBytes o)

/-- `bne` (R79). -/
def execBne (a b : Reg) (o : BitVec 12) (s : State) : Out :=
  s.branch 4 (s.g a != s.g b) (offBytes o)

/-- `blt` (R79). -/
def execBlt (a b : Reg) (o : BitVec 12) (s : State) : Out :=
  s.branch 4 ((s.g a).slt (s.g b)) (offBytes o)

/-- `bge` (R79). -/
def execBge (a b : Reg) (o : BitVec 12) (s : State) : Out :=
  s.branch 4 (!(s.g a).slt (s.g b)) (offBytes o)

/-- `bltn` (R79). -/
def execBltn (a b : Reg) (o : BitVec 12) (s : State) : Out :=
  s.branch 4 ((s.g a).ult (s.g b)) (offBytes o)

/-- `bgen` (R79). -/
def execBgen (a b : Reg) (o : BitVec 12) (s : State) : Out :=
  s.branch 4 (!(s.g a).ult (s.g b)) (offBytes o)

/-- `jal` (R80). -/
def execJal (d : Reg) (o : BitVec 20) (s : State) : Out :=
  .next ((s.setG d ((s.ctx.pc + 4).setWidth 64)).jump (s.ctx.pc + offBytes o))

/-- `jalr` (R80): the base is read before the link is written; the format and block-length codes are ignored. -/
def execJalr (d a : Reg) (i : BitVec 12) (s : State) : Out :=
  let t : VAddr := (s.g a).setWidth 56 + i.signExtend 56
  .next ((s.setG d ((s.ctx.pc + 4).setWidth 64)).jump (t &&& ~~~1#56))

/-- `add` in its 16-bit form (R58). -/
def execAddShort (d a : Reg) (s : State) : Out :=
  s.alu 2 d d a (fun x y => x + y)

/-- `sub` in its 16-bit form (R58). -/
def execSubShort (d a : Reg) (s : State) : Out :=
  s.alu 2 d d a (fun x y => x - y)

/-- `and` in its 16-bit form (R58). -/
def execAndShort (d a : Reg) (s : State) : Out :=
  s.alu 2 d d a (fun x y => x &&& y)

/-- `or` in its 16-bit form (R58). -/
def execOrShort (d a : Reg) (s : State) : Out :=
  s.alu 2 d d a (fun x y => x ||| y)

/-- `xor` in its 16-bit form (R58). -/
def execXorShort (d a : Reg) (s : State) : Out :=
  s.alu 2 d d a (fun x y => x ^^^ y)

/-- `sll` in its 16-bit form (R58). -/
def execSllShort (d a : Reg) (s : State) : Out :=
  s.alu 2 d d a shiftL

/-- `srl` in its 16-bit form (R58). -/
def execSrlShort (d a : Reg) (s : State) : Out :=
  s.alu 2 d d a shiftR

/-- `sra` in its 16-bit form (R58). -/
def execSraShort (d a : Reg) (s : State) : Out :=
  s.alu 2 d d a shiftA

/-- `slt` in its 16-bit form (R58). -/
def execSltShort (d a : Reg) (s : State) : Out :=
  s.alu 2 d d a setLess

/-- `sltn` in its 16-bit form (R58). -/
def execSltnShort (d a : Reg) (s : State) : Out :=
  s.alu 2 d d a setLessN

/-- `min` in its 16-bit form (R58). -/
def execMinShort (d a : Reg) (s : State) : Out :=
  s.alu 2 d d a minS

/-- `max` in its 16-bit form (R58). -/
def execMaxShort (d a : Reg) (s : State) : Out :=
  s.alu 2 d d a maxS

/-- `minn` in its 16-bit form (R58). -/
def execMinnShort (d a : Reg) (s : State) : Out :=
  s.alu 2 d d a minU

/-- `maxn` in its 16-bit form (R58). -/
def execMaxnShort (d a : Reg) (s : State) : Out :=
  s.alu 2 d d a maxU

/-- `mul` in its 16-bit form (R58). -/
def execMulShort (d a : Reg) (s : State) : Out :=
  s.alu 2 d d a (fun x y => x * y)

/-- `add.w` in its 16-bit form (R58). -/
def execAddWShort (d a : Reg) (s : State) : Out :=
  s.aluW 2 d d a (fun x y => x + y)

/-- `sub.w` in its 16-bit form (R58). -/
def execSubWShort (d a : Reg) (s : State) : Out :=
  s.aluW 2 d d a (fun x y => x - y)

/-- `addi` in its 16-bit form (R58). -/
def execAddiShort (d : Reg) (i : BitVec 5) (s : State) : Out :=
  s.aluImm 2 d d (immWord i) (fun x y => x + y)

/-- `slti` in its 16-bit form (R58). -/
def execSltiShort (d : Reg) (i : BitVec 5) (s : State) : Out :=
  s.aluImm 2 d d (immWord i) setLess

/-- `sltni` in its 16-bit form (R58). -/
def execSltniShort (d : Reg) (i : BitVec 5) (s : State) : Out :=
  s.aluImm 2 d d (immWord i) setLessN

/-- `xori` in its 16-bit form (R58). -/
def execXoriShort (d : Reg) (i : BitVec 5) (s : State) : Out :=
  s.aluImm 2 d d (immWord i) (fun x y => x ^^^ y)

/-- `ori` in its 16-bit form (R58). -/
def execOriShort (d : Reg) (i : BitVec 5) (s : State) : Out :=
  s.aluImm 2 d d (immWord i) (fun x y => x ||| y)

/-- `andi` in its 16-bit form (R58). -/
def execAndiShort (d : Reg) (i : BitVec 5) (s : State) : Out :=
  s.aluImm 2 d d (immWord i) (fun x y => x &&& y)

/-- `slli` in its 16-bit form (R58): the count is unsigned. -/
def execSlliShort (d : Reg) (c : BitVec 5) (s : State) : Out :=
  s.aluImm 2 d d (c.setWidth 64) shiftL

/-- `srli` in its 16-bit form (R58): the count is unsigned. -/
def execSrliShort (d : Reg) (c : BitVec 5) (s : State) : Out :=
  s.aluImm 2 d d (c.setWidth 64) shiftR

/-- `srai` in its 16-bit form (R58): the count is unsigned. -/
def execSraiShort (d : Reg) (c : BitVec 5) (s : State) : Out :=
  s.aluImm 2 d d (c.setWidth 64) shiftA

/-- `beq` in its 16-bit form: it compares with `g0` (R58, R79). -/
def execBeqShort (d : Reg) (o : BitVec 5) (s : State) : Out :=
  s.branch 2 (s.g d == s.g 0) (offBytes o)

/-- `bne` in its 16-bit form: it compares with `g0` (R58, R79). -/
def execBneShort (d : Reg) (o : BitVec 5) (s : State) : Out :=
  s.branch 2 (s.g d != s.g 0) (offBytes o)

/-- `blt` in its 16-bit form: it compares with `g0` (R58, R79). -/
def execBltShort (d : Reg) (o : BitVec 5) (s : State) : Out :=
  s.branch 2 ((s.g d).slt (s.g 0)) (offBytes o)

/-- `bge` in its 16-bit form: it compares with `g0` (R58, R79). -/
def execBgeShort (d : Reg) (o : BitVec 5) (s : State) : Out :=
  s.branch 2 (!(s.g d).slt (s.g 0)) (offBytes o)

/-- `jal g0` in its 16-bit form (R58). -/
def execJalShort (o : BitVec 10) (s : State) : Out :=
  .next (s.jump (s.ctx.pc + offBytes o))

end Sys2Proof.Machine
end

