-- ==== Sys2Proof/Machine/Partition.lean ====
section
/-!
DEFINITION. What happens to a whole partition: `yield` (R88), the switch and the resume (R356 to R358, R371), the halt and its release
(R359), the job deadline (R270), and the gated core's power gate and report (R268, R269).
A halt that the package itself asks for carries its cause in `aux` and its partition in `unit`: 1 `JOB.DL`, 3 a cluster's halt,
4 any other; `aux` 0 is the host's command.
-/

namespace Sys2Proof.Machine

open Sys2Proof

/-- A partition notice (R415). -/
def State.notice (s : State) (part event cause : Nat) : State :=
  s.report 0x8B part s.time [BitVec.ofNat 64 (event + 256 * cause)]

/-- Is a core running a task of a partition? -/
def Core.runsTask (c : Core) (part : Nat) : Bool := c.task.any (fun t => t.part == part)

/-- The cores that run a task of a partition. -/
def State.taskCores (s : State) (part : Nat) : List Nat := (s.partCores part).filter (fun n => (s.coreAt n).runsTask part)

/-- A core with its counters of messages taken from another view of it. -/
def Core.withCounters (c d : Core) : Core :=
  { c with seqOut := d.seqOut, expected := d.expected, reorder := d.reorder, unaccepted := d.unaccepted, retry := d.retry }

/-- One core at a switch stop (R357): its task, if it still runs one, is saved whole with REASON 1; the counters of its messages are
saved as they stand (R370). (DESIGN CHOICE, log 58) -/
def State.switchCore (s : State) (part n : Nat) : State :=
  let mine (v : Saved) : Bool := v.cluster == clusterOfCore n && v.slot == posOfCore n
  if (s.coreAt n).runsTask part then
    ((s.stopTask n).saveTask part n (posOfCore n) 1 0).onCore n Core.idle
  else if (s.partAt part).saved.any mine then
    s.onPart part (fun p => { p with saved := p.saved.map (fun v => if mine v then { v with image := v.image.withCounters (s.coreAt n) } else v) })
  else
    let v : Saved := {
      slot := posOfCore n, reason := 1, cluster := clusterOfCore n, pos := posOfCore n
      addr := 0, ready := false, order := 0, image := (s.coreAt n).idle }
    s.onPart part (fun p => { p with saved := p.saved ++ [v] })

/-- The partition's messages on the mesh, which leave it into the spill buffers (R371). (DESIGN CHOICE, log 58) -/
def spilledOf (part : Nat) : List Move → List Msg
  | [] => []
  | .event i e :: rest => if i == .messageArrival && e.die == part then e.toMsg :: spilledOf part rest else spilledOf part rest
  | _ :: rest => spilledOf part rest

/-- Is a move a message of a barrier's tree, or of its fabric leg, to a cluster of a list (R259)? -/
def State.ofTree (s : State) (cls : List Nat) : Move → Bool
  | .event i e =>
    if i == .fabricBarrierEvent || i == .fabricBarrierRelease then (s.fabricMasks (fieldOf e.val 32 16)).any (fun m => cls.contains m.pkgRoot)
    else (i == .barrierEventMessage || i == .barrierReleaseMessage) && cls.contains e.addr
  | _ => false

/-- Is a move a message of a partition, or a retry of one of its cores? -/
def Move.ofMessages (part : Nat) (cores : List Nat) : Move → Bool
  | .event i e => (i == .messageArrival && e.die == part) || (i == .messageRetry && cores.contains e.core)
  | _ => false

/-- Is a move a request at the dispenser of a partition's launch (R346, R348)? -/
def Move.ofRequest (part : Nat) : Move → Bool
  | .event i e => (i == .dispenserTnext || i == .dispenserCommit || i == .dispenserSchrd) && e.unit == part
  | _ => false

/-- The objects of an event unit as no program has set them; its own registers stay (R259). -/
def Cluster.cleared (c : Cluster) : Cluster :=
  { c with barriers := Cluster.reset.barriers, mutexes := Cluster.reset.mutexes, events := Cluster.reset.events }

/-- The objects of an event unit put back (R358). -/
def Cluster.restored (c u : Cluster) : Cluster := { c with barriers := u.barriers, mutexes := u.mutexes, events := u.events }

/-- The stop of a whole partition (R357, R371): every core that has not yielded, the messages in flight, the event units; then it is
switched out and the host told. (DESIGN CHOICE, log 57) -/
def State.switchOut (s : State) (part : Nat) : State :=
  let cores := s.partCores part
  let cls := s.partClusters part
  let s1 := cores.foldl (fun a n => a.switchCore part n) s
  let s2 := ((spilledOf part s1.agenda).foldl (fun a m => a.spillMsg part m) s1).onPart part (fun p => { p with
    held := s1.agenda.filter (fun m => s1.ofTree cls m)
    units := cls.map (fun c => (c, s1.clusterAt c))
    switchedOut := true, armed := none })
  let s3 := { s2 with agenda := s2.agenda.filter (fun m => !s1.ofTree cls m && !m.ofMessages part cores && !m.ofRequest part) }
  let s4 := cls.foldl (fun a c => (a.setFused c false).onCluster c Cluster.cleared) (s3.clearDeadlines part)
  s4.notice part 1 0

/-- `yield` (R88, R357). Its matrix queue drains first; vector registers and accumulators are not kept. The partition is switched
out with the last save. -/
def execYield (s : State) : Out :=
  let n := s.focus
  if s.ctx.cidx ≠ 0 then s.trapped (Trap.illegal 2)
  else
    match s.core.task with
    | none => .next (s.finish 4)
    | some t =>
      if s.core.yieldDl = 0 then .next (s.finish 4)
      else if !s.core.mx.queue.isEmpty then .next (s.wait .busy)
      else if s.core.midStore then .next s
      else if s.coreMustWait n then .next (s.wait .busy)
      else
        let s1 := ((s.finish 4).stopTask n).onCore n (fun c => { c with
          ctxs := c.ctxs.map (fun x => { x with v := Vector.replicate 32 0 })
          mx := { c.mx with accs := Matrix.reset.accs } })
        let s2 := (s1.saveTask t.part n (posOfCore n) 2 0).onCore n Core.idle
        .next (if (s2.taskCores t.part).isEmpty then s2.switchOut t.part else s2)

/-- Is a dispatched launch of a partition still having its map cleared (R343)? -/
def Move.clearsMap (part : Nat) : Move → Bool
  | .event i e => i == .launchDispatch && e.val == 1 && e.unit == part
  | _ => false

/-- Must a partition's stop wait: a launch not yet started, a task at its end, what a core must see to the end (R50, R166, R297, R357)?
(DEDUCED, log 51; DESIGN CHOICE, log 57) -/
def State.stopMustWait (s : State) (part : Nat) : Bool :=
  s.underWay (Move.clearsMap part) || (s.taskCores part).any (fun n => s.coreMustWait n || (s.coreAt n).task.any (fun t => t.ending))

/-- MGMT_SWITCH (R357): the switch time `val` is armed in every core of partition `unit`. Refused for a partition without a launch,
halted or switched out; busy while a switch is armed. (DESIGN CHOICE, logs 57, 64) -/
def execMgmtSwitch (s : State) : Out :=
  s.management 0x07 (fun s =>
    let part := s.ev.unit
    let p := s.partAt part
    if 64 ≤ part ∨ p.launch.isNone ∨ p.halted ∨ p.switchedOut then .next (s.answerMgmt 0x07 2 [])
    else if p.armed.isSome then .next (s.answerMgmt 0x07 1 [])
    else
      let s1 := (s.partCores part).foldl (fun a n => a.onCore n (fun c => { c with yieldDl := s.ev.val })) s
      .next (((s1.onPart part (fun p => { p with armed := some s.ev.val })).answerMgmt 0x07 0 []).post .switchDeadline
        { Ev.empty with unit := part, val := s.ev.val }))

/-- SWITCH_DEADLINE (R357): TIME reaches the armed time, and every core that has not yielded is stopped and saved. (DESIGN CHOICE, log 57) -/
def execSwitchDeadline (s : State) : Out :=
  let part := s.ev.unit
  if (s.partAt part).armed ≠ some s.ev.val then .next s
  else if s.time.toNat < s.ev.val.toNat ∨ s.stopMustWait part then .next (s.retryLater .switchDeadline s.ev)
  else .next (s.switchOut part)

/-- One task of a switched-out partition put back on its core (R358). (DEDUCED, logs 45, 49) -/
def State.resumeCore (s : State) (v : Saved) : State :=
  let n := 16 * v.cluster + v.pos
  let s1 := s.onCore n (fun c => c.loadCore v.image)
  let s2 := if v.image.task.isSome then (s1.acquire n .system).restoreTask n v else s1
  let s3 := s2.onCore n (fun c => { c with yieldDl := 0 })
  if !(s3.coreAt n).retry.isEmpty then s3.post .messageRetry { Ev.empty with core := n } else s3

/-- Does a partition hold a cluster of a die that is under warm reset (R385)? -/
def State.heldByReset (s : State) (part : Nat) : Bool :=
  (s.partClusters part).any (fun c => s.dstate.toList.getD (dieOfCluster c) 0 != 0)

/-- The resume of a partition (R358): its clusters fuse again, the event units, tasks and messages come back. -/
def State.resumePart (s : State) (part : Nat) : State :=
  let p := s.partAt part
  let fuse := p.launch.any (fun l => recFuse l.record)
  let s1 := p.units.foldl (fun a u => (if fuse then a.setFused u.1 true else a).onCluster u.1 (fun c => c.restored u.2)) s
  let back := p.saved.filter (fun v => decide (v.slot < 16))
  let s2 := s1.onPart part (fun p => { p with
    saved := p.saved.filter (fun v => decide (16 ≤ v.slot)), units := [], spill := [], held := [], switchedOut := false, armed := none })
  let s3 := back.foldl (fun a v => a.resumeCore v) s2
  let s4 := p.spill.foldl (fun a m => a.post .messageArrival m.toEv) { s3 with agenda := s3.agenda ++ p.held }
  let ready := p.saved.filter (fun v => v.ready && v.reason == 0)
  let s5 := ready.foldl (fun a v => a.post .taskEnd { Ev.empty with core := 16 * v.cluster, unit := part, flag := true }) s4
  s5.notice part 2 0

/-- MGMT_RESUME (R358, R385): partition `unit` goes on; refused unless it is switched out, busy while a die of it is under reset.
(DESIGN CHOICE, log 64) -/
def execMgmtResume (s : State) : Out :=
  s.management 0x08 (fun s =>
    let part := s.ev.unit
    if 64 ≤ part ∨ !(s.partAt part).switchedOut then .next (s.answerMgmt 0x08 2 [])
    else if s.heldByReset part then .next (s.answerMgmt 0x08 1 [])
    else .next ((s.resumePart part).answerMgmt 0x08 0 []))

/-- A core at a partition halt (R359): its task is saved with REASON 3, and the core has no context left. (DEDUCED, log 59) -/
def State.haltTask (s : State) (part n : Nat) : State :=
  ((s.stopTask n).saveTask part n (posOfCore n) 3 0).onCore n Core.idle

/-- The halt of a partition (R359): every core of it stops and is dumped; its launch does not complete; it is not free until its
release. (DEDUCED, log 59) -/
def State.haltPart (s : State) (part cause : Nat) : State :=
  if (s.partAt part).halted then s
  else
    let s1 := (s.taskCores part).foldl (fun a n => a.haltTask part n) s
    let done (m : Move) : Bool := (s1.partAt part).launch.any (fun l => m.ofDone part l.num)
    let cores := s1.partCores part
    let s2 := s1.dropMoves (fun m => m.clearsMap part || m.ofTdone part || done m || m.ofRequest part || m.ofMessages part cores)
    (s2.onPart part (fun p => { p with
      halted := true, switchedOut := false, armed := none
      launch := p.launch.map (fun l => { l with serving := none, held := [] }) })).notice part 3 cause

/-- MGMT_HALT_PARTITION (R359, R433): a halt command, or a halt that the package asks for. -/
def execMgmtHaltPartition (s : State) : Out :=
  if s.ev.aux ≠ 0 then .next (s.haltPart s.ev.unit (if s.ev.aux = 4 then 0 else s.ev.aux))
  else
    s.management 0x09 (fun s =>
      let part := fieldOf s.ev.arg 0 6
      if fieldOf s.ev.arg 6 58 ≠ 0 ∨ !s.ev.payload.isEmpty ∨ !s.partValid part then .next (s.answerMgmt 0x09 2 [])
      else .next ((s.haltPart part 2).answerMgmt 0x09 0 []))

/-- The release of a halted partition (R359): its launch is discarded, and it is free. (DEDUCED, log 59) -/
def State.releaseHalt (s : State) (part : Nat) : State :=
  let cls := s.partClusters part
  let s1 := cls.foldl (fun a c => (a.setFused c false).onCluster c (fun x => { x with halted := false })) (s.clearDeadlines part)
  let s2 := s1.onPart part (fun p => { p with
    launch := none, halted := false, saved := [], units := [], spill := [], held := [] })
  let s3 := s2.notice part 4 0
  (List.range 4).foldl (fun a d => a.kickDispatch d) s3

/-- MGMT_RELEASE_HALT (R359, R433). -/
def execMgmtReleaseHalt (s : State) : Out :=
  s.management 0x09 (fun s =>
    let part := fieldOf s.ev.arg 0 6
    if fieldOf s.ev.arg 6 58 ≠ 2 ^ 57 ∨ !s.ev.payload.isEmpty ∨ !(s.partAt part).halted then .next (s.answerMgmt 0x09 2 [])
    else .next ((s.releaseHalt part).answerMgmt 0x09 0 []))

/-- The job deadlines that stand for a partition's launch: `JOB.DL` of its cores, or of their images while it is switched out (R270). -/
def State.deadlines (s : State) (part : Nat) : List Word :=
  let p := s.partAt part
  (if p.switchedOut then (p.saved.filter (fun v => decide (v.slot < 16))).map (fun v => v.image.jobDl)
    else (s.partCores part).map (fun n => (s.coreAt n).jobDl)).filter (fun w => w != 0)

/-- JOB_DEADLINE (R270): once TIME has passed `JOB.DL` of a core before the launch completes, the partition is halted. (DEDUCED, log 59) -/
def execJobDeadline (s : State) : Out :=
  let part := s.ev.unit
  if (s.partAt part).halted || !(s.partAt part).launch.any (fun l => !l.complete) then .next s
  else
    match s.deadlines part with
    | [] => .next s
    | ds => if ds.any (fun w => decide (w.toNat < s.time.toNat)) then .next (s.haltPart part 1) else .next (s.retryLater .jobDeadline s.ev)

/-- Does a context wait as R43 has it: not one that is only stalled at a miss or a busy unit, but one at a page fault? -/
def State.waits (s : State) (n i : Nat) : Bool :=
  match (s.ctxAt n i).wait with
  | none => false
  | some w =>
    match w.why with
    | .mem va _ => s.stillParked n i va
    | .query page => s.stillParked n i (page * 65536)
    | _ => !(s.ctxAt n i).stalled

/-- Is a core clock-gated: it could issue, has contexts, and none of them is ready because all are waiting (R43)? -/
def State.gated (s : State) (n : Nat) : Bool :=
  let c := s.coreAt n
  s.runs n && c.next.isNone && c.ctxs.toList.any (fun x => x.life == .live)
    && (List.range 11).all (fun i => (c.ctx i).life != .live || s.waits n i)

/-- Has a gated core been gated for a threshold of 1024 tk units (R268)? -/
def State.gatedFor (s : State) (n units : Nat) : Bool :=
  s.gated n &&
  (match (s.coreAt n).gatedAt with
    | some t => decide (t + 1024 * units ≤ s.time.toNat)
    | none => false)

/-- POWER_GATE (R268): a core gated for PG·1024 tk is power-gated with all its state. -/
def execPowerGate (s : State) : Out :=
  let n := s.ev.core
  let pg := fieldOf (s.clusterAt (clusterOfCore n)).waitpol 0 32
  if pg ≠ 0 ∧ s.gatedFor n pg then .next (s.onCore n (fun c => { c with powerGated := true })) else .next s

/-- The doublewords of a residency report for one waiting context (R415). (PRESUMED, log 60) -/
def Ctx.reportWords (x : Ctx) : List Word :=
  match x.wait with
  | some w => if x.life == .live then [BitVec.ofNat 64 (x.cidx * 2 ^ 60 + x.pc.toNat), w.ir.setWidth 64] else []
  | none => []

/-- RESIDENCY_REPORT (R269, R415): a core gated for RES·1024 tk in a launch with `hang=residency` is reported once and logged. (PRESUMED, log 60) -/
def execResidencyReport (s : State) : Out :=
  let n := s.ev.core
  let c := s.coreAt n
  let res := fieldOf (s.clusterAt (clusterOfCore n)).waitpol 32 32
  match c.task with
  | none => .next s
  | some t =>
    match (s.partAt t.part).launch with
    | none => .next s
    | some l =>
      if recHang l.record || res == 0 || c.reported || !s.gatedFor n res then .next s
      else
        let words := BitVec.ofNat 64 (l.queue * 2 ^ 48 + t.part) :: recEntry l.record :: c.ctxs.toList.flatMap (fun x => x.reportWords)
        .next (((s.onCore n (fun c => { c with reported := true })).logCore n 0x0A 0 0).report 0x8A n s.time words)

/-- The clock-gated state of a core follows its contexts (R43, R268). -/
def State.gateCore (s : State) (n : Nat) (c : Core) : Core :=
  if s.gated n then { c with gatedAt := some (c.gatedAt.getD s.time.toNat) } else { c with gatedAt := none, powerGated := false }

/-- The threshold events of one core that are due and not yet on their way (R268, R269). -/
def State.gateEvents (s : State) (n : Nat) (c : Core) : List Move :=
  let w := (s.clusterAt (clusterOfCore n)).waitpol
  let ev (i : Instr) (units : Nat) (done : Bool) : List Move :=
    let m : Move := .event i { Ev.empty with core := n }
    if units ≠ 0 ∧ !done ∧ s.gatedFor n units ∧ !s.agenda.contains m then [m] else []
  ev .powerGate (fieldOf w 0 32) c.powerGated ++ ev .residencyReport (fieldOf w 32 32) c.reported

/-- Is an event one of a unit that runs on the arithmetic clock of its core's die: the matrix unit, the cluster engine, or the stream unit for
a LOCAL stream (R363, R383)? (DEDUCED, log 63) -/
def State.onArithClock (s : State) (i : Instr) (e : Ev) : Bool :=
  (Move.event i e).ofUnit e.core && !(i == .streamContextArrive || i == .progressMark || i == .streamRecallArrive || i == .streamContextReturn)
    && (i != .streamElementPass || ((s.coreAt e.core).stream e.unit).state == .locl)

/-- Must an event wait: the clock of its unit stands still (R382, R383)? -/
def State.clockHeld (s : State) (i : Instr) (e : Ev) : Bool :=
  let d := s.dieAt (dieOfCore e.core)
  (d.clockStopped || d.vfHeld) && s.onArithClock i e

/-- Time passes: the ac of every released core whose clock runs, and the ticks of TIME, by free amounts (R85); they count for the age of every
eligible head (R341); the cores that have no ready context are clock-gated from now on (R43). (DESIGN CHOICE, log 6) -/
def State.tick (s : State) : State :=
  let k := Config.acPassed s.freeCtr
  let s1 : State := { s with
    cores := s.cores.map (fun nc =>
      let d := s.dieAt (dieOfCore nc.1)
      if nc.2.released && !d.clockStopped && !d.vfHeld && s.dstate.toList.getD (dieOfCore nc.1) 0 != 7 then (nc.1, { nc.2 with cyc := nc.2.cyc + BitVec.ofNat 64 k }) else nc)
    time := timeAfter s.time (Config.tkPassed s.freeCtr s.rate)
    queues := s.queues.map (fun q => (q.1, if s.headEligible q.1 then
      { q.2 with waited := q.2.waited + ((timeAfter s.time (Config.tkPassed s.freeCtr s.rate)).toNat - s.time.toNat) } else q.2))
    freeCtr := s.freeCtr + 1 }
  let s2 : State := { s1 with cores := s1.cores.map (fun nc => (nc.1, s1.gateCore nc.1 nc.2)) }
  { s2 with agenda := s2.agenda ++ s2.cores.flatMap (fun nc => s2.gateEvents nc.1 nc.2 ++ s2.limitEvents nc.1 nc.2) }

end Sys2Proof.Machine
end

