-- ==== Sys2Proof/Machine/Package.lean ====
section
/-!
DEFINITION. The package around the dies: plain die registers (R301), links (R377 to R379), power and temperature (R382, R383), the error
log's ring (R391, R434), and the host's management requests that act on them (R315, R378, R388, R390, R433).
A request's arguments other than those of R433 come with its event: the die, core or partition in `unit`, its value in `val`, a
selector in `aux`.
-/

namespace Sys2Proof.Machine

open Sys2Proof

/-- REGISTER_WRITE (R301): the writable bits of a register. A WRCMD store with STEP 6 or 7 is not accepted (R408, R409). -/
def execRegisterWrite (s : State) : Out :=
  let e := s.ev
  let s1 :=
    if e.addr = 0x130 then
      if e.die = 0 then (s.setDieReg 0 0x138 (setField (s.dieReg 0 0x138) 62 2 2)).logHearth 0 0x07 6 (regPa 0 0x130) 2 else s
    else s.writeReg e.die e.addr e.val
  .next (s1.answerReg none)

/-- NQSTAT_READ (R301): the read clears DROPS. -/
def execNqstatRead (s : State) : Out :=
  let d := s.ev.die
  let v := s.dieReg d 0x50
  .next ((s.setDieReg d 0x50 (setField v 0 32 0)).answerReg (some v))

/-- NQSTAT_WRITE (R301): OVF clears by writing one. -/
def execNqstatWrite (s : State) : Out :=
  let d := s.ev.die
  let s1 := if s.ev.val.getLsbD 63 then s.setDieReg d 0x50 (setField (s.dieReg d 0x50) 63 1 0) else s
  .next (s1.answerReg none)

/-- The die at the other end of a link: east and west, or north and south (R362). -/
def linkPeer (d k : Nat) : Nat := if k = 0 then 2 * (d / 2) + (1 - d % 2) else (2 + d) % 4

/-- Bit 0 of a link's half of LINKSTAT: the east-west link's is [63:32] (R379). -/
def linkBase (k : Nat) : Nat := if k = 0 then 32 else 0

/-- STATE of link `k` of a die: 0 east-west, 1 north-south. -/
def State.linkSt (s : State) (d k : Nat) : Nat := fieldOf (s.dieReg d 0x118) (linkBase k + 30) 2

/-- STATE of a link set at one end. -/
def State.setLinkEnd (s : State) (d k st : Nat) : State :=
  s.setDieReg d 0x118 (setField (s.dieReg d 0x118) (linkBase k + 30) 2 st)

/-- STATE of a link set at both ends. -/
def State.setLink (s : State) (d k st : Nat) : State := (s.setLinkEnd d k st).setLinkEnd (linkPeer d k) k st

/-- REPLAYS of a link's end increased, saturating. -/
def State.addReplays (s : State) (d k n : Nat) : State :=
  let v := s.dieReg d 0x118
  s.setDieReg d 0x118 (setField v (linkBase k) 16 (min 0xFFFF (fieldOf v (linkBase k) 16 + n)))

/-- RETRAINS of a link's end increased, saturating. -/
def State.addRetrains (s : State) (d k n : Nat) : State :=
  let v := s.dieReg d 0x118
  s.setDieReg d 0x118 (setField v (linkBase k + 16) 8 (min 0xFF (fieldOf v (linkBase k + 16) 8 + n)))

/-- What a die keeps of a link. -/
def Die.link (x : Die) (k : Nat) : Link := x.links.toList.getD k { attempts := 0, asked := none }

/-- What both ends of a link keep of it. -/
def State.putLink (s : State) (d k : Nat) (l : Link) : State :=
  let put (a : State) (n : Nat) : State := a.onDie n (fun x => if h : k < 2 then { x with links := x.links.set k l h } else x)
  put (put s d) (linkPeer d k)

/-- A retraining begins: the link is training at both ends; how it ends the manual leaves open (R378). (DESIGN CHOICE, log 61) -/
def State.startRetrain (s : State) (d k : Nat) : State :=
  let s1 := s.setLink d k 1
  { s1 with freeCtr := s1.freeCtr + 1 }.retryLater .linkRetrainEnd { Ev.empty with die := d, unit := k, flag := Config.freeBit s1.freeCtr }

/-- LINK_FLIT_ERROR (R377, R378): flits of link `unit` of a die fail their CRC; `aux` flits are replayed, or, with `flag`, the link
cannot recover by replay and retrains. (DESIGN CHOICE, log 61) -/
def execLinkFlitError (s : State) : Out :=
  let d := s.ev.die
  let k := s.ev.unit
  if s.linkSt d k ≠ 2 then .next s
  else if s.ev.flag then .next ((s.putLink d k { attempts := 0, asked := none }).startRetrain d k)
  else .next (s.addReplays d k s.ev.aux)

/-- LINK_RETRAIN_END (R378): a retraining of link `unit` succeeds (`flag`), and `aux` flits are replayed; or it fails, and a third
failure in a row fails the link. (DESIGN CHOICE, log 61) -/
def execLinkRetrainEnd (s : State) : Out :=
  let d := s.ev.die
  let k := s.ev.unit
  if s.linkSt d k ≠ 1 then .next s
  else
    let l := (s.dieAt d).link k
    let s1 := (s.addRetrains d k 1).addRetrains (linkPeer d k) k 1
    let answer (a : State) (status : Nat) : State :=
      match l.asked with
      | some (e, r) => a.mgmtReply e r 0x06 status []
      | none => a
    if s.ev.flag then .next (answer (((s1.setLink d k 2).putLink d k { attempts := 0, asked := none }).addReplays d k s.ev.aux) 0)
    else if l.attempts < 2 then .next ((s1.putLink d k { l with attempts := l.attempts + 1 }).startRetrain d k)
    else .next (answer (((s1.setLink d k 3).putLink d k { attempts := 0, asked := none }).logHearth d 0x05 3 (regPa d 0x118) 0) 3)

/-- LINKSTAT_READ (R379): the read clears RETRAINS and REPLAYS of both links. -/
def execLinkstatRead (s : State) : Out :=
  let d := s.ev.die
  let v := s.dieReg d 0x118
  .next ((s.setDieReg d 0x118 (setField (setField v 32 24 0) 0 24 0)).answerReg (some v))

/-- THERMAL_TRIP (R383): the die's arithmetic clock stops; TRIP and HOT are set, and the trip is logged and reported. -/
def execThermalTrip (s : State) : Out :=
  let d := s.ev.die
  let s1 := (s.onDie d (fun x => { x with clockStopped := true })).setDieReg d 0x128 (setField (s.dieReg d 0x128) 62 2 3)
  .next (s1.logHearth d 0x08 6 (regPa d 0x128) 0)

/-- RESUME_TEMPERATURE (R382): HOT clears. -/
def execResumeTemperature (s : State) : Out :=
  let d := s.ev.die
  .next (s.setDieReg d 0x128 (setField (s.dieReg d 0x128) 62 1 0))

/-- A VF point written (R382): 5 to 7 leave VF unchanged and are logged; a change holds the arithmetic clock. (DEDUCED, log 63) -/
def State.writeVf (s : State) (d vf : Nat) : State :=
  let v := s.dieReg d 0x128
  if 5 ≤ vf then s.logHearth d 0x07 6 (regPa d 0x128) (BitVec.ofNat 64 vf)
  else if fieldOf v 0 3 = vf then s
  else ((s.setDieReg d 0x128 (setField v 0 3 vf)).onDie d (fun x => { x with vfHeld := true })).retryLater .vfClockHoldEnd { Ev.empty with die := d }

/-- Does some partition hold a cluster of a die (R382)? (DEDUCED, log 62) -/
def State.dieHeld (s : State) (d : Nat) : Bool :=
  (List.range 64).any (fun p => s.partValid p && (s.partClusters p).any (fun c => dieOfCluster c == d))

/-- DSTATE of a die (R385). -/
def State.dst (s : State) (d : Nat) : Nat := s.dstate.toList.getD d 0

/-- DSTATE of a die replaced. -/
def State.setDst (s : State) (d st : Nat) : State :=
  { s with dstate := if h : d < 4 then s.dstate.set d st h else s.dstate }

/-- EN written (R382): EN = 0 only while no partition holds a cluster of the die, whose homes then answer DIE-OFF. (DEDUCED, log 62) -/
def State.writeEn (s : State) (d : Nat) (on : Bool) : State :=
  let v := s.dieReg d 0x128
  if v.getLsbD 8 = on then s
  else if on then
    let s1 := s.setDieReg d 0x128 (setField v 8 1 1)
    if s.dst d = 7 then s1.setDst d 0 else s1
  else if s.dieHeld d ∨ s.dst d ≠ 0 then s.logHearth d 0x07 6 (regPa d 0x128) 0
  else (s.setDieReg d 0x128 (setField v 8 1 0)).setDst d 7

/-- PWRCTL_VF (R382). -/
def execPwrctlVf (s : State) : Out := .next ((s.writeVf s.ev.die (fieldOf s.ev.val 0 3)).answerReg none)

/-- PWRCTL_EN (R382). -/
def execPwrctlEn (s : State) : Out := .next ((s.writeEn s.ev.die (s.ev.val.getLsbD 8)).answerReg none)

/-- PWRCTL_TRIP_CLEAR (R382): TRIP clears by writing one. -/
def execPwrctlTripClear (s : State) : Out :=
  let d := s.ev.die
  let s1 := if s.ev.val.getLsbD 63 then s.setDieReg d 0x128 (setField (s.dieReg d 0x128) 63 1 0) else s
  .next (s1.answerReg none)

/-- VF_CLOCK_HOLD_END (R382): the held clock runs again. -/
def execVfClockHoldEnd (s : State) : Out := .next (s.onDie s.ev.die (fun x => { x with vfHeld := false }))

/-- A 16-bit field of a word increased, saturating. -/
def satAdd (x : Word) (lo n : Nat) : Word := setField x lo 16 (min 0xFFFF (fieldOf x lo 16 + n))

/-- The counts of an entry, itself perhaps a summary, added to a summary (R434). -/
def LogEntry.absorb (m e : LogEntry) : LogEntry :=
  let n := fieldOf e.dw1 0 16
  let m1 := { m with dw1 := satAdd m.dw1 0 n }
  if e.cls = 0x0C then
    let four (a b : Word) : Word := (List.range 4).foldl (fun x i => satAdd x (16 * i) (fieldOf b (16 * i) 16)) a
    { m1 with dw1 := satAdd m1.dw1 16 (fieldOf e.dw1 16 16), dw2 := four m1.dw2 e.dw2, dw3 := four m1.dw3 e.dw3 }
  else if 1 ≤ e.cls ∧ e.cls ≤ 4 then { m1 with dw2 := satAdd m1.dw2 (16 * (e.cls - 1)) n }
  else if 5 ≤ e.cls ∧ e.cls ≤ 8 then { m1 with dw3 := satAdd m1.dw3 (16 * (e.cls - 5)) n }
  else { m1 with dw1 := satAdd m1.dw1 16 n }

/-- Entries as written into an empty ring: the last place holds a summary of what does not fit (R434). -/
def packEntries (cap : Nat) (es : List LogEntry) : List LogEntry :=
  let rest := es.drop (cap - 2)
  match rest with
  | [] => es
  | f :: _ => es.take (cap - 2) ++ [rest.foldl LogEntry.absorb (logSummary f.dw0)]

/-- ELOGBASE_WRITE (R391, R434): the ring set, HEAD and TAIL 0; with a CAP of 2 or more it takes the internal entries. The other dies
ignore the store. -/
def execElogbaseWrite (s : State) : Out :=
  if s.ev.die ≠ 0 then .next (s.answerReg none)
  else
    let v := s.ev.val
    let cap := fieldOf v 48 16
    let inner := decide (2 ≤ fieldOf (s.dieReg 0 0x140) 48 16)
    let s1 := (s.setDieReg 0 0x140 v).setDieReg 0 0x148 0
    if cap < 2 then .next ({ s1 with logLast := if inner then none else s1.logLast }.answerReg none)
    else
      let es := packEntries cap s1.logInternal
      let s2 := s1.poke 0 (fieldOf v 0 48) (es.flatMap LogEntry.image)
      .next (({ s2 with logInternal := [], logTail := 0, logLast := es.getLast? }.setDieReg 0 0x148 (BitVec.ofNat 64 es.length)).answerReg none)

/-- MGMT_DRAIN_LOG (R388, R391): the entries from HEAD up to TAIL, at most 128 in one reply, are returned and HEAD passes them. They
end before an entry that an uncorrectable error has struck; when that entry is the first, the request fails and HEAD passes it (R7).
(DEDUCED, logs 65, 93) -/
def execMgmtDrainLog (s : State) : Out :=
  s.management 0x0B (fun s =>
    let cap := fieldOf (s.dieReg 0 0x140) 48 16
    if cap < 2 then
      let es := s.logInternal.take 128
      .next ({ s with logInternal := s.logInternal.drop 128 }.answerMgmt 0x0B 0 (es.flatMap LogEntry.words))
    else
      let ptr := s.dieReg 0 0x148
      let head := fieldOf ptr 32 32 % cap
      let n := min 128 ((fieldOf ptr 0 32 + cap - head) % cap)
      let word (i j : Nat) : Word × Bool := s.peekWord 0 (fieldOf (s.dieReg 0 0x140) 0 48 + 32 * ((head + i) % cap) + 8 * j)
      let good (i : Nat) : Bool := (List.range 4).all (fun j => !(word i j).2)
      let m := ((List.range n).takeWhile good).length
      let words := (List.range m).flatMap (fun i => (List.range 4).map (fun j => (word i j).1))
      if m = 0 ∧ n ≠ 0 then
        .next (((s.setDieReg 0 0x148 (setField ptr 32 32 ((head + 1) % cap))).logHearth 0 0x02 6
          (fieldOf (s.dieReg 0 0x140) 0 48 + 32 * head) 0).answerMgmt 0x0B 3 [])
      else .next ((s.setDieReg 0 0x148 (setField ptr 32 32 ((head + m) % cap))).answerMgmt 0x0B 0 words))

/-- MGMT_ATTEST (R390): the measurement log and its signature over the log and the 32-byte nonce. -/
def execMgmtAttest (s : State) : Out :=
  s.management 0x0A (fun s =>
    if s.ev.payload.length ≠ 4 then .next (s.answerMgmt 0x0A 2 [])
    else
      let log := s.measured.flatten
      .next (s.answerMgmt 0x0A 0 (log ++ Config.attestSignature log s.ev.payload)))

/-- Is a die under warm reset, or not admitted (R385, R387)? -/
def State.underReset (s : State) (d : Nat) : Bool := decide (1 ≤ s.dst d) && decide (s.dst d ≤ 6)

/-- MGMT_RESTART_CORE (R87, R387, R433): the halted context becomes ready at the PC, and the core's other contexts go on as kept. -/
def execMgmtRestartCore (s : State) : Out :=
  s.management 0x01 (fun s =>
    let n := fieldOf s.ev.arg 0 12
    let pc := s.ev.payload.getD 0 0
    let bad := fieldOf s.ev.arg 12 52 ≠ 0 ∨ s.ev.payload.length ≠ 1 ∨ pc.getLsbD 0 ∨ fieldOf pc 56 8 ≠ 0 ∨ 4032 ≤ n
    if bad then .next (s.answerMgmt 0x01 2 [])
    else if s.underReset (dieOfCore n) then .next (s.answerMgmt 0x01 1 [])
    else
      match (s.coreAt n).halted with
      | none => .next (s.answerMgmt 0x01 2 [])
      | some i =>
        let s1 := s.onCore n (fun c => { c with halted := none })
        .next ((s1.onCtx n i (fun x => { x with wait := none, fwd := none, pc := pc.setWidth 56 })).answerMgmt 0x01 0 []))

/-- A power command of the host takes effect (R382): VF, or EN. -/
def State.powerCommand (s : State) (d : Nat) (c : Nat × Word) : State :=
  if c.1 = 0 then s.writeVf d (fieldOf c.2 0 3) else s.writeEn d (c.2.getLsbD 0)

/-- MGMT_POWER (R382, R383, R387, R388): VF (`aux` 0) or EN (1) of die `unit` written, or its clock restarted after a trip (2), which
a hot die refuses. While the clock is stopped a command takes effect at the restart. (DEDUCED, log 63; DESIGN CHOICE, log 64) -/
def execMgmtPower (s : State) : Out :=
  s.management 0x03 (fun s =>
    let d := s.ev.unit
    let x := s.dieAt d
    let refuse : Out := .next (s.answerMgmt 0x03 2 [])
    if 4 ≤ d ∨ 2 < s.ev.aux then refuse
    else if s.underReset d then .next (s.answerMgmt 0x03 1 [])
    else if s.ev.aux = 2 then
      if (s.dieReg d 0x128).getLsbD 62 then refuse
      else
        let s1 := s.onDie d (fun x => { x with clockStopped := false, deferredPower := [] })
        .next ((x.deferredPower.foldl (fun a c => a.powerCommand d c) s1).answerMgmt 0x03 0 [])
    else if s.ev.aux = 0 ∧ 5 ≤ fieldOf s.ev.val 0 3 then .next ((s.writeVf d (fieldOf s.ev.val 0 3)).answerMgmt 0x03 2 [])
    else if s.ev.aux = 1 ∧ !s.ev.val.getLsbD 0 ∧ s.dieHeld d then refuse
    else if x.clockStopped then
      .next ((s.onDie d (fun x => { x with deferredPower := x.deferredPower ++ [(s.ev.aux, s.ev.val)] })).answerMgmt 0x03 0 [])
    else .next ((s.powerCommand d (s.ev.aux, s.ev.val)).answerMgmt 0x03 0 []))

/-- MGMT_GATING (R268, R387, R388): WAITPOL of the clusters that the payload's four doublewords name is set to `val`; busy while a die of one of
them is under reset. (DESIGN CHOICE, log 64) -/
def execMgmtGating (s : State) : Out :=
  s.management 0x04 (fun s =>
    let mask := joinChunks 64 (s.ev.payload.map BitVec.toNat)
    if s.ev.payload.length ≠ 4 ∨ 2 ^ 252 ≤ mask then .next (s.answerMgmt 0x04 2 [])
    else
      let cls := (List.range 252).filter (fun c => bitOf mask c)
      if cls.any (fun c => s.underReset (dieOfCluster c)) then .next (s.answerMgmt 0x04 1 []) else
      .next ((cls.foldl (fun a c => a.onCluster c (fun x => { x with waitpol := s.ev.val })) s).answerMgmt 0x04 0 []))

/-- A move of the walker of slice `a` that slice `b` makes from now on. -/
def Move.forWalker (a b : Nat) : Move → Move
  | .event i e =>
    if (i == .wake || i == .watchRewalk || i == .faultMessage || i == .migrationFault || i == .sqeFaultMessage) && e.core == a
    then .event i { e with core := b } else .event i e
  | m => m

/-- Slice `a` hands everything over to slice `b` (R315): its dirty lines are written back and invalidated; parked requests, their pending
records, requests in the router and watches, on whatever die, move. (DEDUCED, log 69) -/
def State.handSlice (s : State) (a b : Nat) : State :=
  let s1 := (s.coreAt a).l2.foldl (fun t l => t.evictHomeLine a l.1) s
  let c := s1.coreAt a
  let s2 := s1.onCore b (fun x => { x with
    parked := x.parked ++ c.parked, router := x.router ++ c.router
    pending := c.pending.foldl (fun t p => if (tabFind t p.1).isSome then t else tabPut t p.1 p.2) x.pending })
  let s3 := s2.onCore a (fun x => { x with parked := [], router := [], pending := [], tcache := [], acCount := [], retired := true })
  let s4 := [0, 1, 2, 3].foldl (fun t d => t.onDie d (fun x => { x with
    watches := x.watches.map (fun w => (w.1, w.2.map (fun p => (if p.1 = a then b else p.1, p.2)))) })) s3
  { s4 with agenda := s4.agenda.map (fun m => m.forWalker a b) }

/-- MGMT_RETIRE_SLICE (R305, R315): slice `unit` is retired to `aux`, another slice of its cluster, by an RMAP entry that is free on
every die. (DESIGN CHOICE, log 64; DEDUCED, log 69) -/
def execMgmtRetireSlice (s : State) : Out :=
  s.management 0x05 (fun s =>
    let a := s.ev.unit
    let b := s.ev.aux
    let free (i : Nat) : Bool := (List.range 4).all (fun d => !(s.rmap d i).getLsbD 63)
    if 4032 ≤ a ∨ a = b ∨ clusterOfCore a ≠ clusterOfCore b ∨ (s.coreAt a).retired ∨ (s.coreAt b).retired then
      .next (s.answerMgmt 0x05 2 [])
    else if s.underReset (dieOfCore a) then .next (s.answerMgmt 0x05 1 [])
    else
      match (List.range 16).find? free with
      | none => .next (s.answerMgmt 0x05 3 [])
      | some i =>
        let s1 := s.handSlice a b
        let entry : Word := BitVec.ofNat 64 (2 ^ 63 + a * 65536 + b)
        .next (((List.range 4).foldl (fun t d => t.setDieReg d (0x60 + 8 * i) entry) s1).answerMgmt 0x05 0 []))

/-- MGMT_RETRAIN_LINK (R378, R388): a failed link `aux` of die `unit` is trained again; the reply comes with the end. (DESIGN CHOICE, log 64) -/
def execMgmtRetrainLink (s : State) : Out :=
  s.management 0x06 (fun s =>
    let d := s.ev.unit
    let k := s.ev.aux
    if 4 ≤ d ∨ 2 ≤ k ∨ s.linkSt d k ≠ 3 then .next (s.answerMgmt 0x06 2 [])
    else if s.underReset d ∨ s.underReset (linkPeer d k) then .next (s.answerMgmt 0x06 1 [])
    else .next ((s.putLink d k { attempts := 0, asked := some (s.ev.die, s.ev.reqid) }).startRetrain d k))

/-- PTP_MESSAGE (R381): the rate of TIME is adjusted, by at most 200 ppm; with `flag` the host steps TIME forward, before the first
dispatch after a cold boot only. -/
def execPtpMessage (s : State) : Out :=
  if s.ev.flag then .next (if s.dispatched then s else { s with time := timeAfter s.time s.ev.val.toNat })
  else .next { s with rate := max (-200) (min 200 s.ev.val.toInt) }

/-- PORT_STATE_CHANGE (R412): STATE of port `unit` of a die becomes `aux`. -/
def execPortStateChange (s : State) : Out :=
  let d := s.ev.die
  let off := if s.ev.unit = 0 then 0x300 else 0x308
  .next (s.setDieReg d off (setField (s.dieReg d off) 61 2 s.ev.aux))

end Sys2Proof.Machine
end

