-- ==== Sys2Proof/Machine/Reset.lean ====
section
/-!
DEFINITION. Warm reset of a die (R385 to R387, R408 to R410), cold boot, the Puori image and discovery (R372, R389, R390).
A WRCMD store brings its step with the fields of a register event; a host's warm-reset command carries the die in `unit`.
-/

namespace Sys2Proof.Machine

open Sys2Proof

/-- RES, STEP and DIE of WRSTAT (R408). -/
def State.setWrstat (s : State) (res step die : Nat) : State :=
  s.setDieReg 0 0x138 (BitVec.ofNat 64 (res * 2 ^ 62 + step * 256 + die))

/-- RES of WRSTAT replaced. -/
def State.setWrres (s : State) (res : Nat) : State := s.setDieReg 0 0x138 (setField (s.dieReg 0 0x138) 62 2 res)

/-- RES of WRSTAT: 0 running, 1 done, 2 refused, 3 failed. -/
def State.wrres (s : State) : Nat := fieldOf (s.dieReg 0 0x138) 62 2

/-- The step that follows a step of a warm reset: 1, 2, 3, 4, 5, 0 (R409). -/
def nextStep (k : Nat) : Nat := if k = 5 then 0 else k + 1

/-- Does a partition that is neither free nor switched out hold a cluster of a die (R385)? -/
def State.dieInUse (s : State) (d : Nat) : Bool :=
  s.parts.any (fun p => !s.partFree p.1 && !p.2.switchedOut && (s.partClusters p.1).any (fun c => dieOfCluster c == d))

/-- Is a host command for a die running: a link of it is being trained again (R385)? -/
def State.dieBusy (s : State) (d : Nat) : Bool :=
  [0, 1].any (fun k => ((s.dieAt d).link k).asked.isSome)

/-- Is a warm-reset step of a die accepted: the order of R409, and for step 1 the conditions of R385? -/
def State.stepAccepted (s : State) (d step : Nat) : Bool :=
  s.wrres != 0 && decide (1 ≤ d) && decide (d ≤ 3) &&
  (match s.warm with
    | some w => w.die == d && step == nextStep w.step
    | none => step == 1 && s.dst d == 0 && !s.dieInUse d && !s.dieBusy d)

/-- STATE of the neighbours' halves that describe a die's links (R379). -/
def State.setNeighbours (s : State) (d st : Nat) : State :=
  [0, 1].foldl (fun a k => a.setLinkEnd (linkPeer d k) k st) s

/-- Are 1008 cores of a die enabled, so that discovery admits it (R372)? -/
def dieComplete (d : Nat) : Bool := decide (1008 ≤ (enabledCores d).length)

/-- The end of a step is due later; how retraining and discovery end the manual leaves open. -/
def State.finishLater (s : State) (d step : Nat) : State :=
  let ok := if step = 4 then Config.freeBit s.freeCtr else if step = 5 then Config.freeBit s.freeCtr && dieComplete d else true
  let tries := if step = 4 then 1 + (Config.freeWord (s.freeCtr + 1)).toNat % 3 else 0
  { s with freeCtr := s.freeCtr + 2 }.retryLater .wrStepDone { Ev.empty with die := d, unit := step, aux := tries, flag := ok }

/-- The slices of a die that hold anything. -/
def State.dieCores (s : State) (d : Nat) : List Nat := (s.cores.filter (fun nc => dieOfCore nc.1 == d)).map (fun nc => nc.1)

/-- Every line of a die's slices written back to its HBM4E (R386 step 2). -/
def State.writeBackDie (s : State) (d : Nat) : State :=
  (s.dieCores d).foldl (fun a n => (a.coreAt n).l2.foldl (fun b l => b.evictHomeLine n l.1) a) s

/-- Does a move act for a core of a die or a unit of it? -/
def Move.ofDie (d : Nat) : Move → Bool
  | .event i e => ((Move.event i e).ofCtxOf e.core || (Move.event i e).ofUnit e.core) && dieOfCore e.core == d
  | .turn _ => false
  | .pick _ => false
  | .evictLine n _ => dieOfCore n == d
  | .evictHome n _ => dieOfCore n == d
  | .flaw _ => false

/-- Everything of a die but its HBM4E is reset (R386 step 3). Requests parked there are answered with HOME-RESET; its queues keep their
records, and its retired slices stay retired (R315). The sensor still knows whether the die is hot (R387), and a hot die's clock stays stopped.
(DEDUCED, log 68) -/
def State.resetDie (s : State) (d : Nat) : State :=
  let hot := (s.dieReg d 0x128).getLsbD 62
  let reqs := (s.dieCores d).flatMap (fun n => (s.coreAt n).parked ++ (s.coreAt n).router)
  let old := (s.dieCores d).filter (fun n => (s.coreAt n).retired)
  let s0 : State := { s with
    cores := s.cores.filter (fun nc => dieOfCore nc.1 != d)
    clusters := s.clusters.filter (fun c => dieOfCluster c.1 != d)
    dies := s.dies.filter (fun x => x.1 != d)
    monitors := s.monitors.filter (fun m => dieOfCore m.core != d)
    agenda := s.agenda.filter (fun m => !m.ofDie d) }
  let s1 := old.foldl (fun a n => a.onCore n (fun c => { c with retired := true })) s0
  let s2 := if hot then (s1.setDieReg d 0x128 (setField (dieRegReset 0x128) 62 1 1)).onDie d (fun x => { x with clockStopped := true }) else s1
  (reqs.filter (fun r => dieOfCore r.core != d)).foldl (fun a r => a.failReq r (.reply 1)) s2

/-- A step of a warm reset begins (R386): RES 0, STEP and DIE recorded, DSTATE and the neighbours' LINKSTAT as the step has them. -/
def State.beginStep (s : State) (d step : Nat) (asked : Option (Nat × Nat)) (regs : List (Nat × Word)) : State :=
  let s1 := { s with warm := some { die := d, step := step, asked := asked, regs := regs } }.setWrstat 0 step d
  let s2 :=
    if step = 1 then (s1.setDst d 1).setNeighbours d 2
    else if step = 2 then s1.setDst d 2
    else if step = 3 then (((s1.setDst d 3).resetDie d).setNeighbours d 0)
    else if step = 4 then (s1.setDst d 4).setNeighbours d 1
    else s1.setDst d 5
  s2.finishLater d step

/-- A WRCMD store of a step (R409): accepted, or refused and logged. The other dies ignore the store. (DEDUCED, log 114) -/
def State.wrcmd (s : State) (step : Nat) : State :=
  let v := s.ev.val
  let d := fieldOf v 0 2
  let zero := fieldOf v 48 16 = 0 ∧ fieldOf v 11 5 = 0 ∧ fieldOf v 2 6 = 0 ∧ (step = 0 ∨ fieldOf v 16 32 = 0)
  if s.ev.die ≠ 0 then s.answerReg none
  else if zero ∧ s.stepAccepted d step then (s.beginStep d step none []).answerReg none
  else ((s.setWrres 2).logHearth 0 0x07 6 (regPa 0 0x130) 2).answerReg none

/-- WR_QUIESCE (R386, R409): step 1. -/
def execWrQuiesce (s : State) : Out := .next (s.wrcmd 1)

/-- WR_WRITE_BACK (R386, R409): step 2. -/
def execWrWriteBack (s : State) : Out := .next (s.wrcmd 2)

/-- WR_RESET (R386, R409): step 3. -/
def execWrReset (s : State) : Out := .next (s.wrcmd 3)

/-- WR_RETRAIN (R386, R409): step 4. -/
def execWrRetrain (s : State) : Out := .next (s.wrcmd 4)

/-- WR_DISCOVER (R386, R409): step 5. -/
def execWrDiscover (s : State) : Out := .next (s.wrcmd 5)

/-- WR_ADMIT (R386, R409): step 0. -/
def execWrAdmit (s : State) : Out := .next (s.wrcmd 0)

/-- An entry of the measurement log (R390): a kind of 32 bytes, whose values the manual leaves open, and a digest. (DESIGN CHOICE, log 85) -/
def State.measure (s : State) (digest : List Word) : State :=
  let kind := (List.range 4).map (fun i => Config.freeWord (s.freeCtr + i))
  { s with freeCtr := s.freeCtr + 4, measured := s.measured ++ [kind ++ digest] }

/-- An entry for something whose contents the manual does not give: the ROM version, the fuse map, a code image. (DESIGN CHOICE, log 85) -/
def State.measureOpen (s : State) : State :=
  { s with freeCtr := s.freeCtr + 8 }.measure ((List.range 8).map (fun i => Config.freeWord (s.freeCtr + i)))

/-- The control context of a core that starts Puori: service level, at an address that the manual leaves open. (DESIGN CHOICE, log 67) -/
def puoriCtx (pc : Word) : Ctx :=
  let x := Ctx.reset 0
  { x with life := .live, pc := BitVec.ofNat 56 (fieldOf pc 1 55 * 2), stat := setField x.stat 0 2 2 }

/-- The corner core of a die is released and starts Puori (R372, R389): at the logical number that its place gives it. Where Puori starts the
manual leaves open. (DESIGN CHOICE, log 67) -/
def State.releaseCorner (s : State) (d : Nat) : State :=
  match (cornerPlace d).bind (fun p => coreOfPlace d p.1 p.2) with
  | none => s
  | some n =>
    let pc := Config.freeWord s.freeCtr
    { s with freeCtr := s.freeCtr + 1 }.onCore n (fun c => { c.setCtx 0 (puoriCtx pc) with released := true, halted := none })

/-- The registers that Puori writes back to a die after its reset (R386): its tables, service set, map and settings. (DEDUCED, log 68) -/
def savedRegs : List Nat :=
  (List.range 9).map (fun i => 8 * i) ++ (List.range 16).map (fun i => 0x60 + 8 * i) ++ [0x100, 0x108, 0x110]

/-- The final status of a warm reset that a host asked for (R386, R388). -/
def State.answerReset (s : State) (w : WarmReset) (status : Nat) : State :=
  match w.asked with
  | some (e, r) => s.mgmtReply e r 0x02 status []
  | none => s

/-- A warm reset has failed at step 4 or 5: RES 3, the die not admitted until a cold boot (R386, R409). (DEDUCED, logs 68, 114) -/
def State.failReset (s : State) (w : WarmReset) (cls : Nat) : State :=
  let s1 := { (s.setWrres 3).setDst w.die 6 with warm := none }
  (s1.logHearth w.die cls 6 (regPa w.die 0x118) 3).answerReset w 3

/-- A step of a warm reset has finished its action (R386, R409). (DEDUCED, log 68) -/
def State.endStep (s : State) (w : WarmReset) : State :=
  let s1 := s.setWrres 1
  if w.step = 0 then
    let s2 := w.regs.foldl (fun a r => a.setDieReg w.die r.1 r.2) { s1.setDst w.die 0 with warm := none }
    ((s2.releaseCorner w.die).measureOpen).answerReset w 0
  else
    match w.asked with
    | some a => s1.beginStep w.die (nextStep w.step) (some a) w.regs
    | none => s1

/-- WR_STEP_DONE (R386, R387, R409): step `unit` of the reset of a die ends; `flag` whether retraining or discovery succeeded, `aux` the
retraining attempts. Step 5 waits for a die that is hot. (DEDUCED, log 68) -/
def execWrStepDone (s : State) : Out :=
  let d := s.ev.die
  let k := s.ev.unit
  match s.warm with
  | none => .next s
  | some w =>
    if w.die ≠ d ∨ w.step ≠ k ∨ s.wrres ≠ 0 then .next s
    else if k = 2 then .next ((s.writeBackDie d).endStep w)
    else if k = 4 then
      let s1 := [0, 1].foldl (fun a l => (a.addRetrains (linkPeer d l) l s.ev.aux).addRetrains d l s.ev.aux) s
      let st := if s.ev.flag then 2 else 3
      let s2 := (s1.setNeighbours d st).setLinkEnd d 0 st |>.setLinkEnd d 1 st
      .next (if s.ev.flag then s2.endStep w else s2.failReset w 0x05)
    else if k = 5 then
      if (s.dieReg d 0x128).getLsbD 62 then .next (s.retryLater .wrStepDone s.ev)
      else
        let s1 := s.onDie d (fun x => { x with clockStopped := false })
        .next (if s.ev.flag then s1.endStep w else s1.failReset w 0x07)
    else .next (s.endStep w)

/-- MGMT_WARM_RESET (R385, R386, R388): busy for die 0, for a die in use and while a reset or another command runs; otherwise Puori takes
the die through the steps, and the host gets the final status. (DESIGN CHOICE, log 64) -/
def execMgmtWarmReset (s : State) : Out :=
  s.management 0x02 (fun s =>
    let d := s.ev.unit
    if 4 ≤ d then .next (s.answerMgmt 0x02 2 [])
    else if !s.stepAccepted d 1 then .next (s.answerMgmt 0x02 1 [])
    else .next (s.beginStep d 1 (some (s.ev.die, s.ev.reqid)) (savedRegs.map (fun o => (o, s.dieReg d o)))))

/-- A message or a signal from outside the package: it is still to come whatever the package does. (DESIGN CHOICE, log 2) -/
def Move.outside : Move → Bool
  | .event i _ =>
    i == .coldBoot || i == .puoriImage || i == .ptpMessage || i == .portStateChange || i == .thermalTrip || i == .resumeTemperature
    || i == .fabricEnqueue || i == .fabricDecrement || i == .fabricWatch || i == .fabricReleaseRequest || i == .rmaRead || i == .rmaWrite
    || i == .uetAtomic || i == .mgmtRestartCore || i == .mgmtWarmReset || i == .mgmtPower || i == .mgmtGating || i == .mgmtRetireSlice
    || i == .mgmtRetrainLink || i == .mgmtSwitch || i == .mgmtResume || i == .mgmtReleaseHalt || i == .mgmtAttest || i == .mgmtDrainLog
  | _ => true

/-- COLD_BOOT (R381, R389, R390): the package is as reset leaves it, TIME is loaded (`val`), and the service processor's ROM records its
first measurements and waits for the Puori image. (DESIGN CHOICE, log 67) -/
def execColdBoot (s : State) : Out :=
  let s1 : State := { State.reset with
    time := s.ev.val, boot := .romWaits, sent := s.sent, freeCtr := s.freeCtr, focus := s.focus
    agenda := s.agenda.filter Move.outside }
  .next ((s1.measureOpen.measure (Config.digest [hostIdent])).measureOpen)

/-- Discovery of a die (R372): the places of its enabled cores give the logical numbers; a die with fewer than 1008 of them is reported and
not admitted. -/
def State.discover (s : State) (d : Nat) : State :=
  if dieComplete d then s else (s.setDst d 6).logHearth d 0x07 6 0 0

/-- PUORI_IMAGE (R372, R389, R390): the image in `data` is verified; one that fails is reported and another is awaited. A good one is
measured and started, the links are up, every die's corner core is released, discovery runs, and the code image that Puori then delivers is
measured. (DESIGN CHOICE, log 67) -/
def execPuoriImage (s : State) : Out :=
  if s.boot ≠ .romWaits then .next s
  else if !Config.imageVerifies s.ev.data then .next (s.logHearth 0 0x07 6 0 0)
  else
    let s1 := { s.measure (Config.digest s.ev.data) with boot := .running }
    let s2 := [0, 1, 2, 3].foldl (fun a d => (a.setLinkEnd d 0 2).setLinkEnd d 1 2) s1
    .next ([0, 1, 2, 3].foldl (fun a d => (a.releaseCorner d).discover d) s2).measureOpen

end Sys2Proof.Machine
end

