-- ==== Sys2Proof/Machine/TrapReplies.lean ====
section
/-!
DEFINITION. The replies of a handler chain to a forwarded trap (R48, R51). The event names the waiting context in `core` and `ctx`;
`val` of a RESUME carries the PC.
-/

namespace Sys2Proof.Machine

open Sys2Proof

/-- The saved image that holds a forwarded trap of context `i` of a task saved from core `n` (R50). -/
def Saved.holdsTrap (v : Saved) (n i : Nat) : Bool :=
  16 * v.cluster + v.pos == n && v.reason != 3 && (v.image.ctx i).fwd.isSome

/-- A reply held with the saved state of a context, delivered on resume (R50). (DEDUCED, log 87) -/
def State.holdReply (s : State) (n i : Nat) (pc : Word) : State :=
  match s.parts.find? (fun p => p.2.saved.any (fun v => v.holdsTrap n i)) with
  | none => s
  | some p => s.onPart p.1 (fun x => { x with saved := x.saved.map (fun v =>
      if v.holdsTrap n i then { v with image := v.image.setCtx i { v.image.ctx i with heldReply := some pc } } else v) })

/-- TRAP_MESSAGE_REPLY_RESUME (R34, R48, R50): the waiting context becomes ready at the PC, whose bit 0 is always zero, INH and all
else unchanged; for a saved context the reply is held. (DEDUCED, log 87) -/
def execTrapMessageReplyResume (s : State) : Out :=
  let n := s.ev.core
  let i := s.ev.ctx
  let s1 := s.takeTrapMsg n i
  if (s.ctxAt n i).fwd.isSome then .next (s1.onCtx n i (fun x => x.resumeAt s.ev.val))
  else .next (s1.holdReply n i s.ev.val)

/-- TRAP_MESSAGE_REPLY_PASS (R48): the message goes to the next member; behind the last one the cluster halts. A saved context's
message goes on when its reply comes after the resume. (DEDUCED, log 87) -/
def execTrapMessageReplyPass (s : State) : Out :=
  let n := s.ev.core
  let i := s.ev.ctx
  let x := s.ctxAt n i
  match x.fwd, x.wait with
  | some m, some w => .next (s.forward n i w.ir { m with pos := m.pos + 1 })
  | _, _ => if s.parts.any (fun p => p.2.saved.any (fun v => v.holdsTrap n i)) then .next (s.retryLater .trapMessageReplyPass s.ev) else .next s

end Sys2Proof.Machine
end

