-- ==== Sys2Proof/Machine/VectorCompute.lean ====
section
/-!
DEFINITION. The vector compute instructions: integer (R135, R136), float (R138 to R141), compares and mask logic (R142, R143),
permutes (R144 to R147), reductions (R148), conversions (R149, R150).
-/

namespace Sys2Proof.Machine

open Sys2Proof

/-- `vadd` (R135). -/
def execVadd (m : Bool) (k : Kind) (d a : VRegNo) (b : BitVec 5) (s : State) : Out :=
  s.vecInt VShape.plain m k d a b (fun _ x y _ => (x : Int) + y)

/-- `vsub` (R135). -/
def execVsub (m : Bool) (k : Kind) (d a : VRegNo) (b : BitVec 5) (s : State) : Out :=
  s.vecInt VShape.plain m k d a b (fun _ x y _ => (x : Int) - y)

/-- `vand` (R135). -/
def execVand (m : Bool) (k : Kind) (d a : VRegNo) (b : BitVec 5) (s : State) : Out :=
  s.vecInt VShape.plain m k d a b (fun _ x y _ => ((x &&& y : Nat) : Int))

/-- `vor` (R135). -/
def execVor (m : Bool) (k : Kind) (d a : VRegNo) (b : BitVec 5) (s : State) : Out :=
  s.vecInt VShape.plain m k d a b (fun _ x y _ => ((x ||| y : Nat) : Int))

/-- `vxor` (R135). -/
def execVxor (m : Bool) (k : Kind) (d a : VRegNo) (b : BitVec 5) (s : State) : Out :=
  s.vecInt VShape.plain m k d a b (fun _ x y _ => ((x ^^^ y : Nat) : Int))

/-- `vsll` (R135). -/
def execVsll (m : Bool) (k : Kind) (d a : VRegNo) (b : BitVec 5) (s : State) : Out :=
  s.vecInt { VShape.plain with idx := true } m k d a b (fun n x y _ => ((x * 2 ^ (y % n) : Nat) : Int))

/-- `vsrl` (R135). -/
def execVsrl (m : Bool) (k : Kind) (d a : VRegNo) (b : BitVec 5) (s : State) : Out :=
  s.vecInt { VShape.plain with idx := true } m k d a b (fun n x y _ => ((x / 2 ^ (y % n) : Nat) : Int))

/-- `vsra` (R135). -/
def execVsra (m : Bool) (k : Kind) (d a : VRegNo) (b : BitVec 5) (s : State) : Out :=
  s.vecInt { VShape.plain with idx := true } m k d a b (fun n x y _ => signExt x n / (2 : Int) ^ (y % n))

/-- `vmin` (R135). -/
def execVmin (m : Bool) (k : Kind) (d a : VRegNo) (b : BitVec 5) (s : State) : Out :=
  s.vecInt VShape.plain m k d a b (fun n x y _ => minInt (signExt x n) (signExt y n))

/-- `vmax` (R135). -/
def execVmax (m : Bool) (k : Kind) (d a : VRegNo) (b : BitVec 5) (s : State) : Out :=
  s.vecInt VShape.plain m k d a b (fun n x y _ => maxInt (signExt x n) (signExt y n))

/-- `vminn` (R135). -/
def execVminn (m : Bool) (k : Kind) (d a : VRegNo) (b : BitVec 5) (s : State) : Out :=
  s.vecInt VShape.plain m k d a b (fun _ x y _ => ((min x y : Nat) : Int))

/-- `vmaxn` (R135). -/
def execVmaxn (m : Bool) (k : Kind) (d a : VRegNo) (b : BitVec 5) (s : State) : Out :=
  s.vecInt VShape.plain m k d a b (fun _ x y _ => ((max x y : Nat) : Int))

/-- `vmul` (R135). -/
def execVmul (m : Bool) (k : Kind) (d a : VRegNo) (b : BitVec 5) (s : State) : Out :=
  s.vecInt VShape.plain m k d a b (fun _ x y _ => (x : Int) * y)

/-- `vmulh` (R135). -/
def execVmulh (m : Bool) (k : Kind) (d a : VRegNo) (b : BitVec 5) (s : State) : Out :=
  s.vecInt VShape.plain m k d a b (fun n x y _ => signExt x n * signExt y n / (2 : Int) ^ n)

/-- `vmulhn` (R135). -/
def execVmulhn (m : Bool) (k : Kind) (d a : VRegNo) (b : BitVec 5) (s : State) : Out :=
  s.vecInt VShape.plain m k d a b (fun n x y _ => ((x * y / 2 ^ n : Nat) : Int))

/-- `vmacc` (R135). -/
def execVmacc (m : Bool) (k : Kind) (d a : VRegNo) (b : BitVec 5) (s : State) : Out :=
  s.vecInt VShape.plain m k d a b (fun n x y o => (o : Int) + signExt x n * signExt y n)

/-- `vsadd` (R135). -/
def execVsadd (m : Bool) (k : Kind) (d a : VRegNo) (b : BitVec 5) (s : State) : Out :=
  s.vecInt VShape.plain m k d a b (fun n x y _ => satS (signExt x n + signExt y n) n)

/-- `vsaddn` (R135). -/
def execVsaddn (m : Bool) (k : Kind) (d a : VRegNo) (b : BitVec 5) (s : State) : Out :=
  s.vecInt VShape.plain m k d a b (fun n x y _ => satU ((x : Int) + y) n)

/-- `vssub` (R135). -/
def execVssub (m : Bool) (k : Kind) (d a : VRegNo) (b : BitVec 5) (s : State) : Out :=
  s.vecInt VShape.plain m k d a b (fun n x y _ => satS (signExt x n - signExt y n) n)

/-- `vssubn` (R135). -/
def execVssubn (m : Bool) (k : Kind) (d a : VRegNo) (b : BitVec 5) (s : State) : Out :=
  s.vecInt VShape.plain m k d a b (fun n x y _ => satU ((x : Int) - y) n)

/-- `vwadd` (R135, R136). -/
def execVwadd (m : Bool) (k : Kind) (d a : VRegNo) (b : BitVec 5) (s : State) : Out :=
  s.vecInt { VShape.plain with wd := true } m k d a b (fun n x y _ => signExt x n + signExt y n)

/-- `vwmul` (R135, R136). -/
def execVwmul (m : Bool) (k : Kind) (d a : VRegNo) (b : BitVec 5) (s : State) : Out :=
  s.vecInt { VShape.plain with wd := true } m k d a b (fun n x y _ => signExt x n * signExt y n)

/-- `vwmacc` (R135, R136). -/
def execVwmacc (m : Bool) (k : Kind) (d a : VRegNo) (b : BitVec 5) (s : State) : Out :=
  s.vecInt { VShape.plain with wd := true } m k d a b (fun n x y o => (o : Int) + signExt x n * signExt y n)

/-- `vnclip` (R135, R136). -/
def execVnclip (m : Bool) (k : Kind) (d a : VRegNo) (b : BitVec 5) (s : State) : Out :=
  s.vecInt { VShape.plain with wa := true, idx := true } m k d a b (fun n x y _ => satS (roundShift (signExt x (2 * n)) (y % (2 * n))) n)

/-- `vfadd` (R138). -/
def execVfadd (m : Bool) (k : Kind) (d a : VRegNo) (b : BitVec 5) (s : State) : Out :=
  s.vecFloat m k d a b (fun f r x y _ => fAdd f r x y)

/-- `vfsub` (R138). -/
def execVfsub (m : Bool) (k : Kind) (d a : VRegNo) (b : BitVec 5) (s : State) : Out :=
  s.vecFloat m k d a b (fun f r x y _ => fSub f r x y)

/-- `vfmul` (R138). -/
def execVfmul (m : Bool) (k : Kind) (d a : VRegNo) (b : BitVec 5) (s : State) : Out :=
  s.vecFloat m k d a b (fun f r x y _ => fMul f r x y)

/-- `vfdiv` (R138). -/
def execVfdiv (m : Bool) (k : Kind) (d a : VRegNo) (b : BitVec 5) (s : State) : Out :=
  s.vecFloat m k d a b (fun f r x y _ => fDiv f r x y)

/-- `vfmin` (R139). -/
def execVfmin (m : Bool) (k : Kind) (d a : VRegNo) (b : BitVec 5) (s : State) : Out :=
  s.vecFloat m k d a b (fun f _ x y _ => fMinMax f false x y)

/-- `vfmax` (R139). -/
def execVfmax (m : Bool) (k : Kind) (d a : VRegNo) (b : BitVec 5) (s : State) : Out :=
  s.vecFloat m k d a b (fun f _ x y _ => fMinMax f true x y)

/-- `vfmacc` (R138). -/
def execVfmacc (m : Bool) (k : Kind) (d a : VRegNo) (b : BitVec 5) (s : State) : Out :=
  s.vecFloat m k d a b (fun f r x y o => fMacc f r x y o)

/-- `vfnmacc` (R138). -/
def execVfnmacc (m : Bool) (k : Kind) (d a : VRegNo) (b : BitVec 5) (s : State) : Out :=
  s.vecFloat m k d a b (fun f r x y o => fNmacc f r x y o)

/-- `vfsqrt` (R138). -/
def execVfsqrt (m : Bool) (d a : VRegNo) (s : State) : Out :=
  s.vecFloat m .vi d a 0 (fun f r x _ _ => fSqrt f r x)

/-- `vfsgnj` (R138). -/
def execVfsgnj (m : Bool) (k : Kind) (d a : VRegNo) (b : BitVec 5) (s : State) : Out :=
  s.vecFloat m k d a b (fun f _ x y _ => (fSgnj f.width false x y, 0))

/-- `vfsgnjn` (R138). -/
def execVfsgnjn (m : Bool) (k : Kind) (d a : VRegNo) (b : BitVec 5) (s : State) : Out :=
  s.vecFloat m k d a b (fun f _ x y _ => (fSgnj f.width true x y, 0))

/-- `vfclass` (R140). -/
def execVfclass (m : Bool) (d a : VRegNo) (s : State) : Out :=
  s.vecFloat m .vi d a 0 (fun f _ x _ _ => (fClass f x, 0))

/-- `vmseq` (R142). -/
def execVmseq (m : Bool) (k : Kind) (d a : VRegNo) (b : BitVec 5) (s : State) : Out :=
  s.vecCompare false m k d a b (fun _ x y => (x == y, 0))

/-- `vmsne` (R142). -/
def execVmsne (m : Bool) (k : Kind) (d a : VRegNo) (b : BitVec 5) (s : State) : Out :=
  s.vecCompare false m k d a b (fun _ x y => (x != y, 0))

/-- `vmslt` (R142). -/
def execVmslt (m : Bool) (k : Kind) (d a : VRegNo) (b : BitVec 5) (s : State) : Out :=
  s.vecCompare false m k d a b (fun n x y => (decide (signExt x n < signExt y n), 0))

/-- `vmsle` (R142). -/
def execVmsle (m : Bool) (k : Kind) (d a : VRegNo) (b : BitVec 5) (s : State) : Out :=
  s.vecCompare false m k d a b (fun n x y => (decide (signExt x n ≤ signExt y n), 0))

/-- `vmsltn` (R142). -/
def execVmsltn (m : Bool) (k : Kind) (d a : VRegNo) (b : BitVec 5) (s : State) : Out :=
  s.vecCompare false m k d a b (fun _ x y => (decide (x < y), 0))

/-- `vmslen` (R142). -/
def execVmslen (m : Bool) (k : Kind) (d a : VRegNo) (b : BitVec 5) (s : State) : Out :=
  s.vecCompare false m k d a b (fun _ x y => (decide (x ≤ y), 0))

/-- `vmfeq` (R142). -/
def execVmfeq (m : Bool) (k : Kind) (d a : VRegNo) (b : BitVec 5) (s : State) : Out :=
  s.vecCompare true m k d a b (fun n x y => fEq (fmtOfWidth n) x y)

/-- `vmflt` (R142). -/
def execVmflt (m : Bool) (k : Kind) (d a : VRegNo) (b : BitVec 5) (s : State) : Out :=
  s.vecCompare true m k d a b (fun n x y => fLt (fmtOfWidth n) x y)

/-- `vmfle` (R142). -/
def execVmfle (m : Bool) (k : Kind) (d a : VRegNo) (b : BitVec 5) (s : State) : Out :=
  s.vecCompare true m k d a b (fun n x y => fLe (fmtOfWidth n) x y)

/-- `vmand` (R143). -/
def execVmand (d a b : VRegNo) (s : State) : Out :=
  s.maskLogic d a b (fun x y => x && y)

/-- `vmor` (R143). -/
def execVmor (d a b : VRegNo) (s : State) : Out :=
  s.maskLogic d a b (fun x y => x || y)

/-- `vmxor` (R143). -/
def execVmxor (d a b : VRegNo) (s : State) : Out :=
  s.maskLogic d a b (fun x y => x != y)

/-- `vmandn` (R143). -/
def execVmandn (d a b : VRegNo) (s : State) : Out :=
  s.maskLogic d a b (fun x y => x && !y)

/-- `vmpop` (R143; with VL = 0 the register keeps its value). -/
def execVmpop (m : Bool) (d : Reg) (a : VRegNo) (s : State) : Out :=
  s.vecCheck true [(a.toNat, 1)] (
    let vl := s.ctx.vcfgOf.vl
    if vl = 0 then .next (s.finish 4) else
    let n := ((List.range vl).filter (fun i => s.ctx.active m i && (s.ctx.getV a.toNat).getLsbD i)).length
    .next ((s.setG d (BitVec.ofNat 64 n)).finish 4))

/-- `vmv` (R144: in the vx and vi kinds there is no source group). -/
def execVmv (m : Bool) (k : Kind) (d a : VRegNo) (b : BitVec 5) (s : State) : Out :=
  let c := s.ctx.vcfgOf
  s.vecCheck (m || d != 0) ((d.toNat, c.gm) :: (if k = .vv then [(a.toNat, c.gm)] else []))
    (s.vecMap m d.toNat c.n c.gm (fun i => (if k = .vv then s.ctx.elem a.toNat i c.n else s.operand k b c.n false i, 0)))

/-- `vslideup` (R144: elements below the offset keep their values). (DEDUCED, log 22) -/
def execVslideup (m : Bool) (k : Kind) (d a : VRegNo) (b : BitVec 5) (s : State) : Out :=
  let off := s.vecIndex k b
  let c := s.ctx.vcfgOf
  let ok := (m || d != 0) && !overlaps d.toNat c.gm a.toNat c.gm
  s.vecCheck ok [(d.toNat, c.gm), (a.toNat, c.gm)] (
    if c.vl = 0 then .next (s.finish 4) else
    s.vecWrite d.toNat c.n c.gm (s.ctx.policy d.toNat c.n c.gm (fun i =>
      if i < off then some (s.ctx.elem d.toNat i c.n)
      else if i < c.vl && s.ctx.active m i then some (s.ctx.elem a.toNat (i - off) c.n)
      else none)) 0)

/-- `vslidedn` (R144). -/
def execVslidedn (m : Bool) (k : Kind) (d a : VRegNo) (b : BitVec 5) (s : State) : Out :=
  let off := s.vecIndex k b
  s.vecPermute m d a [] (fun c i => some (if i + off < 2048 * c.gm / c.n then s.ctx.elem a.toNat (i + off) c.n else 0))

/-- `vgather` (R144). -/
def execVgather (m : Bool) (k : Kind) (d a : VRegNo) (b : BitVec 5) (s : State) : Out :=
  s.vecPermute m d a (secondGroup k b s.ctx.vcfgOf.gm) (fun c i =>
    let j := if k = .vv then s.ctx.elem b.toNat i c.n else s.vecIndex k b
    some (if j < 2048 * c.gm / c.n then s.ctx.elem a.toNat j c.n else 0))

/-- `vcompress` (R144, R145). -/
def execVcompress (d a b : VRegNo) (s : State) : Out :=
  let c := s.ctx.vcfgOf
  let ok := !overlaps d.toNat c.gm a.toNat c.gm && !overlaps d.toNat c.gm b.toNat 1
  s.vecCheck ok [(d.toNat, c.gm), (a.toNat, c.gm), (b.toNat, 1)] (
    if c.vl = 0 then .next (s.finish 4) else
    let picked := ((List.range c.vl).filter (fun i => (s.ctx.getV b.toNat).getLsbD i)).map (fun i => s.ctx.elem a.toNat i c.n)
    let old := s.ctx.elems d.toNat c.n c.gm
    s.vecWrite d.toNat c.n c.gm (picked ++ (old.drop picked.length).map (fun o => if c.tz then 0 else o)) 0)

/-- `vtrn` (R144, R146). -/
def execVtrn (m : Bool) (k : Kind) (d a : VRegNo) (b : BitVec 5) (s : State) : Out :=
  let c := s.ctx.vcfgOf
  let w := s.vecIndex k b
  let ok := c.vl = 0 || (w != 0 && c.vl % w == 0)
  if !ok then s.trapped (Trap.illegal 2) else
  s.vecPermute m d a [] (fun c i =>
    let r := c.vl / w
    some (s.ctx.elem a.toNat (i % r * w + i / r) c.n))

/-- `vxtract` (R147). -/
def execVxtract (k : Kind) (d : Reg) (a : VRegNo) (b : BitVec 5) (s : State) : Out :=
  let c := s.ctx.vcfgOf
  let idx := s.vecIndex k b
  s.vecCheck true [(a.toNat, c.gm)] (
    if c.vl = 0 then .next (s.finish 4) else
    let v : Word := if idx < c.vl then BitVec.ofInt 64 (signExt (s.ctx.elem a.toNat idx c.n) c.n) else 0
    .next ((s.setG d v).finish 4))

/-- `vinsert` (R147). -/
def execVinsert (k : Kind) (d : VRegNo) (a : Reg) (b : BitVec 5) (s : State) : Out :=
  let c := s.ctx.vcfgOf
  let idx := s.vecIndex k b
  s.vecCheck true [(d.toNat, c.gm)] (
    s.vecMap true d.toNat c.n c.gm (fun i => (if i = idx then (s.g a).toNat % 2 ^ c.n else s.ctx.elem d.toNat i c.n, 0)))

/-- `vmerge` (R144: every element below VL is computed). -/
def execVmerge (k : Kind) (d a : VRegNo) (b : BitVec 5) (s : State) : Out :=
  let c := s.ctx.vcfgOf
  s.vecCheck (d != 0) ((d.toNat, c.gm) :: (a.toNat, c.gm) :: secondGroup k b c.gm)
    (s.vecMap true d.toNat c.n c.gm (fun i =>
      (if (s.ctx.getV 0).getLsbD i then s.operand k b c.n false i else s.ctx.elem a.toNat i c.n, 0)))

/-- `vredsum` (R148). -/
def execVredsum (m : Bool) (d a b : VRegNo) (s : State) : Out :=
  s.vecReduceInt m d a b (fun n x y => (x + y) % 2 ^ n)

/-- `vredmin` (R148). -/
def execVredmin (m : Bool) (d a b : VRegNo) (s : State) : Out :=
  s.vecReduceInt m d a b (fun n x y => if signExt x n ≤ signExt y n then x else y)

/-- `vredmax` (R148). -/
def execVredmax (m : Bool) (d a b : VRegNo) (s : State) : Out :=
  s.vecReduceInt m d a b (fun n x y => if signExt x n ≤ signExt y n then y else x)

/-- `vredminn` (R148). -/
def execVredminn (m : Bool) (d a b : VRegNo) (s : State) : Out :=
  s.vecReduceInt m d a b (fun _ x y => min x y)

/-- `vredmaxn` (R148). -/
def execVredmaxn (m : Bool) (d a b : VRegNo) (s : State) : Out :=
  s.vecReduceInt m d a b (fun _ x y => max x y)

/-- `vredand` (R148). -/
def execVredand (m : Bool) (d a b : VRegNo) (s : State) : Out :=
  s.vecReduceInt m d a b (fun _ x y => x &&& y)

/-- `vredor` (R148). -/
def execVredor (m : Bool) (d a b : VRegNo) (s : State) : Out :=
  s.vecReduceInt m d a b (fun _ x y => x ||| y)

/-- `vredxor` (R148). -/
def execVredxor (m : Bool) (d a b : VRegNo) (s : State) : Out :=
  s.vecReduceInt m d a b (fun _ x y => x ^^^ y)

/-- `vfredsum` (R148). -/
def execVfredsum (m : Bool) (d a b : VRegNo) (s : State) : Out :=
  s.vecReduce false true m d a b (fun n acc x => fAdd (fmtOfWidth n) s.frmMode acc x)

/-- `vwredsum` (R148). -/
def execVwredsum (m : Bool) (d a b : VRegNo) (s : State) : Out :=
  s.vecReduce true false m d a b (fun n acc x => (wrapInt (acc + signExt x n) (2 * n), 0))

/-- `vcvtfi` (R149, R150). -/
def execVcvtfi (m : Bool) (r : VRound) (d a : VRegNo) (s : State) : Out :=
  s.vecConvert false false m r d a (fun n mode x =>
    let q := fToInt (fmtOfWidth n) mode (-(2 : Int) ^ (n - 1)) ((2 : Int) ^ (n - 1) - 1) x
    (wrapInt q.1 n, q.2))

/-- `vcvtfn` (R149, R150). -/
def execVcvtfn (m : Bool) (r : VRound) (d a : VRegNo) (s : State) : Out :=
  s.vecConvert false false m r d a (fun n mode x =>
    let q := fToInt (fmtOfWidth n) mode 0 ((2 : Int) ^ n - 1) x
    (wrapInt q.1 n, q.2))

/-- `vcvtif` (R149). -/
def execVcvtif (m : Bool) (r : VRound) (d a : VRegNo) (s : State) : Out :=
  s.vecConvert false false m r d a (fun n mode x => (fmtOfWidth n).roundInt mode (signExt x n) 0)

/-- `vcvtnf` (R149). -/
def execVcvtnf (m : Bool) (r : VRound) (d a : VRegNo) (s : State) : Out :=
  s.vecConvert false false m r d a (fun n mode x => (fmtOfWidth n).roundInt mode (x : Int) 0)

/-- `vcvtfw` (R149). -/
def execVcvtfw (m : Bool) (r : VRound) (d a : VRegNo) (s : State) : Out :=
  s.vecConvert true false m r d a (fun n mode x => fToF (fmtOfWidth n) (fmtOfWidth (2 * n)) mode x)

/-- `vcvtfs` (R149). -/
def execVcvtfs (m : Bool) (r : VRound) (d a : VRegNo) (s : State) : Out :=
  s.vecConvert false true m r d a (fun n mode x => fToF (fmtOfWidth (2 * n)) (fmtOfWidth n) mode x)

end Sys2Proof.Machine
end

