-- ==== Sys2Proof/Machine/Dispatch.lean ====
section
/-! DEFINITION. One arm per constructor: each calls the meaning of its instruction. -/

namespace Sys2Proof.Machine

open Sys2Proof

/-- What an instruction or an event does to a state. -/
def exec (i : Instr) (s : State) : Host.Outcome State Fault Refusal :=
  match i with
  | .add d a b => Sys2Proof.Machine.execAdd d a b s
  | .sll d a b => Sys2Proof.Machine.execSll d a b s
  | .slt d a b => Sys2Proof.Machine.execSlt d a b s
  | .sltn d a b => Sys2Proof.Machine.execSltn d a b s
  | .xor d a b => Sys2Proof.Machine.execXor d a b s
  | .srl d a b => Sys2Proof.Machine.execSrl d a b s
  | .or d a b => Sys2Proof.Machine.execOr d a b s
  | .and d a b => Sys2Proof.Machine.execAnd d a b s
  | .sub d a b => Sys2Proof.Machine.execSub d a b s
  | .min d a b => Sys2Proof.Machine.execMin d a b s
  | .max d a b => Sys2Proof.Machine.execMax d a b s
  | .minn d a b => Sys2Proof.Machine.execMinn d a b s
  | .maxn d a b => Sys2Proof.Machine.execMaxn d a b s
  | .sra d a b => Sys2Proof.Machine.execSra d a b s
  | .mul d a b => Sys2Proof.Machine.execMul d a b s
  | .mulh d a b => Sys2Proof.Machine.execMulh d a b s
  | .mulhn d a b => Sys2Proof.Machine.execMulhn d a b s
  | .div d a b => Sys2Proof.Machine.execDiv d a b s
  | .divn d a b => Sys2Proof.Machine.execDivn d a b s
  | .rem d a b => Sys2Proof.Machine.execRem d a b s
  | .remn d a b => Sys2Proof.Machine.execRemn d a b s
  | .clz d a => Sys2Proof.Machine.execClz d a s
  | .ctz d a => Sys2Proof.Machine.execCtz d a s
  | .cpop d a => Sys2Proof.Machine.execCpop d a s
  | .addW d a b => Sys2Proof.Machine.execAddW d a b s
  | .sllW d a b => Sys2Proof.Machine.execSllW d a b s
  | .sltW d a b => Sys2Proof.Machine.execSltW d a b s
  | .sltnW d a b => Sys2Proof.Machine.execSltnW d a b s
  | .xorW d a b => Sys2Proof.Machine.execXorW d a b s
  | .srlW d a b => Sys2Proof.Machine.execSrlW d a b s
  | .orW d a b => Sys2Proof.Machine.execOrW d a b s
  | .andW d a b => Sys2Proof.Machine.execAndW d a b s
  | .subW d a b => Sys2Proof.Machine.execSubW d a b s
  | .minW d a b => Sys2Proof.Machine.execMinW d a b s
  | .maxW d a b => Sys2Proof.Machine.execMaxW d a b s
  | .minnW d a b => Sys2Proof.Machine.execMinnW d a b s
  | .maxnW d a b => Sys2Proof.Machine.execMaxnW d a b s
  | .sraW d a b => Sys2Proof.Machine.execSraW d a b s
  | .mulW d a b => Sys2Proof.Machine.execMulW d a b s
  | .mulhW d a b => Sys2Proof.Machine.execMulhW d a b s
  | .mulhnW d a b => Sys2Proof.Machine.execMulhnW d a b s
  | .divW d a b => Sys2Proof.Machine.execDivW d a b s
  | .divnW d a b => Sys2Proof.Machine.execDivnW d a b s
  | .remW d a b => Sys2Proof.Machine.execRemW d a b s
  | .remnW d a b => Sys2Proof.Machine.execRemnW d a b s
  | .clzW d a => Sys2Proof.Machine.execClzW d a s
  | .ctzW d a => Sys2Proof.Machine.execCtzW d a s
  | .cpopW d a => Sys2Proof.Machine.execCpopW d a s
  | .addi d a y => Sys2Proof.Machine.execAddi d a y s
  | .slli d a c => Sys2Proof.Machine.execSlli d a c s
  | .slti d a y => Sys2Proof.Machine.execSlti d a y s
  | .sltni d a y => Sys2Proof.Machine.execSltni d a y s
  | .xori d a y => Sys2Proof.Machine.execXori d a y s
  | .srli d a c => Sys2Proof.Machine.execSrli d a c s
  | .srai d a c => Sys2Proof.Machine.execSrai d a c s
  | .ori d a y => Sys2Proof.Machine.execOri d a y s
  | .andi d a y => Sys2Proof.Machine.execAndi d a y s
  | .ldhi d y => Sys2Proof.Machine.execLdhi d y s
  | .pcadd d y => Sys2Proof.Machine.execPcadd d y s
  | .ldb d a y => Sys2Proof.Machine.execLdb d a y s
  | .ldh d a y => Sys2Proof.Machine.execLdh d a y s
  | .ldw d a y => Sys2Proof.Machine.execLdw d a y s
  | .ldd d a y => Sys2Proof.Machine.execLdd d a y s
  | .ldbn d a y => Sys2Proof.Machine.execLdbn d a y s
  | .ldhn d a y => Sys2Proof.Machine.execLdhn d a y s
  | .ldwn d a y => Sys2Proof.Machine.execLdwn d a y s
  | .stb b a y => Sys2Proof.Machine.execStb b a y s
  | .sth b a y => Sys2Proof.Machine.execSth b a y s
  | .stw b a y => Sys2Proof.Machine.execStw b a y s
  | .std b a y => Sys2Proof.Machine.execStd b a y s
  | .beq a b o => Sys2Proof.Machine.execBeq a b o s
  | .bne a b o => Sys2Proof.Machine.execBne a b o s
  | .blt a b o => Sys2Proof.Machine.execBlt a b o s
  | .bge a b o => Sys2Proof.Machine.execBge a b o s
  | .bltn a b o => Sys2Proof.Machine.execBltn a b o s
  | .bgen a b o => Sys2Proof.Machine.execBgen a b o s
  | .jal d o => Sys2Proof.Machine.execJal d o s
  | .jalr d a y => Sys2Proof.Machine.execJalr d a y s
  | .padd d a b => Sys2Proof.Machine.execPadd d a b s
  | .paddi d a y => Sys2Proof.Machine.execPaddi d a y s
  | .ptag d a t => Sys2Proof.Machine.execPtag d a t s
  | .pset d a b => Sys2Proof.Machine.execPset d a b s
  | .pchk d a b => Sys2Proof.Machine.execPchk d a b s
  | .oxset d a => Sys2Proof.Machine.execOxset d a s
  | .oxget d a => Sys2Proof.Machine.execOxget d a s
  | .oxld d a y => Sys2Proof.Machine.execOxld d a y s
  | .srd d n => Sys2Proof.Machine.execSrd d n s
  | .swr a n => Sys2Proof.Machine.execSwr a n s
  | .trap y => Sys2Proof.Machine.execTrap y s
  | .fenceAcq z => Sys2Proof.Machine.execFenceAcq z s
  | .fenceRel z => Sys2Proof.Machine.execFenceRel z s
  | .fenceAr z => Sys2Proof.Machine.execFenceAr z s
  | .fenceFmt => Sys2Proof.Machine.execFenceFmt s
  | .fenceI => Sys2Proof.Machine.execFenceI s
  | .tinval z a => Sys2Proof.Machine.execTinval z a s
  | .purge z discard a => Sys2Proof.Machine.execPurge z discard a s
  | .icinv z a => Sys2Proof.Machine.execIcinv z a s
  | .eret => Sys2Proof.Machine.execEret s
  | .halt => Sys2Proof.Machine.execHalt s
  | .yield => Sys2Proof.Machine.execYield s
  | .amoAdd w o z d a b => Sys2Proof.Machine.execAmoAdd w o z d a b s
  | .amoMin w o z d a b => Sys2Proof.Machine.execAmoMin w o z d a b s
  | .amoMax w o z d a b => Sys2Proof.Machine.execAmoMax w o z d a b s
  | .amoMinn w o z d a b => Sys2Proof.Machine.execAmoMinn w o z d a b s
  | .amoMaxn w o z d a b => Sys2Proof.Machine.execAmoMaxn w o z d a b s
  | .amoAnd w o z d a b => Sys2Proof.Machine.execAmoAnd w o z d a b s
  | .amoOr w o z d a b => Sys2Proof.Machine.execAmoOr w o z d a b s
  | .amoXor w o z d a b => Sys2Proof.Machine.execAmoXor w o z d a b s
  | .amoSwap w o z d a b => Sys2Proof.Machine.execAmoSwap w o z d a b s
  | .amoCas w o z d a b => Sys2Proof.Machine.execAmoCas w o z d a b s
  | .amoupdAdd w a b => Sys2Proof.Machine.execAmoupdAdd w a b s
  | .amoupdMin w a b => Sys2Proof.Machine.execAmoupdMin w a b s
  | .amoupdMax w a b => Sys2Proof.Machine.execAmoupdMax w a b s
  | .amoupdAnd w a b => Sys2Proof.Machine.execAmoupdAnd w a b s
  | .amoupdOr w a b => Sys2Proof.Machine.execAmoupdOr w a b s
  | .amoupdXor w a b => Sys2Proof.Machine.execAmoupdXor w a b s
  | .stv z a b => Sys2Proof.Machine.execStv z a b s
  | .ldv z d a b => Sys2Proof.Machine.execLdv z d a b s
  | .vers d a => Sys2Proof.Machine.execVers d a s
  | .reclaim a => Sys2Proof.Machine.execReclaim a s
  | .waitt d a b => Sys2Proof.Machine.execWaitt d a b s
  | .sigwait d a b => Sys2Proof.Machine.execSigwait d a b s
  | .sigdec a b => Sys2Proof.Machine.execSigdec a b s
  | .hstart d a b => Sys2Proof.Machine.execHstart d a b s
  | .hexit a => Sys2Proof.Machine.execHexit a s
  | .hjoin d n => Sys2Proof.Machine.execHjoin d n s
  | .tnext d => Sys2Proof.Machine.execTnext d s
  | .tdone a => Sys2Proof.Machine.execTdone a s
  | .schrd d n => Sys2Proof.Machine.execSchrd d n s
  | .schstage a n => Sys2Proof.Machine.execSchstage a n s
  | .schcommit d => Sys2Proof.Machine.execSchcommit d s
  | .send a v => Sys2Proof.Machine.execSend a v s
  | .recv d n v => Sys2Proof.Machine.execRecv d n v s
  | .ipop d e => Sys2Proof.Machine.execIpop d e s
  | .ipeek d e => Sys2Proof.Machine.execIpeek d e s
  | .uret => Sys2Proof.Machine.execUret s
  | .sopen z k => Sys2Proof.Machine.execSopen z k s
  | .sread z v g => Sys2Proof.Machine.execSread z v g s
  | .swrite z v g => Sys2Proof.Machine.execSwrite z v g s
  | .swait z g => Sys2Proof.Machine.execSwait z g s
  | .srecall z => Sys2Proof.Machine.execSrecall z s
  | .squery z g n => Sys2Proof.Machine.execSquery z g n s
  | .sresume z => Sys2Proof.Machine.execSresume z s
  | .sclose z => Sys2Proof.Machine.execSclose z s
  | .ecopy a b => Sys2Proof.Machine.execEcopy a b s
  | .egather a b => Sys2Proof.Machine.execEgather a b s
  | .escatter a b => Sys2Proof.Machine.execEscatter a b s
  | .ereduce a b => Sys2Proof.Machine.execEreduce a b s
  | .econv a b => Sys2Proof.Machine.execEconv a b s
  | .estat d => Sys2Proof.Machine.execEstat d s
  | .mpush v => Sys2Proof.Machine.execMpush v s
  | .mstat d => Sys2Proof.Machine.execMstat d s
  | .rput a n => Sys2Proof.Machine.execRput a n s
  | .setvl d a b => Sys2Proof.Machine.execSetvl d a b s
  | .setvli d a c => Sys2Proof.Machine.execSetvli d a c s
  | .vld m d a => Sys2Proof.Machine.execVld m d a s
  | .vlds m d a b => Sys2Proof.Machine.execVlds m d a b s
  | .vldx m d a b => Sys2Proof.Machine.execVldx m d a b s
  | .vldff m d a => Sys2Proof.Machine.execVldff m d a s
  | .vldb m r d a => Sys2Proof.Machine.execVldb m r d a s
  | .vst m d a => Sys2Proof.Machine.execVst m d a s
  | .vsts m d a b => Sys2Proof.Machine.execVsts m d a b s
  | .vstx m d a b => Sys2Proof.Machine.execVstx m d a b s
  | .vqst z d a => Sys2Proof.Machine.execVqst z d a s
  | .vadd m k d a b => Sys2Proof.Machine.execVadd m k d a b s
  | .vsub m k d a b => Sys2Proof.Machine.execVsub m k d a b s
  | .vand m k d a b => Sys2Proof.Machine.execVand m k d a b s
  | .vor m k d a b => Sys2Proof.Machine.execVor m k d a b s
  | .vxor m k d a b => Sys2Proof.Machine.execVxor m k d a b s
  | .vsll m k d a b => Sys2Proof.Machine.execVsll m k d a b s
  | .vsrl m k d a b => Sys2Proof.Machine.execVsrl m k d a b s
  | .vsra m k d a b => Sys2Proof.Machine.execVsra m k d a b s
  | .vmin m k d a b => Sys2Proof.Machine.execVmin m k d a b s
  | .vmax m k d a b => Sys2Proof.Machine.execVmax m k d a b s
  | .vminn m k d a b => Sys2Proof.Machine.execVminn m k d a b s
  | .vmaxn m k d a b => Sys2Proof.Machine.execVmaxn m k d a b s
  | .vmul m k d a b => Sys2Proof.Machine.execVmul m k d a b s
  | .vmulh m k d a b => Sys2Proof.Machine.execVmulh m k d a b s
  | .vmulhn m k d a b => Sys2Proof.Machine.execVmulhn m k d a b s
  | .vmacc m k d a b => Sys2Proof.Machine.execVmacc m k d a b s
  | .vsadd m k d a b => Sys2Proof.Machine.execVsadd m k d a b s
  | .vsaddn m k d a b => Sys2Proof.Machine.execVsaddn m k d a b s
  | .vssub m k d a b => Sys2Proof.Machine.execVssub m k d a b s
  | .vssubn m k d a b => Sys2Proof.Machine.execVssubn m k d a b s
  | .vwadd m k d a b => Sys2Proof.Machine.execVwadd m k d a b s
  | .vwmul m k d a b => Sys2Proof.Machine.execVwmul m k d a b s
  | .vwmacc m k d a b => Sys2Proof.Machine.execVwmacc m k d a b s
  | .vnclip m k d a b => Sys2Proof.Machine.execVnclip m k d a b s
  | .vfadd m k d a b => Sys2Proof.Machine.execVfadd m k d a b s
  | .vfsub m k d a b => Sys2Proof.Machine.execVfsub m k d a b s
  | .vfmul m k d a b => Sys2Proof.Machine.execVfmul m k d a b s
  | .vfdiv m k d a b => Sys2Proof.Machine.execVfdiv m k d a b s
  | .vfmin m k d a b => Sys2Proof.Machine.execVfmin m k d a b s
  | .vfmax m k d a b => Sys2Proof.Machine.execVfmax m k d a b s
  | .vfmacc m k d a b => Sys2Proof.Machine.execVfmacc m k d a b s
  | .vfnmacc m k d a b => Sys2Proof.Machine.execVfnmacc m k d a b s
  | .vfsqrt m d a => Sys2Proof.Machine.execVfsqrt m d a s
  | .vfsgnj m k d a b => Sys2Proof.Machine.execVfsgnj m k d a b s
  | .vfsgnjn m k d a b => Sys2Proof.Machine.execVfsgnjn m k d a b s
  | .vfclass m d a => Sys2Proof.Machine.execVfclass m d a s
  | .vmseq m k d a b => Sys2Proof.Machine.execVmseq m k d a b s
  | .vmsne m k d a b => Sys2Proof.Machine.execVmsne m k d a b s
  | .vmslt m k d a b => Sys2Proof.Machine.execVmslt m k d a b s
  | .vmsle m k d a b => Sys2Proof.Machine.execVmsle m k d a b s
  | .vmsltn m k d a b => Sys2Proof.Machine.execVmsltn m k d a b s
  | .vmslen m k d a b => Sys2Proof.Machine.execVmslen m k d a b s
  | .vmfeq m k d a b => Sys2Proof.Machine.execVmfeq m k d a b s
  | .vmflt m k d a b => Sys2Proof.Machine.execVmflt m k d a b s
  | .vmfle m k d a b => Sys2Proof.Machine.execVmfle m k d a b s
  | .vmand d a b => Sys2Proof.Machine.execVmand d a b s
  | .vmor d a b => Sys2Proof.Machine.execVmor d a b s
  | .vmxor d a b => Sys2Proof.Machine.execVmxor d a b s
  | .vmandn d a b => Sys2Proof.Machine.execVmandn d a b s
  | .vmpop m d a => Sys2Proof.Machine.execVmpop m d a s
  | .vmv m k d a b => Sys2Proof.Machine.execVmv m k d a b s
  | .vslideup m k d a b => Sys2Proof.Machine.execVslideup m k d a b s
  | .vslidedn m k d a b => Sys2Proof.Machine.execVslidedn m k d a b s
  | .vgather m k d a b => Sys2Proof.Machine.execVgather m k d a b s
  | .vcompress d a b => Sys2Proof.Machine.execVcompress d a b s
  | .vtrn m k d a b => Sys2Proof.Machine.execVtrn m k d a b s
  | .vxtract k d a b => Sys2Proof.Machine.execVxtract k d a b s
  | .vinsert k d a b => Sys2Proof.Machine.execVinsert k d a b s
  | .vmerge k d a b => Sys2Proof.Machine.execVmerge k d a b s
  | .vredsum m d a b => Sys2Proof.Machine.execVredsum m d a b s
  | .vredmin m d a b => Sys2Proof.Machine.execVredmin m d a b s
  | .vredmax m d a b => Sys2Proof.Machine.execVredmax m d a b s
  | .vredminn m d a b => Sys2Proof.Machine.execVredminn m d a b s
  | .vredmaxn m d a b => Sys2Proof.Machine.execVredmaxn m d a b s
  | .vredand m d a b => Sys2Proof.Machine.execVredand m d a b s
  | .vredor m d a b => Sys2Proof.Machine.execVredor m d a b s
  | .vredxor m d a b => Sys2Proof.Machine.execVredxor m d a b s
  | .vfredsum m d a b => Sys2Proof.Machine.execVfredsum m d a b s
  | .vwredsum m d a b => Sys2Proof.Machine.execVwredsum m d a b s
  | .vcvtfi m r d a => Sys2Proof.Machine.execVcvtfi m r d a s
  | .vcvtfn m r d a => Sys2Proof.Machine.execVcvtfn m r d a s
  | .vcvtif m r d a => Sys2Proof.Machine.execVcvtif m r d a s
  | .vcvtnf m r d a => Sys2Proof.Machine.execVcvtnf m r d a s
  | .vcvtfw m r d a => Sys2Proof.Machine.execVcvtfw m r d a s
  | .vcvtfs m r d a => Sys2Proof.Machine.execVcvtfs m r d a s
  | .vbdec m r d a => Sys2Proof.Machine.execVbdec m r d a s
  | .addiShort d y => Sys2Proof.Machine.execAddiShort d y s
  | .addShort d a => Sys2Proof.Machine.execAddShort d a s
  | .subShort d a => Sys2Proof.Machine.execSubShort d a s
  | .andShort d a => Sys2Proof.Machine.execAndShort d a s
  | .orShort d a => Sys2Proof.Machine.execOrShort d a s
  | .xorShort d a => Sys2Proof.Machine.execXorShort d a s
  | .sllShort d a => Sys2Proof.Machine.execSllShort d a s
  | .srlShort d a => Sys2Proof.Machine.execSrlShort d a s
  | .sraShort d a => Sys2Proof.Machine.execSraShort d a s
  | .sltShort d a => Sys2Proof.Machine.execSltShort d a s
  | .sltnShort d a => Sys2Proof.Machine.execSltnShort d a s
  | .minShort d a => Sys2Proof.Machine.execMinShort d a s
  | .maxShort d a => Sys2Proof.Machine.execMaxShort d a s
  | .minnShort d a => Sys2Proof.Machine.execMinnShort d a s
  | .maxnShort d a => Sys2Proof.Machine.execMaxnShort d a s
  | .mulShort d a => Sys2Proof.Machine.execMulShort d a s
  | .addWShort d a => Sys2Proof.Machine.execAddWShort d a s
  | .subWShort d a => Sys2Proof.Machine.execSubWShort d a s
  | .slliShort d c => Sys2Proof.Machine.execSlliShort d c s
  | .srliShort d c => Sys2Proof.Machine.execSrliShort d c s
  | .sraiShort d c => Sys2Proof.Machine.execSraiShort d c s
  | .andiShort d y => Sys2Proof.Machine.execAndiShort d y s
  | .oriShort d y => Sys2Proof.Machine.execOriShort d y s
  | .xoriShort d y => Sys2Proof.Machine.execXoriShort d y s
  | .sltiShort d y => Sys2Proof.Machine.execSltiShort d y s
  | .sltniShort d y => Sys2Proof.Machine.execSltniShort d y s
  | .paddiShort d y => Sys2Proof.Machine.execPaddiShort d y s
  | .beqShort d o => Sys2Proof.Machine.execBeqShort d o s
  | .bneShort d o => Sys2Proof.Machine.execBneShort d o s
  | .bltShort d o => Sys2Proof.Machine.execBltShort d o s
  | .bgeShort d o => Sys2Proof.Machine.execBgeShort d o s
  | .jalShort o => Sys2Proof.Machine.execJalShort o s
  | .uliEntry => Sys2Proof.Machine.execUliEntry s
  | .trapMessageReplyResume => Sys2Proof.Machine.execTrapMessageReplyResume s
  | .trapMessageReplyPass => Sys2Proof.Machine.execTrapMessageReplyPass s
  | .mzero => Sys2Proof.Machine.execMzero s
  | .mma => Sys2Proof.Machine.execMma s
  | .mmab => Sys2Proof.Machine.execMmab s
  | .mmaStep => Sys2Proof.Machine.execMmaStep s
  | .mrload => Sys2Proof.Machine.execMrload s
  | .mqst => Sys2Proof.Machine.execMqst s
  | .mcvt => Sys2Proof.Machine.execMcvt s
  | .mstw => Sys2Proof.Machine.execMstw s
  | .mldw => Sys2Proof.Machine.execMldw s
  | .mspec => Sys2Proof.Machine.execMspec s
  | .mcommit => Sys2Proof.Machine.execMcommit s
  | .mdiscard => Sys2Proof.Machine.execMdiscard s
  | .mfence => Sys2Proof.Machine.execMfence s
  | .msignal => Sys2Proof.Machine.execMsignal s
  | .matrixCommandRetire => Sys2Proof.Machine.execMatrixCommandRetire s
  | .engineUnit => Sys2Proof.Machine.execEngineUnit s
  | .engineCompletion => Sys2Proof.Machine.execEngineCompletion s
  | .streamContextArrive => Sys2Proof.Machine.execStreamContextArrive s
  | .streamElementPass => Sys2Proof.Machine.execStreamElementPass s
  | .progressMark => Sys2Proof.Machine.execProgressMark s
  | .streamRecallArrive => Sys2Proof.Machine.execStreamRecallArrive s
  | .streamContextReturn => Sys2Proof.Machine.execStreamContextReturn s
  | .streamSink => Sys2Proof.Machine.execStreamSink s
  | .homeMiss => Sys2Proof.Machine.execHomeMiss s
  | .homeQuery => Sys2Proof.Machine.execHomeQuery s
  | .memoryResponse => Sys2Proof.Machine.execMemoryResponse s
  | .plbRefill => Sys2Proof.Machine.execPlbRefill s
  | .writeBackArrival => Sys2Proof.Machine.execWriteBackArrival s
  | .wake => Sys2Proof.Machine.execWake s
  | .watchRewalk => Sys2Proof.Machine.execWatchRewalk s
  | .faultMessage => Sys2Proof.Machine.execFaultMessage s
  | .freplyRetry => Sys2Proof.Machine.execFreplyRetry s
  | .freplyError => Sys2Proof.Machine.execFreplyError s
  | .storageWaitNotice => Sys2Proof.Machine.execStorageWaitNotice s
  | .messageArrival => Sys2Proof.Machine.execMessageArrival s
  | .messageRetry => Sys2Proof.Machine.execMessageRetry s
  | .barrierCfgWrite => Sys2Proof.Machine.execBarrierCfgWrite s
  | .arriveLoad => Sys2Proof.Machine.execArriveLoad s
  | .arriveStore => Sys2Proof.Machine.execArriveStore s
  | .waitLoad => Sys2Proof.Machine.execWaitLoad s
  | .barrierEventMessage => Sys2Proof.Machine.execBarrierEventMessage s
  | .barrierReleaseMessage => Sys2Proof.Machine.execBarrierReleaseMessage s
  | .lockLoad => Sys2Proof.Machine.execLockLoad s
  | .tryLoad => Sys2Proof.Machine.execTryLoad s
  | .lockStore => Sys2Proof.Machine.execLockStore s
  | .evtStore => Sys2Proof.Machine.execEvtStore s
  | .evtLoad => Sys2Proof.Machine.execEvtLoad s
  | .estatStore => Sys2Proof.Machine.execEstatStore s
  | .waittTimeout => Sys2Proof.Machine.execWaittTimeout s
  | .powerGate => Sys2Proof.Machine.execPowerGate s
  | .residencyReport => Sys2Proof.Machine.execResidencyReport s
  | .jobDeadline => Sys2Proof.Machine.execJobDeadline s
  | .recordHeadCheck => Sys2Proof.Machine.execRecordHeadCheck s
  | .headAgeing => Sys2Proof.Machine.execHeadAgeing s
  | .launchDispatch => Sys2Proof.Machine.execLaunchDispatch s
  | .partitionClaim => Sys2Proof.Machine.execPartitionClaim s
  | .dispenserTnext => Sys2Proof.Machine.execDispenserTnext s
  | .dispenserCommit => Sys2Proof.Machine.execDispenserCommit s
  | .dispenserTdone => Sys2Proof.Machine.execDispenserTdone s
  | .dispenserSchrd => Sys2Proof.Machine.execDispenserSchrd s
  | .taskEnd => Sys2Proof.Machine.execTaskEnd s
  | .switchDeadline => Sys2Proof.Machine.execSwitchDeadline s
  | .linkFlitError => Sys2Proof.Machine.execLinkFlitError s
  | .linkRetrainEnd => Sys2Proof.Machine.execLinkRetrainEnd s
  | .linkstatRead => Sys2Proof.Machine.execLinkstatRead s
  | .thermalTrip => Sys2Proof.Machine.execThermalTrip s
  | .pwrctlVf => Sys2Proof.Machine.execPwrctlVf s
  | .pwrctlEn => Sys2Proof.Machine.execPwrctlEn s
  | .pwrctlTripClear => Sys2Proof.Machine.execPwrctlTripClear s
  | .vfClockHoldEnd => Sys2Proof.Machine.execVfClockHoldEnd s
  | .wrQuiesce => Sys2Proof.Machine.execWrQuiesce s
  | .wrWriteBack => Sys2Proof.Machine.execWrWriteBack s
  | .wrReset => Sys2Proof.Machine.execWrReset s
  | .wrRetrain => Sys2Proof.Machine.execWrRetrain s
  | .wrDiscover => Sys2Proof.Machine.execWrDiscover s
  | .wrAdmit => Sys2Proof.Machine.execWrAdmit s
  | .wrStepDone => Sys2Proof.Machine.execWrStepDone s
  | .elogbaseWrite => Sys2Proof.Machine.execElogbaseWrite s
  | .nqstatRead => Sys2Proof.Machine.execNqstatRead s
  | .nqstatWrite => Sys2Proof.Machine.execNqstatWrite s
  | .mgmtRestartCore => Sys2Proof.Machine.execMgmtRestartCore s
  | .mgmtWarmReset => Sys2Proof.Machine.execMgmtWarmReset s
  | .mgmtPower => Sys2Proof.Machine.execMgmtPower s
  | .mgmtGating => Sys2Proof.Machine.execMgmtGating s
  | .mgmtRetireSlice => Sys2Proof.Machine.execMgmtRetireSlice s
  | .mgmtRetrainLink => Sys2Proof.Machine.execMgmtRetrainLink s
  | .mgmtSwitch => Sys2Proof.Machine.execMgmtSwitch s
  | .mgmtResume => Sys2Proof.Machine.execMgmtResume s
  | .mgmtHaltPartition => Sys2Proof.Machine.execMgmtHaltPartition s
  | .mgmtReleaseHalt => Sys2Proof.Machine.execMgmtReleaseHalt s
  | .mgmtAttest => Sys2Proof.Machine.execMgmtAttest s
  | .mgmtDrainLog => Sys2Proof.Machine.execMgmtDrainLog s
  | .coldBoot => Sys2Proof.Machine.execColdBoot s
  | .puoriImage => Sys2Proof.Machine.execPuoriImage s
  | .ptpMessage => Sys2Proof.Machine.execPtpMessage s
  | .ssdEnable => Sys2Proof.Machine.execSsdEnable s
  | .ssdDisable => Sys2Proof.Machine.execSsdDisable s
  | .nvmeCompletion => Sys2Proof.Machine.execNvmeCompletion s
  | .sqeFaultMessage => Sys2Proof.Machine.execSqeFaultMessage s
  | .ffsbaseWrite => Sys2Proof.Machine.execFfsbaseWrite s
  | .ffsPush => Sys2Proof.Machine.execFfsPush s
  | .ffsstatRead => Sys2Proof.Machine.execFfsstatRead s
  | .ffsstatWrite => Sys2Proof.Machine.execFfsstatWrite s
  | .srqbaseWrite => Sys2Proof.Machine.execSrqbaseWrite s
  | .srqTailWrite => Sys2Proof.Machine.execSrqTailWrite s
  | .srqFlush => Sys2Proof.Machine.execSrqFlush s
  | .srqWrite => Sys2Proof.Machine.execSrqWrite s
  | .srqRead => Sys2Proof.Machine.execSrqRead s
  | .ssdCommandTimeout => Sys2Proof.Machine.execSsdCommandTimeout s
  | .pcieLinkDown => Sys2Proof.Machine.execPcieLinkDown s
  | .fabricEnqueue => Sys2Proof.Machine.execFabricEnqueue s
  | .fabricDecrement => Sys2Proof.Machine.execFabricDecrement s
  | .fabricWatch => Sys2Proof.Machine.execFabricWatch s
  | .fabricBarrierEvent => Sys2Proof.Machine.execFabricBarrierEvent s
  | .fabricBarrierRelease => Sys2Proof.Machine.execFabricBarrierRelease s
  | .fabricReleaseRequest => Sys2Proof.Machine.execFabricReleaseRequest s
  | .releaseWriteDone => Sys2Proof.Machine.execReleaseWriteDone s
  | .fabricGrant => Sys2Proof.Machine.execFabricGrant s
  | .migrationFault => Sys2Proof.Machine.execMigrationFault s
  | .migrationFillDone => Sys2Proof.Machine.execMigrationFillDone s
  | .migrationGrantTimeout => Sys2Proof.Machine.execMigrationGrantTimeout s
  | .fabricDecrementFailed => Sys2Proof.Machine.execFabricDecrementFailed s
  | .remoteReadResponse => Sys2Proof.Machine.execRemoteReadResponse s
  | .rmaRead => Sys2Proof.Machine.execRmaRead s
  | .rmaWrite => Sys2Proof.Machine.execRmaWrite s
  | .uetAtomic => Sys2Proof.Machine.execUetAtomic s
  | .connectionFail => Sys2Proof.Machine.execConnectionFail s
  | .ringConfigWrite => Sys2Proof.Machine.execRingConfigWrite s
  | .msgRingConfigWrite => Sys2Proof.Machine.execMsgRingConfigWrite s
  | .registerWrite => Sys2Proof.Machine.execRegisterWrite s
  | .resumeTemperature => Sys2Proof.Machine.execResumeTemperature s
  | .portStateChange => Sys2Proof.Machine.execPortStateChange s
  | .rmaWriteAcknowledgement => Sys2Proof.Machine.execRmaWriteAcknowledgement s
  | .cstsRdyChange => Sys2Proof.Machine.execCstsRdyChange s
  | .capToExpiry => Sys2Proof.Machine.execCapToExpiry s

end Sys2Proof.Machine
end

