-- ==== Sys2Proof/Machine/Flaws.lean ====
section
/-!
DEFINITION. Soft errors (R6, R7, R9, R249, R274, R374, R380): what the unit in which one strikes does. They are moves of the agenda,
since nothing that the package does brings them about; the opcode table has no row for them.
-/

namespace Sys2Proof.Machine

open Sys2Proof

/-- The key under which the errors of a unit are counted: its kind in R391, its die, its number, corrected or not (R9). (DESIGN CHOICE, log 88) -/
def errorKey (unit die num : Nat) (corrected : Bool) : Nat := 2 * ((unit * 4 + die) * 4096 + num) + (if corrected then 1 else 0)

/-- An error counted, and reported when its count reaches the unit's threshold (R7, R315, R380). (DESIGN CHOICE, log 88) -/
def State.countError (s : State) (unit die num : Nat) (corrected : Bool) : State :=
  let k := errorKey unit die num corrected
  let c := tabGet 0 s.errors k + 1
  let s1 := { s with errors := tabSet 0 s.errors k c }
  if c = Config.errorThreshold unit corrected then
    s1.logError { cls := 0x01, die := die, core := if unit ≤ 1 then num else 0xFFF, unit := unit, addr := 0, detail := BitVec.ofNat 64 c }
  else s1

/-- The channel of an HBM4E address within its die (R380). -/
def hbmChannel (pa : Nat) : Nat := bitsOf pa 36 1 * 32 + (bitsOf pa 8 5 ^^^ bitsOf pa 13 5)

/-- The word of an L1 that an error strikes (R249): a clean one is dropped and read again from its home, a dirty one is poisoned. -/
def State.flawL1 (s : State) (n w : Nat) : State :=
  match tabFind (s.coreAt n).l1 w with
  | none => s
  | some x =>
    if x.dirty then (s.onCore n (fun c => c.putWord w { x with poison := true })).logCore n 0x02 (4 * w) 0
    else ((s.onCore n (fun c => { c with l1 := tabDel c.l1 w })).logCore n 0x02 (4 * w) 0).countError 0 (dieOfCore n) n false

/-- The word of an instruction cache that an error strikes is invalidated, and read again from its home (R249). -/
def State.flawFetch (s : State) (n line w : Nat) : State :=
  match tabFind (s.coreAt n).icache line with
  | none => s
  | some l =>
    if w < 16 && l.valid.getLsbD w then
      ((s.onCore n (fun c => { c with icache := tabPut c.icache line { l with valid := setBit l.valid w false } })).logCore n 0x02
        (line * 64 + 4 * w) 0).countError 0 (dieOfCore n) n false
    else s

/-- The inbox entry that an error strikes keeps its source code, with doubleword 1 all ones; the loss is logged (R249). -/
def State.flawInbox (s : State) (n k : Nat) : State :=
  match (s.coreAt n).inbox[k]? with
  | none => s
  | some _ => (s.onCore n (fun c => { c with inbox := c.inbox.modify k (fun e => { e with dw1 := BitVec.allOnes 64 }) })).logCore n 0x02 0 0

/-- An error in a context's state halts its core as `halt` does (R249). -/
def State.flawContext (s : State) (n i : Nat) : State :=
  if (s.coreAt n).released && (s.coreAt n).halted.isNone && decide (i < 11) && (s.ctxAt n i).life == .live
  then s.haltCore n i (s.ctxAt n i).pc.toNat 0 else s

/-- The word of a slice's line that an error strikes is poisoned (R7, R300). (DEDUCED, log 89) -/
def State.flawSlice (s : State) (slice line w : Nat) : State :=
  match s.sliceLine slice line with
  | none => s
  | some l =>
    if w < 16 then
      ((s.setSliceLine slice line { l with poison := setBit l.poison w true }).logSlice slice 0x02 (line * 64 + 4 * w) 0).countError 1
        (dieOfCore slice) slice false
    else s

/-- The word of HBM4E that an error strikes is poisoned (R380). -/
def State.flawMem (s : State) (pa : Nat) : State :=
  if paHbm pa then
    (({ s with poison := setMember s.poison (pa / 4) true }).logHearth (bitsOf pa 37 2) 0x02 2 (pa / 4 * 4) 0).countError 2 (bitsOf pa 37 2)
      (hbmChannel pa) false
  else s

/-- An error that an event unit logs, with the word of its window. -/
def State.logUnit (s : State) (cl off : Nat) : State :=
  s.logError { cls := 0x02, die := dieOfCluster cl, core := 16 * cl, unit := 0, addr := euAddr off, detail := 0 }

/-- Waiters of an event unit's object released with STATUS broken (R274). -/
def State.breakWaiters (s : State) (cl : Nat) (ws : List EuWaiter) : State :=
  ws.foldl (fun a w => a.euAnswer (16 * cl + w.pos) w.ctx (euStatus 1 0) none) s

/-- A mutex breaks (R274): its waiting loads return broken. (DEDUCED, log 89) -/
def State.flawMutex (s : State) (cl m : Nat) : State :=
  ((s.onMutex cl m (fun x => { x with broken := true, queue := [] })).logUnit cl (0x1000 + 16 * m)).breakWaiters cl
    ((s.clusterAt cl).mutex m).queue

/-- An event breaks (R274): its waiting loads return broken. (DEDUCED, log 89) -/
def State.flawEvent (s : State) (cl e : Nat) : State :=
  ((s.onEvent cl e (fun x => { x with broken := true, waiters := [] })).logUnit cl (0x2000 + 16 * e)).breakWaiters cl
    ((s.clusterAt cl).event e).waiters

/-- A message that is lost goes back as undeliverable (R247, R374), with the doubleword that is known of it. (DEDUCED, log 89) -/
def State.loseMessage (s : State) (m : Msg) (dw1 : Word) : State :=
  (s.settled m).postInbox (s.senderOf m) m.ctx 0x1101 (inboxDw0 0x11 1 (m.ring * 2 ^ 48 + m.dest)) dw1

/-- The address of the access for which a context waits, as a trap names it: the event that acts for it knows the access itself. -/
def Why.place (w : Why) (e : Ev) : Option Nat :=
  match w with
  | .plb va => some va
  | .query _ | .mem _ _ | .probe _ => some e.aux
  | .register pa => some (0xFE * 2 ^ 48 + pa)
  | .dispenser => some 0
  | .window off _ => some (euAddr off)
  | _ => none

/-- The packet of a context's access is lost: the access raises the data-poison trap (R374). (DEDUCED, log 89) -/
def State.loseAccess (s : State) (e : Ev) : State :=
  match (s.ctxAt e.core e.ctx).wait with
  | some w =>
    match w.why.place e with
    | some a => s.endWaiting e.core e.ctx (Trap.poison a)
    | none => s
  | none => s

/-- A router's log of an uncorrectable error in a packet (R374). -/
def State.logRouter (s : State) (d : Nat) : State := s.logHearth d 0x02 4 0 0

/-- The agenda without its move `k`. -/
def State.dropMove (s : State) (k : Nat) : State := { s with agenda := s.agenda.eraseIdx k }

/-- Words of an L1 poisoned. -/
def Core.poisonWords (c : Core) (ws : List Nat) : Core :=
  ws.foldl (fun c w =>
    match tabFind c.l1 w with
    | some x => c.putWord w { x with poison := true }
    | none => c) c

/-- Is a row a packet with a context's access or its answer? -/
def accessRow (i : Instr) : Bool :=
  i == .homeMiss || i == .memoryResponse || i == .homeQuery || i == .plbRefill || i == .arriveLoad || i == .waitLoad || i == .lockLoad
  || i == .tryLoad || i == .evtLoad || i == .arriveStore || i == .lockStore || i == .evtStore || i == .estatStore || i == .barrierCfgWrite
  || i == .ringConfigWrite || i == .dispenserTnext || i == .dispenserCommit || i == .dispenserSchrd

/-- Is a row a packet of the hop channel (R364)? -/
def hopRow (i : Instr) : Bool :=
  i == .streamContextArrive || i == .streamRecallArrive || i == .streamContextReturn || i == .progressMark

/-- A packet of a stream is lost: its slot sinks with the poison error, as for an error reply (R195, R374). (DEDUCED, log 89) -/
def State.loseHop (s : State) (e : Ev) : State :=
  let st := s.streamAt e.core e.unit
  let a := st.elemAddr st.pos.prog st.idxv
  if st.state = .floated then s.sinkError e.core e.unit 6 (BitVec.ofNat 64 a) (some (.poison a)) else s

/-- The fault of a page is lost on its way: the requests parked at its walker end as lost accesses (R310, R374). (DEDUCED, log 89) -/
def State.loseFault (s : State) (slice page : Nat) : State :=
  (s.onCore slice (fun c => { c with pending := tabDel c.pending page })).failPage slice page .poison

/-- The fault of a page is lost at its root: no reply will come for the walkers whose messages it stood for. -/
def State.loseFaults (s : State) (e : Ev) : State :=
  (s.pendingSlices (dieOfCore e.core) e.addr).foldl (fun a n => a.loseFault n e.addr)
    (s.onDie e.die (fun x => { x with combine := x.combine.filter (fun c => c.page != e.addr) }))

/-- The packets that no context waits for, lost: the unit that sent one reports it as the manual has it for an access that gets an error reply,
and a write-back leaves its words poisoned with the core. (DEDUCED, log 89) -/
def State.losePacket (s : State) (i : Instr) (e : Ev) : State :=
  if hopRow i then s.loseHop e
  else if i == .faultMessage || i == .wake then s.loseFault e.core e.addr
  else if i == .migrationFault || i == .sqeFaultMessage then s.loseFaults e
  else if i == .partitionClaim then (s.onDie e.core (fun x => { x with claims := x.claims.filter (fun y => y != e.unit) })).kickDispatch e.core
  else if i == .dispenserTdone then s.post .mgmtHaltPartition { Ev.empty with unit := e.unit, aux := 4 }
  else s.onCore e.core (fun c => c.poisonWords ((c.dirtyWords e.addr).map Prod.fst))

/-- Is a row one of those packets? -/
def otherPacket (i : Instr) (e : Ev) : Bool :=
  hopRow i || i == .faultMessage || i == .wake || i == .migrationFault || i == .sqeFaultMessage || i == .partitionClaim
    || (i == .dispenserTdone && !e.flag) || i == .writeBackArrival

/-- An uncorrectable error in a header (R374): the packet is discarded, and its loss reported as its chapter gives: a context's access
traps, a message is undeliverable, a barrier breaks. (DEDUCED, log 89) -/
def State.flawHeader (s : State) (k : Nat) : State :=
  match s.agenda[k]? with
  | some (.event i e) =>
    if accessRow i then ((s.dropMove k).logRouter (dieOfCore e.core)).loseAccess e
    else if i == .messageArrival then
      ((s.dropMove k).logRouter (dieOfCore e.core)).loseMessage e.toMsg (e.data.getD 0 0)
    else if i == .barrierEventMessage || i == .barrierReleaseMessage then
      ((s.dropMove k).logRouter (dieOfCluster e.addr)).breakBarrier e.addr e.unit 0x05 none
    else if otherPacket i e then ((s.dropMove k).logRouter e.die).losePacket i e
    else s
  | _ => s

/-- A memory response whose data are marked as poison (R374): the words that it fills, or the line of a fetch. -/
def State.poisonedResponse (s : State) (e : Ev) : State :=
  match execMemoryResponse { s with ev := e } with
  | .next t =>
    if e.unit = 2 then
      if (s.ctxAt e.core e.ctx).waitsMem e.addr && !(t.ctxAt e.core e.ctx).waitsMem e.addr then
        t.onCore e.core (fun c =>
          match tabFind c.icache (e.addr / 64) with
          | some l => { c with icache := tabPut c.icache (e.addr / 64) { l with poison := BitVec.allOnes 16 } }
          | none => c)
      else t
    else
      let o := s.l1Owner e.core (e.addr / 64)
      let fresh := (e.data.map BitVec.toNat).filter (fun w => (tabFind (s.coreAt o).l1 w).isNone)
      (t.onCore o (fun c => c.poisonWords fresh)).onCtx e.core e.ctx (fun x => { x with got := x.got.map (fun g =>
        if fresh.contains g.1 then (g.1, { g.2 with poison := true }) else g) })
  | _ => s

/-- A write-back whose data are marked as poison (R374): the home takes the words poisoned, the core's own copies are as before. -/
def State.poisonedWriteBack (s : State) (e : Ev) : State :=
  let ws := (s.coreAt e.core).dirtyWords e.addr
  match execWriteBackArrival { s.onCore e.core (fun c => c.poisonWords (ws.map Prod.fst)) with ev := e } with
  | .next t =>
    t.onCore e.core (fun c => ws.foldl (fun c w =>
      match tabFind c.l1 w.1 with
      | some y => c.putWord w.1 { y with poison := w.2.poison }
      | none => c) c)
  | _ => s

/-- A store to EVT whose payload is marked as poison (R262, R274, R374): the event is broken with it. (DEDUCED, log 89) -/
def State.poisonedEvent (s : State) (e : Ev) : State :=
  match execEvtStore { s with ev := e } with
  | .next t => t.flawEvent (clusterOfCore e.core) e.unit
  | _ => s

/-- An uncorrectable error in the data of a packet (R374, R249): a response or a write-back delivers its words marked as poison; a
message is lost, and the entry that tells of it has doubleword 1 all ones. (DEDUCED, log 89) -/
def State.flawData (s : State) (k : Nat) : State :=
  match s.agenda[k]? with
  | some (.event i e) =>
    if i == .memoryResponse then ((s.dropMove k).logRouter (dieOfCore e.core)).poisonedResponse e
    else if i == .writeBackArrival then
      ((s.dropMove k).logRouter (dieOfCore e.core)).poisonedWriteBack e
    else if i == .streamContextArrive || i == .streamContextReturn then
      (s.logRouter (dieOfCore e.core)).setStream e.core e.unit
        { s.streamAt e.core e.unit with live := { (s.streamAt e.core e.unit).live with pois := true } }
    else if i == .evtStore then ((s.dropMove k).logRouter (dieOfCore e.core)).poisonedEvent e
    else if i == .barrierEventMessage || i == .barrierReleaseMessage then
      ((s.dropMove k).logRouter (dieOfCluster e.addr)).breakBarrier e.addr e.unit 0x05 none
    else if i == .messageArrival then
      ((s.dropMove k).logRouter (dieOfCore e.core)).loseMessage e.toMsg (BitVec.allOnes 64)
    else s
  | _ => s

/-- A soft error strikes (R249, R274, R374, R380). (DESIGN CHOICE, log 88) -/
def State.flawed (s : State) (f : Flaw) : State :=
  match f with
  | .corrected unit die num => s.countError unit (die % 4) (num % 4096) true
  | .l1Word n w => s.flawL1 n w
  | .fetchWord n line w => s.flawFetch n line w
  | .spadWord n w =>
    if w < 131072 then (s.onCore n (fun c => { c with spadPoison := setMember c.spadPoison w true })).logCore n 0x02 (0xFF * 2 ^ 48 + 4 * w) 0
    else s
  | .plbEntry n k => (s.onCore n (fun c => { c with plb := c.plb.eraseIdx k })).logCore n 0x02 0 0
  | .formatEntry n key => (s.onCore n (fun c => { c with fmtCache := tabDel c.fmtCache key })).logCore n 0x02 0 0
  | .inboxEntry n k => s.flawInbox n k
  | .context n i => s.flawContext n i
  | .sliceWord slice line w => s.flawSlice slice line w
  | .memWord pa => s.flawMem pa
  | .barrier cl b => s.breakBarrier cl b 0x02 none
  | .mutex cl m => s.flawMutex cl m
  | .event cl e => s.flawEvent cl e
  | .header k => s.flawHeader k
  | .data k => s.flawData k

end Sys2Proof.Machine
end

