-- ==== Sys2Proof/Machine/Packets.lean ====
section
/-!
DEFINITION. The order of packets on the mesh (R364, R369, R377) and of progress marks (R186): which moves of the agenda are packets, and which
must not overtake which. What else stands on the agenda has no order that the manual fixes.
-/

namespace Sys2Proof.Machine

open Sys2Proof

/-- The port of the event unit of a cluster in the hearth (R363, R373). -/
def unitPort (cl : Nat) : Nat := 0x20000 + cl

/-- The port of the dispatch unit and the dispenser of a die (R363). -/
def dispatchPort (d : Nat) : Nat := 0x30000 + d

/-- The home to which a core sends its request for an address: by its home cache, or while that does not know the page to the walk slice
(R306). -/
def State.homePort (s : State) (n va : Nat) : Nat :=
  let d := dieOfCore n
  if topByte va = 0xFE then s.physHome (va % 2 ^ 48)
  else
    match s.hint n va with
    | some l =>
      match s.homeOf d l va with
      | (.slice h, _) => h
      | _ => s.walkSlice d va
    | none => s.walkSlice d va

/-- The channel, the source port and the destination port of a move that is a packet on the mesh (R364). A request that has waited at its home and
is taken up again counts as sent then. (DESIGN CHOICE, log 90) -/
def State.packet (s : State) (m : Move) : Option (Nat × Nat × Nat) :=
  match m with
  | .event i e =>
    if i == .homeMiss then some (0, ownerPort e.core, s.homePort e.core e.addr)
    else if i == .homeQuery then some (0, ownerPort e.core, s.walkSlice (dieOfCore e.core) e.addr)
    else if i == .dispenserTnext || i == .dispenserCommit || i == .dispenserSchrd || (i == .dispenserTdone && !e.flag) then
      some (0, ownerPort e.core, dispatchPort (s.leadDie e.unit))
    else if i == .arriveLoad || i == .arriveStore || i == .waitLoad || i == .lockLoad || i == .lockStore || i == .tryLoad || i == .evtLoad
        || i == .evtStore || i == .estatStore || i == .barrierCfgWrite then
      some (0, ownerPort e.core, unitPort (clusterOfCore e.core))
    else if i == .memoryResponse then some (1, s.homePort e.core e.addr, ownerPort e.core)
    else if i == .writeBackArrival then some (2, ownerPort e.core, s.homePort e.core (64 * e.addr))
    else if i == .messageArrival then some (3, ownerPort e.val.toNat, ownerPort e.core)
    else if i == .barrierEventMessage || i == .barrierReleaseMessage then some (4, unitPort e.core, unitPort e.addr)
    else if i == .partitionClaim then some (4, dispatchPort e.core, dispatchPort e.die)
    else if i == .streamContextArrive || i == .streamRecallArrive then some (5, e.aux, e.addr)
    else if i == .progressMark || i == .streamContextReturn then some (5, e.aux, ownerPort e.core)
    else none
  | _ => none

/-- Is a move a progress mark of the slot of another one (R186)? -/
def Move.sameMarks (a b : Move) : Bool :=
  match a, b with
  | .event i e, .event j f => i == .progressMark && j == .progressMark && e.core == f.core && e.unit == f.unit
  | _, _ => false

/-- The connection of a move that is a message or an RMA write of a remote party, whose endpoint `die` names: number `ctx` of those that the
endpoint has for ordered delivery, 0 for one without order (R411, R423). (DESIGN CHOICE, log 113) -/
def Move.conn : Move → Option (Nat × Nat)
  | .event i e =>
    if e.ctx ≠ 0 && (i == .fabricEnqueue || i == .fabricDecrement || i == .fabricWatch || i == .fabricReleaseRequest || i == .fabricGrant
        || i == .fabricDecrementFailed || i == .rmaWrite || i == .mgmtRestartCore || i == .mgmtWarmReset || i == .mgmtPower
        || i == .mgmtGating || i == .mgmtRetireSlice || i == .mgmtRetrainLink || i == .mgmtSwitch || i == .mgmtResume
        || i == .mgmtHaltPartition || i == .mgmtReleaseHalt || i == .mgmtAttest || i == .mgmtDrainLog) then some (e.die, e.ctx)
    else none
  | _ => none

/-- Is a move a message that has waited for a page and comes again? -/
def Move.again : Move → Bool
  | .event _ e => e.core == 1
  | _ => false

/-- Does an earlier message of a connection wait for a page, or is it due again? -/
def State.connWaits (s : State) (c : Nat × Nat) : Bool :=
  let mine (m : Move) : Bool := m.conn == some c && m.again
  s.agenda.any mine || s.cores.any (fun nc =>
    nc.2.parked.any (fun r => r.resumes mine) || nc.2.router.any (fun r => r.resumes mine) || nc.2.remoteWaits.any (fun r => r.2.resumes mine))

/-- Must a move wait: it is a message of a connection on which an earlier one is still to be performed (R423)? (DESIGN CHOICE, log 113) -/
def State.mustWait (s : State) (m : Move) : Bool :=
  match m.conn with
  | some c => !m.again && s.connWaits c
  | none => false

/-- A message that must wait goes behind what else is due, and those of its connection that came after it behind it. (DESIGN CHOICE, log 113) -/
def State.holdBack (s : State) (m : Move) : State :=
  let later (x : Move) : Bool := x.conn == m.conn && !x.again
  { s with agenda := s.agenda.filter (fun x => !later x) ++ s.cores.map (fun nc => Move.turn nc.1) ++ m :: s.agenda.filter later }

/-- Must a move stay behind an earlier one: packets of one source port, destination port and channel arrive in the order sent (R369), so are the
marks of a slot applied (R186), and so are the messages of one connection performed (R423)? -/
def State.ordered (s : State) (a b : Move) : Bool :=
  a.sameMarks b || ((s.packet b).isSome && s.packet a == s.packet b) || (b.conn.isSome && !b.again && a.conn == b.conn)

/-- Move `k` of the agenda comes to its front, unless it would overtake a packet that it must follow. -/
def State.pickMove (s : State) (k : Nat) : State :=
  match s.agenda[k]? with
  | some m => if (s.agenda.take k).any (fun a => s.ordered a m) then s else { s with agenda := m :: s.agenda.eraseIdx k }
  | none => s

end Sys2Proof.Machine
end

