-- ==== Sys2Proof/Machine/Step.lean ====
section
/-!
DEFINITION. One step of the package: the move at the head of the agenda, or the next issue of a core.
-/

namespace Sys2Proof.Machine

open Sys2Proof

/-- The instruction of the executing context executed; a breakpoint or an illegal encoding traps instead (R49, R61). (DEDUCED, log 15) -/
noncomputable def issueBytes (s : State) (bs : List Byte) : Out :=
  let s1 := { s with ir := irOf bs }
  if s1.ctx.bkptHere && !s1.ctx.bskip then s1.trapped Trap.breakpoint
  else
    match (decode bs).1 with
    | .ok i => exec i s1
    | .error r => s1.trapped (Trap.illegal r.detail)

/-- One issue of a core (R43): a due interrupt is taken, otherwise the ready context's next instruction executes; until its halfwords
are fetched its bits are 0 (R53).
A core with no ready context lets the ac pass. (DESIGN CHOICE, log 1) -/
noncomputable def issue (s : State) (n : Nat) : Out :=
  match if s.runs n then (s.coreAt n).next else none with
  | none => .next s
  | some i =>
    let s1 := { s.onCore n (fun c => { c with issuePtr := (i + 1) % 11, gatedAt := none, powerGated := false, reported := false })
      with focus := n, curCtx := i, ir := 0 }
    if (s.coreAt n).uliDue i then exec .uliEntry s1 else passOver n i (s.coreAt n).issuePtr (s1.instrBytes issueBytes)

/-- The core that issues when nothing else is said: the focus, or the first listed core that can issue. (DESIGN CHOICE, log 1) -/
def State.turn (s : State) : Nat :=
  if s.runs s.focus && (s.coreAt s.focus).next.isSome then s.focus
  else ((s.cores.find? (fun nc => s.runs nc.1 && (s.coreAt nc.1).next.isSome)).map (fun nc => nc.1)).getD s.focus

/-- A move of the agenda. (DESIGN CHOICE, logs 1, 2, 90) -/
noncomputable def runMove (m : Move) (s : State) : Out :=
  match m with
  | .turn n => issue s n
  | .event i e =>
    if s.clockHeld i e then .next (s.retryLater i e) else if s.mustWait m then .next (s.holdBack m) else exec i { s with ev := e }
  | .pick k => .next (s.pickMove k)
  | .evictLine n line => .next (s.evictL1Line n line)
  | .evictHome n key => .next (s.evictHomeLine n key)
  | .flaw f => .next (s.flawed f)

/-- One step: time passes, and the move at the head of the agenda acts, or the core whose turn it is issues. (DESIGN CHOICE, log 1) -/
noncomputable def step (s : State) : Out :=
  match s.agenda with
  | m :: rest => runMove m { s with agenda := rest }.tick
  | [] => issue s.tick s.tick.turn

/-- The address where `withFetchWord` puts its instruction: PA 0 through the physical window. (DESIGN CHOICE, log 7) -/
def fetchAddr : Nat := 0xFE * 2 ^ 48

/-- The state with an instruction stored where the next step fetches: the control context of the focus core runs at service level
with its PC in the physical window, nothing else is due, and its instruction-cache line holds the bytes (log 7). (DESIGN CHOICE, log 7) -/
def State.withFetchWord (s : State) (nbits w : Nat) : State :=
  let bs := tableBytes nbits w
  let line : ICLine := { data := BitVec.ofNat 512 (fromBytesLE bs), poison := 0, valid := BitVec.allOnes 16 }
  let c := s.coreAt s.focus
  let x := c.ctx 0
  let y : Ctx := { x with
    life := .live, wait := none, fwd := none, pc := BitVec.ofNat 56 fetchAddr
    stat := setField x.stat 0 2 2
    uliStat := setField x.uliStat 0 1 0
    bkptPc := setField x.bkptPc 0 1 0 }
  let s1 := s.setCore s.focus ({ c with
    released := true, halted := none, issuePtr := 0, icache := tabPut c.icache (fetchAddr / 64) line }.setCtx 0 y)
  let s2 := (s1.onCluster (clusterOfCore s.focus) (fun c => { c with halted := false })).onDie (dieOfCore s.focus) (fun d => { d with clockStopped := false, vfHeld := false })
  { s2 with agenda := [], dstate := Vector.ofFn (fun i => if i.val = dieOfCore s.focus then 0 else s2.dstate[i]), mem := memWrite s2.mem 0 bs }

end Sys2Proof.Machine
end

