-- ==== Sys2Proof/WellFormed.lean ====
section
/-!
DEFINITION. Well-formed instructions: the operand kinds that an instruction accepts (check 3 of R61, R135, R138, R142 to R147),
the fields that must be zero in one of its kinds, and the short form that has no encoding (R59).
-/

namespace Sys2Proof

/-- An instruction is well formed when the decoder can read it from some word; an event row has no word and is well formed. -/
def Instr.wf : Instr → Bool
  | .addiShort d _ => d != 0
  | .vmul _ k _ _ _ | .vmulh _ k _ _ _ | .vmulhn _ k _ _ _ | .vmacc _ k _ _ _ => k != .vi
  | .vwadd _ k _ _ _ | .vwmul _ k _ _ _ | .vwmacc _ k _ _ _ => k != .vi
  | .vfadd _ k _ _ _ | .vfsub _ k _ _ _ | .vfmul _ k _ _ _ | .vfdiv _ k _ _ _ => k != .vi
  | .vfmin _ k _ _ _ | .vfmax _ k _ _ _ | .vfmacc _ k _ _ _ | .vfnmacc _ k _ _ _ => k != .vi
  | .vfsgnj _ k _ _ _ | .vfsgnjn _ k _ _ _ => k != .vi
  | .vmfeq _ k _ _ _ | .vmflt _ k _ _ _ | .vmfle _ k _ _ _ => k != .vi
  | .vmv _ k _ a b => if k == .vv then b == 0 else a == 0
  | .vslideup _ k _ _ _ | .vslidedn _ k _ _ _ | .vtrn _ k _ _ _ => k != .vv
  | .vxtract k _ _ _ | .vinsert k _ _ _ => k != .vv
  | _ => true

end Sys2Proof
end

