-- ==== Sys2Proof/Safety.lean ====
section
/-!
DEFINITION. What a safe run is.
A step is safe when it answers a next state: the manual lets no instruction and no agent stop the package.
-/

namespace Sys2Proof

open Sys2Proof.Machine

/-- A step from a state answers a next state. -/
def Safe (s : State) : Prop := ∃ t, step s = .next t

/-- The first `k` steps from a state answer next states. -/
def SafeFor : Nat → State → Prop
  | 0, _ => True
  | k + 1, s => ∃ t, step s = .next t ∧ SafeFor k t

/-- What every step keeps: device memory, every scratchpad and the scratchpad of every saved task image are in
canonical form (a listed address has one place in the list and never holds what an unlisted one reads as). -/
def Inv (s : State) : Prop :=
  Memory.wf s.mem = true ∧ (∀ n, Memory.wf (s.coreAt n).spad = true) ∧
    ∀ p, ∀ v ∈ (s.partAt p).saved, Memory.wf v.image.spad = true

end Sys2Proof
end

