-- ==== Sys2Proof/Certificates/Slice0/Obligations.lean ====
section
/-!
DEFINITION. The statements for the provers.
Each is a proposition about the model that formalises rules of the manual; its docstring names them.
The words of `Spec` are the vocabulary of the statements: no meaning of the machine uses them.
A result statement is an equation: `exec` answers the next state on the right, so it says that the instruction completes,
what it writes, and that it changes nothing else.
-/

open Sys2Proof Sys2Proof.Machine

namespace Spec

/-- The state in which an integer, wrapped to 64 bits, is written to a general register and the instruction of `len` bytes is
complete (R71, R34). -/
def wrote (s : State) (len : Nat) (d : Reg) (r : Int) : State := (s.setG d (BitVec.ofInt 64 r)).finish len

/-- As `wrote`, for a `.w` form: the low 32 bits of the result are sign-extended (R71). -/
def wrote32 (s : State) (len : Nat) (d : Reg) (r : Int) : State := wrote s len d ((BitVec.ofInt 32 r).toInt)

/-- One when a comparison holds, else zero (R71). -/
def flagInt (p : Prop) [Decidable p] : Int := if p then 1 else 0

/-- Quot(p, q) of R71 with the corner of R72: −1 when the divisor is zero. -/
def quotient (p q : Int) : Int := if q = 0 then -1 else p.tdiv q

/-- xs − ys·Quot(xs, ys), the dividend when the divisor is zero (R71, R72). -/
def rest (p q : Int) : Int := if q = 0 then p else p - q * p.tdiv q

/-- The low 32 bits of a register, unsigned and signed (R71). -/
def low (x : Word) : Nat := x.toNat % 2 ^ 32
def lowS (x : Word) : Int := (BitVec.ofNat 32 x.toNat).toInt

/-- The number of one bits among the low `n` (R71). -/
def ones (n x : Nat) : Nat := ((List.range n).filter (fun i => x.testBit i)).length

/-- `k` is the number of leading zero bits of `x` in `n` bits (R71). -/
def leads (n x k : Nat) : Prop := k ≤ n ∧ x < 2 ^ (n - k) ∧ (k < n → 2 ^ (n - k - 1) ≤ x)

/-- `k` is the number of trailing zero bits of `x` in `n` bits (R71). -/
def trails (n x k : Nat) : Prop := k ≤ n ∧ 2 ^ k ∣ x ∧ (k < n → ¬ 2 ^ (k + 1) ∣ x)

end Spec

/-- R71, R72: the two-source register-register instructions at 64 bits, by the table's integers. A write to `g0` is `setG`'s. -/
def Spec.alu_results_64 : Prop :=
  ∀ (s : State) (d a b : Reg),
    let x := (s.g a).toNat
    let y := (s.g b).toNat
    let xs := (s.g a).toInt
    let ys := (s.g b).toInt
    let c := y % 64
    let gives (i : Instr) (r : Int) : Prop := exec i s = .next (Spec.wrote s 4 d r)
    gives (.add d a b) (xs + ys) ∧ gives (.sub d a b) (xs - ys)
    ∧ gives (.and d a b) ((x &&& y : Nat)) ∧ gives (.or d a b) ((x ||| y : Nat)) ∧ gives (.xor d a b) ((x ^^^ y : Nat))
    ∧ gives (.sll d a b) ((x : Int) * 2 ^ c) ∧ gives (.srl d a b) ((x : Int) / 2 ^ c) ∧ gives (.sra d a b) (xs / 2 ^ c)
    ∧ gives (.slt d a b) (Spec.flagInt (xs < ys)) ∧ gives (.sltn d a b) (Spec.flagInt (x < y))
    ∧ gives (.min d a b) (min xs ys) ∧ gives (.max d a b) (max xs ys)
    ∧ gives (.minn d a b) ((min x y : Nat)) ∧ gives (.maxn d a b) ((max x y : Nat))
    ∧ gives (.mul d a b) (xs * ys) ∧ gives (.mulh d a b) (xs * ys / 2 ^ 64) ∧ gives (.mulhn d a b) ((x * y / 2 ^ 64 : Nat))
    ∧ gives (.div d a b) (Spec.quotient xs ys) ∧ gives (.rem d a b) (Spec.rest xs ys)
    ∧ gives (.divn d a b) (if y = 0 then 2 ^ 64 - 1 else ((x / y : Nat) : Int)) ∧ gives (.remn d a b) ((if y = 0 then x else x % y : Nat))

/-- R71, R72: the `.w` forms: the operands' low 32 bits, the result wrapped to 32 bits and sign-extended. -/
def Spec.alu_results_32 : Prop :=
  ∀ (s : State) (d a b : Reg),
    let x := Spec.low (s.g a)
    let y := Spec.low (s.g b)
    let xs := Spec.lowS (s.g a)
    let ys := Spec.lowS (s.g b)
    let c := y % 32
    let gives (i : Instr) (r : Int) : Prop := exec i s = .next (Spec.wrote32 s 4 d r)
    gives (.addW d a b) (xs + ys) ∧ gives (.subW d a b) (xs - ys)
    ∧ gives (.andW d a b) ((x &&& y : Nat)) ∧ gives (.orW d a b) ((x ||| y : Nat)) ∧ gives (.xorW d a b) ((x ^^^ y : Nat))
    ∧ gives (.sllW d a b) ((x : Int) * 2 ^ c) ∧ gives (.srlW d a b) ((x : Int) / 2 ^ c) ∧ gives (.sraW d a b) (xs / 2 ^ c)
    ∧ gives (.sltW d a b) (Spec.flagInt (xs < ys)) ∧ gives (.sltnW d a b) (Spec.flagInt (x < y))
    ∧ gives (.minW d a b) (min xs ys) ∧ gives (.maxW d a b) (max xs ys)
    ∧ gives (.minnW d a b) ((min x y : Nat)) ∧ gives (.maxnW d a b) ((max x y : Nat))
    ∧ gives (.mulW d a b) (xs * ys) ∧ gives (.mulhW d a b) (xs * ys / 2 ^ 32) ∧ gives (.mulhnW d a b) ((x * y / 2 ^ 32 : Nat))
    ∧ gives (.divW d a b) (Spec.quotient xs ys) ∧ gives (.remW d a b) (Spec.rest xs ys)
    ∧ gives (.divnW d a b) (if y = 0 then 2 ^ 32 - 1 else ((x / y : Nat) : Int)) ∧ gives (.remnW d a b) ((if y = 0 then x else x % y : Nat))

/-- R71: `clz`, `ctz`, `cpop` and their `.w` forms. The counts are given by what they mean, not by a computation. -/
def Spec.bit_count_results : Prop :=
  ∀ (s : State) (d a : Reg),
    let x := (s.g a).toNat
    let y := Spec.low (s.g a)
    let gives (i : Instr) (p : Nat → Prop) : Prop := ∃ k, p k ∧ exec i s = .next (Spec.wrote s 4 d k)
    gives (.clz d a) (Spec.leads 64 x) ∧ gives (.ctz d a) (Spec.trails 64 x) ∧ gives (.cpop d a) (fun k => k = Spec.ones 64 x)
    ∧ gives (.clzW d a) (Spec.leads 32 y) ∧ gives (.ctzW d a) (Spec.trails 32 y) ∧ gives (.cpopW d a) (fun k => k = Spec.ones 32 y)

/-- Results of the register-register integer instructions: results of the 64-bit register-register instructions;
results of the 32-bit register-register instructions; results of clz, ctz and cpop. The docstrings of the parts cite
the rules. -/
def Obligations.alu_results : Prop :=
  Spec.alu_results_64 ∧ Spec.alu_results_32 ∧ Spec.bit_count_results

/-- R73: the immediate instructions; R74: `ldhi` and `pcadd`. -/
def Obligations.immediate_results : Prop :=
  (∀ (s : State) (d a : Reg) (i : BitVec 12),
    let x := (s.g a).toNat
    let xs := (s.g a).toInt
    let y := (BitVec.ofInt 64 i.toInt).toNat
    let gives (j : Instr) (r : Int) : Prop := exec j s = .next (Spec.wrote s 4 d r)
    gives (.addi d a i) (xs + i.toInt) ∧ gives (.slti d a i) (Spec.flagInt (xs < i.toInt)) ∧ gives (.sltni d a i) (Spec.flagInt (x < y))
    ∧ gives (.xori d a i) ((x ^^^ y : Nat)) ∧ gives (.ori d a i) ((x ||| y : Nat)) ∧ gives (.andi d a i) ((x &&& y : Nat)))
  ∧ (∀ (s : State) (d a : Reg) (c : BitVec 6),
    exec (.slli d a c) s = .next (Spec.wrote s 4 d ((s.g a).toNat * 2 ^ c.toNat))
    ∧ exec (.srli d a c) s = .next (Spec.wrote s 4 d ((s.g a).toNat / 2 ^ c.toNat))
    ∧ exec (.srai d a c) s = .next (Spec.wrote s 4 d ((s.g a).toInt / 2 ^ c.toNat)))
  ∧ (∀ (s : State) (d : Reg) (i : BitVec 20),
    exec (.ldhi d i) s = .next (Spec.wrote s 4 d (i.toInt * 2 ^ 12))
    ∧ exec (.pcadd d i) s = .next (Spec.wrote s 4 d ((s.ctx.pc.toNat + i.toInt * 2 ^ 12) % 2 ^ 56)))

/-- R79, R80: branches and jumps. -/
def Obligations.branch_results : Prop :=
  (∀ (s : State) (a b : Reg) (o : BitVec 12),
    let x := (s.g a).toNat
    let y := (s.g b).toNat
    let xs := (s.g a).toInt
    let ys := (s.g b).toInt
    let target := s.jump (BitVec.ofInt 56 (s.ctx.pc.toNat + 2 * o.toInt))
    let branches (i : Instr) (p : Prop) : Prop := (p → exec i s = .next target) ∧ (¬ p → exec i s = .next (s.finish 4))
    branches (.beq a b o) (x = y) ∧ branches (.bne a b o) (x ≠ y) ∧ branches (.blt a b o) (xs < ys)
    ∧ branches (.bge a b o) (ys ≤ xs) ∧ branches (.bltn a b o) (x < y) ∧ branches (.bgen a b o) (y ≤ x))
  ∧ (∀ (s : State) (d : Reg) (o : BitVec 20),
    exec (.jal d o) s = .next ((s.setG d (BitVec.ofNat 64 ((s.ctx.pc.toNat + 4) % 2 ^ 56))).jump
      (BitVec.ofInt 56 (s.ctx.pc.toNat + 2 * o.toInt))))
  ∧ (∀ (s : State) (d a : Reg) (i : BitVec 12),
    exec (.jalr d a i) s = .next ((s.setG d (BitVec.ofNat 64 ((s.ctx.pc.toNat + 4) % 2 ^ 56))).jump
      (BitVec.ofInt 56 (((s.g a).toNat + i.toInt) / 2 * 2))))

/-- R58: the 16-bit forms have the effect of their 32-bit counterparts and a length of 2. -/
def Obligations.short_forms : Prop :=
  (∀ (s : State) (d a : Reg),
    let as (short long : Instr) : Prop :=
      ∃ v : Word, exec long s = .next ((s.setG d v).finish 4) ∧ exec short s = .next ((s.setG d v).finish 2)
    as (.addShort d a) (.add d d a) ∧ as (.subShort d a) (.sub d d a) ∧ as (.andShort d a) (.and d d a) ∧ as (.orShort d a) (.or d d a)
    ∧ as (.xorShort d a) (.xor d d a) ∧ as (.sllShort d a) (.sll d d a) ∧ as (.srlShort d a) (.srl d d a) ∧ as (.sraShort d a) (.sra d d a)
    ∧ as (.sltShort d a) (.slt d d a) ∧ as (.sltnShort d a) (.sltn d d a) ∧ as (.minShort d a) (.min d d a) ∧ as (.maxShort d a) (.max d d a)
    ∧ as (.minnShort d a) (.minn d d a) ∧ as (.maxnShort d a) (.maxn d d a) ∧ as (.mulShort d a) (.mul d d a)
    ∧ as (.addWShort d a) (.addW d d a) ∧ as (.subWShort d a) (.subW d d a))
  ∧ (∀ (s : State) (d : Reg) (i : BitVec 5),
    let as (short long : Instr) : Prop :=
      ∃ v : Word, exec long s = .next ((s.setG d v).finish 4) ∧ exec short s = .next ((s.setG d v).finish 2)
    as (.addiShort d i) (.addi d d (i.signExtend 12)) ∧ as (.sltiShort d i) (.slti d d (i.signExtend 12))
    ∧ as (.sltniShort d i) (.sltni d d (i.signExtend 12)) ∧ as (.xoriShort d i) (.xori d d (i.signExtend 12))
    ∧ as (.oriShort d i) (.ori d d (i.signExtend 12)) ∧ as (.andiShort d i) (.andi d d (i.signExtend 12))
    ∧ as (.slliShort d i) (.slli d d (i.setWidth 6)) ∧ as (.srliShort d i) (.srli d d (i.setWidth 6))
    ∧ as (.sraiShort d i) (.srai d d (i.setWidth 6)))
  ∧ (∀ (s : State) (d : Reg) (o : BitVec 5),
    let target := s.jump (BitVec.ofInt 56 (s.ctx.pc.toNat + 2 * o.toInt))
    let branches (i : Instr) (p : Prop) : Prop := (p → exec i s = .next target) ∧ (¬ p → exec i s = .next (s.finish 2))
    branches (.beqShort d o) (s.g d = 0) ∧ branches (.bneShort d o) (s.g d ≠ 0)
    ∧ branches (.bltShort d o) ((s.g d).toInt < 0) ∧ branches (.bgeShort d o) (0 ≤ (s.g d).toInt))
  ∧ (∀ (s : State) (o : BitVec 10), exec (.jalShort o) s = .next (s.jump (BitVec.ofInt 56 (s.ctx.pc.toNat + 2 * o.toInt))))

namespace Spec

/-- The scalar instructions that only read registers: the register each may write, `none` for a branch (R71, R73, R74, R79, R80, R58). -/
def scalarDest : Instr → Option (Option Reg)
  | .add d _ _ | .sll d _ _ | .slt d _ _ | .sltn d _ _ | .xor d _ _ | .srl d _ _ | .or d _ _ | .and d _ _ | .sub d _ _ => some (some d)
  | .min d _ _ | .max d _ _ | .minn d _ _ | .maxn d _ _ | .sra d _ _ | .mul d _ _ | .mulh d _ _ | .mulhn d _ _ => some (some d)
  | .div d _ _ | .divn d _ _ | .rem d _ _ | .remn d _ _ | .clz d _ | .ctz d _ | .cpop d _ => some (some d)
  | .addW d _ _ | .sllW d _ _ | .sltW d _ _ | .sltnW d _ _ | .xorW d _ _ | .srlW d _ _ | .orW d _ _ | .andW d _ _ | .subW d _ _ => some (some d)
  | .minW d _ _ | .maxW d _ _ | .minnW d _ _ | .maxnW d _ _ | .sraW d _ _ | .mulW d _ _ | .mulhW d _ _ | .mulhnW d _ _ => some (some d)
  | .divW d _ _ | .divnW d _ _ | .remW d _ _ | .remnW d _ _ | .clzW d _ | .ctzW d _ | .cpopW d _ => some (some d)
  | .addi d _ _ | .slli d _ _ | .slti d _ _ | .sltni d _ _ | .xori d _ _ | .srli d _ _ | .srai d _ _ | .ori d _ _ | .andi d _ _ => some (some d)
  | .ldhi d _ | .pcadd d _ | .jal d _ | .jalr d _ _ => some (some d)
  | .addiShort d _ | .addShort d _ | .subShort d _ | .andShort d _ | .orShort d _ | .xorShort d _ | .sllShort d _ => some (some d)
  | .srlShort d _ | .sraShort d _ | .sltShort d _ | .sltnShort d _ | .minShort d _ | .maxShort d _ | .minnShort d _ => some (some d)
  | .maxnShort d _ | .mulShort d _ | .addWShort d _ | .subWShort d _ | .slliShort d _ | .srliShort d _ | .sraiShort d _ => some (some d)
  | .andiShort d _ | .oriShort d _ | .xoriShort d _ | .sltiShort d _ | .sltniShort d _ => some (some d)
  | .beq _ _ _ | .bne _ _ _ | .blt _ _ _ | .bge _ _ _ | .bltn _ _ _ | .bgen _ _ _ => some none
  | .beqShort _ _ | .bneShort _ _ | .bltShort _ _ | .bgeShort _ _ | .jalShort _ => some none
  | _ => none

/-- A byte as the core reads it, but for the words that a fill has delivered to the executing context and that the next
completing instruction of the context uses up (R167, R332). -/
def seen (s : State) (a : Nat) : Byte := (s.mapCtx (fun x => { x with got := [] })).byteAt a

/-- What an instruction leaves unchanged that writes at most one general register of its context: every other general register
and every other register of the context but the PC; of `CTX.STAT` only BSKIP may clear, where the breakpoint names the
instruction (R49); what fills delivered for it is used up; everything outside the context, and every byte as the core reads it. -/
def regFrame (dest : Option Reg) (s t : State) : Prop :=
  (∀ r, some r ≠ dest → t.g r = s.g r)
  ∧ t.ctx = { s.ctx with g := t.ctx.g, pc := t.ctx.pc, stat := t.ctx.stat, got := [], lost := [] }
  ∧ (∀ i, i ≠ 11 → t.ctx.stat.getLsbD i = s.ctx.stat.getLsbD i)
  ∧ t.ctx.stat.getLsbD 11 = (s.ctx.stat.getLsbD 11 && !s.ctx.bkptHere)
  ∧ t = s.setCtxAt s.focus s.curCtx t.ctx
  ∧ (∀ a, seen t a = seen s a) ∧ (∀ a, memByte t.mem a = memByte s.mem a)

end Spec

/-- R71, R73, R74, R79, R80, R58: the frame of the scalar register instructions. BSKIP clears where R49 clears it. -/
def Obligations.scalar_frame : Prop :=
  ∀ (i : Instr) (s t : State) (dest : Option Reg), Spec.scalarDest i = some dest → exec i s = .next t → Spec.regFrame dest s t

/-- R81, R83, R58: the pointer instructions but `pchk`, and the operand-extension transfers. -/
def Spec.pointer_results : Prop :=
  (∀ (s : State) (d a b : Reg) (i : BitVec 12) (j : BitVec 5),
    let moves (k : Instr) (len : Nat) (base : Reg) (off : Int) : Prop :=
      let p := (s.g base).toNat
      let q : Int := p % 2 ^ 56 + off
      (0 ≤ q ∧ q < 2 ^ 56 → exec k s = .next (Spec.wrote s len d (p / 2 ^ 56 * 2 ^ 56 + q)))
      ∧ (q < 0 ∨ 2 ^ 56 ≤ q → exec k s = .next (s.raise { cause := 3, detail := 0, addr := s.g base }))
    moves (.padd d a b) 4 a (s.g b).toInt ∧ moves (.paddi d a i) 4 a i.toInt ∧ moves (.paddiShort d j) 2 d j.toInt)
  ∧ (∀ (s : State) (d a b : Reg) (t : BitVec 8),
    exec (.ptag d a t) s = .next (Spec.wrote s 4 d (t.toNat * 2 ^ 56 + (s.g a).toNat % 2 ^ 56))
    ∧ exec (.pset d a b) s = .next (Spec.wrote s 4 d ((s.g b).toNat / 2 ^ 56 * 2 ^ 56 + (s.g a).toNat % 2 ^ 56)))
  ∧ (∀ (s : State) (x : OxReg) (d a : Reg),
    exec (.oxset x a) s = .next ((s.mapCtx (fun c => { c with ox := c.ox.set x.toNat (s.g a) })).finish 4)
    ∧ exec (.oxget d x) s = .next ((s.setG d s.ctx.ox[x.toNat]).finish 4))

/-- R81, R82: `pchk`. The last clause is for a range that one PLB entry with legal rights answers.
The model's choices of logs 9, 14 stand behind it. -/
def Spec.pchk_result : Prop :=
  ∀ (s : State) (d a b : Reg),
    let base := (s.g a).toNat % 2 ^ 56
    let len := (s.g b).toNat
    let top := base + len - 1
    let gives (r : Nat) : Prop := exec (.pchk d a b) s = .next (Spec.wrote s 4 d r)
    (len = 0 ∨ 2 ^ 56 < base + len → gives 0)
    ∧ (len ≠ 0 → base + len ≤ 2 ^ 56 → base / 2 ^ 48 = 0xFF → gives 0b10011)
    ∧ (len ≠ 0 → base + len ≤ 2 ^ 56 → base / 2 ^ 48 < 0xFE → 0xFF ≤ top / 2 ^ 48 → gives 0)
    ∧ (∀ e, len ≠ 0 → top / 2 ^ 48 < 0xFE → base / 65536 = top / 65536 → e.rights < 16 →
        s.core.plb.find? (fun e => decide (e.first ≤ base / 65536) && decide (base / 65536 ≤ e.last)) = some e →
        gives e.rights)

/-- Pointer arithmetic, operand extensions and pchk: pointer arithmetic and operand-extension transfers; the result of
pchk. The docstrings of the parts cite the rules; the model's choices of logs 9, 14 stand behind them. -/
def Obligations.pointer_and_check_results : Prop :=
  Spec.pointer_results ∧ Spec.pchk_result

namespace Spec

/-- The system registers that every level may read and their values (R84, R85, R34). -/
def openRegs (s : State) : List (Nat × Word) :=
  [(0x001, s.core.cyc), (0x002, s.time), (0x010, s.ctx.frm), (0x011, s.ctx.fstat), (0x012, s.ctx.stat), (0x013, s.ctx.vl),
   (0x014, s.ctx.vcfg), (0x030, s.ctx.uliVec), (0x040, s.core.fmtBase), (0x041, s.core.domCl), (0x042, s.core.domDie),
   (0x043, s.core.domPkg), (0x044, s.core.domFab), (0x045, s.core.bcastGrp), (0x050, s.core.yieldDl), (0x051, s.core.jobDl)]

/-- The trap registers: only a privileged level may read them (R84, R46). -/
def trapRegs (s : State) : List (Nat × Word) :=
  [(0x020, s.core.trapVec), (0x021, s.ctx.trapPc), (0x022, s.ctx.trapWord), (0x023, s.ctx.trapCause), (0x024, s.ctx.trapAddr),
   (0x025, s.ctx.trapScr0), (0x026, s.ctx.trapScr1), (0x027, s.ctx.bkptPc)]

/-- `DEV.IDENT` of a die (R10). -/
def ident (die : Nat) : Nat :=
  0x4C59 * 2 ^ 48 + 0x4032 * 2 ^ 32 + Config.major.toNat * 2 ^ 28 + Config.minor.val * 2 ^ 24 + die % 256 * 2 ^ 16 + 1008 * 2 ^ 6

/-- An illegal instruction with its DETAIL: the trap is taken at once (R44). -/
def illegal (s : State) (detail : Nat) : Out := .next (s.raise { cause := 1, detail := detail, addr := 0 })

end Spec

/-- R84, R85, R10, R46, R243: `srd`.
The model's choices of logs 6, 86 stand behind it. -/
def Obligations.srd_results : Prop :=
  ∀ (s : State) (d : Reg),
    (∀ p ∈ Spec.openRegs s, exec (.srd d (BitVec.ofNat 12 p.1)) s = .next ((s.setG d p.2).finish 4))
    ∧ (∀ p ∈ Spec.trapRegs s,
        (s.ctx.priv ≠ 0 → exec (.srd d (BitVec.ofNat 12 p.1)) s = .next ((s.setG d p.2).finish 4))
        ∧ (s.ctx.priv = 0 → exec (.srd d (BitVec.ofNat 12 p.1)) s = Spec.illegal s 3))
    ∧ exec (.srd d 0x000) s = .next (Spec.wrote s 4 d (Spec.ident (s.focus / 1008)))
    ∧ (∃ v : Word, exec (.srd d 0x031) s = .next ((s.setG d v).finish 4)
        ∧ v.getLsbD 2 = s.core.inbox.any (fun e => e.ctx == s.curCtx.val)
        ∧ (∀ i, i ≠ 2 → v.getLsbD i = s.ctx.uliStat.getLsbD i))
    ∧ (∀ n : BitVec 12, n.toNat ∉ [0x000, 0x031] → n.toNat ∉ (Spec.openRegs s).map Prod.fst →
        n.toNat ∉ (Spec.trapRegs s).map Prod.fst → exec (.srd d n) s = Spec.illegal s 2)

/-- R84, R36, R37, R38, R46, R49, R99: `swr`, register by register, and where it traps. -/
def Obligations.swr_results : Prop :=
  ∀ (s : State) (a : Reg),
    let v := s.g a
    let p := s.ctx.priv
    let sets (n : BitVec 12) (least : Nat) (t : State) : Prop := least ≤ p → exec (.swr a n) s = .next (t.finish 4)
    sets 0x010 0 (s.mapCtx fun x => { x with frm := v &&& 3 })
    ∧ sets 0x011 0 (s.mapCtx fun x => { x with fstat := v &&& 0x7F })
    ∧ sets 0x030 0 (s.mapCtx fun x => { x with uliVec := v &&& 0x00FFFFFFFFFFFFFE })
    ∧ sets 0x020 1 (s.mapCore fun c => { c with trapVec := v &&& 0x00FFFFFFFFFFFFFF })
    ∧ sets 0x021 1 (s.mapCtx fun x => { x with trapPc := v &&& 0x00FFFFFFFFFFFFFE })
    ∧ sets 0x025 1 (s.mapCtx fun x => { x with trapScr0 := v })
    ∧ sets 0x026 1 (s.mapCtx fun x => { x with trapScr1 := v })
    ∧ (1 ≤ p → exec (.swr a 0x027) s = .next ((s.finish 4).mapCtx fun x => { x with bkptPc := v &&& 0x00FFFFFFFFFFFFFF }))
    ∧ sets 0x040 1 (s.mapCore fun c => { c with fmtBase := v &&& 0x00FFFFFFFFFFFFE0, fmtCache := [] })
    ∧ sets 0x045 1 (s.mapCore fun c => { c with bcastGrp := v &&& 0x8000000F0000FFFF })
    ∧ sets 0x041 2 (s.mapCore fun c => { c with domCl := v &&& 0xFFFF })
    ∧ sets 0x042 2 (s.mapCore fun c => { c with domDie := v &&& 0x7FFFFFFFFFFFFFFF })
    ∧ sets 0x043 2 (s.mapCore fun c => { c with domPkg := v &&& 0xF })
    ∧ sets 0x044 2 (s.mapCore fun c => { c with domFab := v &&& 0xFFFFFFFFFF000000 })
    ∧ sets 0x050 2 (s.mapCore fun c => { c with yieldDl := v })
    ∧ (2 ≤ p → ∃ q : List Move, exec (.swr a 0x051) s =
          .next ({ s.mapCore fun c => { c with jobDl := v } with agenda := s.agenda ++ q }.finish 4)
        ∧ (q = [] ∨ ∃ t, s.core.task = some t ∧ q = [.event .jobDeadline { Ev.empty with unit := t.part }]))
    ∧ (1 ≤ p → ∃ w : Word, exec (.swr a 0x012) s = .next ((s.mapCtx fun x => { x with stat := w }).finish 4)
        ∧ (∀ i, i ∈ [5, 10, 11] → w.getLsbD i = v.getLsbD i)
        ∧ fieldOf w 8 2 = min (fieldOf v 8 2) p
        ∧ (∀ i, i ∉ [5, 8, 9, 10, 11] → w.getLsbD i = s.ctx.stat.getLsbD i))
    ∧ (∃ w : Word, exec (.swr a 0x031) s = .next ((s.mapCtx fun x => { x with uliStat := w }).finish 4)
        ∧ w.getLsbD 0 = v.getLsbD 0 ∧ (∀ i, i ≠ 0 → w.getLsbD i = s.ctx.uliStat.getLsbD i))
    ∧ (p = 0 → ∀ n ∈ [0x012, 0x020, 0x021, 0x022, 0x023, 0x024, 0x025, 0x026, 0x027, 0x040, 0x041, 0x042, 0x043, 0x044, 0x045, 0x050, 0x051],
        exec (.swr a (BitVec.ofNat 12 n)) s = Spec.illegal s 3)
    ∧ (p = 1 → ∀ n ∈ [0x041, 0x042, 0x043, 0x044, 0x050, 0x051], exec (.swr a (BitVec.ofNat 12 n)) s = Spec.illegal s 3)
    ∧ (p ≠ 0 → ∀ n ∈ [0x022, 0x023, 0x024], exec (.swr a (BitVec.ofNat 12 n)) s = Spec.illegal s 2)
    ∧ (∀ n ∈ [0x000, 0x001, 0x002, 0x013, 0x014], exec (.swr a (BitVec.ofNat 12 n)) s = Spec.illegal s 2)

/-- R45: trap entry, for any trap `t` and for the `trap` instruction (R86), and `eret`. BSKIP clears where R49 clears it. -/
def Obligations.trap_entry_and_return : Prop :=
  (∀ (s : State), s.ctx.inh = false → s.core.trapVec.getLsbD 0 = true →
    (∀ i : BitVec 12, exec (.trap i) s = .next (s.raise { cause := 7, detail := 0, addr := i.setWidth 64 }))
    ∧ ∀ t : Trap, t.cause < 256 → t.detail < 256 →
      let u := (s.raise t).ctx
      u.trapPc = s.ctx.pc.setWidth 64 ∧ u.trapWord = s.ir.setWidth 64
      ∧ fieldOf u.trapCause 0 8 = t.cause ∧ fieldOf u.trapCause 8 8 = t.detail ∧ fieldOf u.trapCause 16 48 = 0 ∧ u.trapAddr = t.addr
      ∧ u.ppriv = s.ctx.priv ∧ u.priv = (if s.ctx.priv = 0 then 1 else s.ctx.priv) ∧ u.inh = true
      ∧ u.pc.toNat = fieldOf s.core.trapVec 1 55 * 2
      ∧ (∀ i, i ∉ [0, 1, 8, 9, 10, 11] → u.stat.getLsbD i = s.ctx.stat.getLsbD i)
      ∧ u.stat.getLsbD 11 = (s.ctx.stat.getLsbD 11 && !s.ctx.bkptHere)
      ∧ u = { s.ctx with wait := none, got := [], lost := [], pc := u.pc, stat := u.stat, trapPc := u.trapPc, trapWord := u.trapWord,
                         trapCause := u.trapCause, trapAddr := u.trapAddr }
      ∧ s.raise t = s.setCtxAt s.focus s.curCtx u)
  ∧ (∀ (s : State),
    (s.ctx.priv = 0 → exec .eret s = Spec.illegal s 3)
    ∧ (s.ctx.priv ≠ 0 → ∃ u : Ctx, exec .eret s = .next (s.setCtxAt s.focus s.curCtx u)
        ∧ u.pc.toNat = fieldOf s.ctx.trapPc 1 55 * 2 ∧ u.priv = s.ctx.ppriv ∧ u.inh = false
        ∧ (∀ i, i ∉ [0, 1, 10, 11] → u.stat.getLsbD i = s.ctx.stat.getLsbD i)
        ∧ u.stat.getLsbD 11 = (s.ctx.stat.getLsbD 11 && !s.ctx.bkptHere)
        ∧ u = { s.ctx with pc := u.pc, stat := u.stat }))

/-- R47, R48: forwarding, and the halt of service level.
The model's choices of logs 20, 87 stand behind it. -/
def Spec.trap_forwarding : Prop :=
  ∀ (s : State) (t : Trap), (s.ctx.inh = true ∨ s.core.trapVec.getLsbD 0 = false) →
    (∀ p m, s.ctx.priv ≠ 2 → p < 4 → s.chainMember (clusterOfCore s.focus) p = some m →
      (∀ q, q < p → s.chainMember (clusterOfCore s.focus) q = none) →
      let msg : TrapMsg := { pos := p, cause := t.cause, detail := t.detail, pc := s.ctx.pc, word := s.ir, addr := t.addr }
      let out := s.trapMsgs.filter (fun q => !msgFrom s.focus s.curCtx q.2)
      s.raise t = { s with trapMsgs := out ++ [(m, msg.image s.focus s.curCtx)] }.mapCtx (fun x => { x with
        wait := some { why := .trapReply, ir := s.ir }, fwd := some msg }))
    ∧ (∀ (m : TrapMsg) (n i : Nat),
      let d := m.image n i
      d.length = 4 ∧ fieldOf (d.getD 0 0) 48 16 = n % 2 ^ 16 ∧ fieldOf (d.getD 0 0) 44 4 = i % 16 ∧ fieldOf (d.getD 0 0) 42 2 = m.pos % 4
      ∧ fieldOf (d.getD 0 0) 34 8 = m.cause % 256 ∧ fieldOf (d.getD 0 0) 26 8 = m.detail % 256
      ∧ d.getD 1 0 = m.pc.setWidth 64 ∧ d.getD 2 0 = m.word.setWidth 64 ∧ d.getD 3 0 = m.addr)
    ∧ (s.ctx.priv = 2 → s.raise t = (s.mapCtx (fun x => { x with wait := none })).haltCore s.focus s.curCtx s.ctx.pc.toNat (BitVec.ofNat 64 t.cause))

/-- R87: `halt`. The report is the log entry of class 0x04 that `haltCore` makes.
The model's choice of log 16 stands behind it. -/
def Spec.halt_result : Prop :=
  ∀ (s : State),
    (s.ctx.priv = 0 → exec .halt s = Spec.illegal s 3)
    ∧ (s.ctx.priv ≠ 0 → ∃ t u : State, exec .halt s = .next t
        ∧ u = ((s.finish 4).mapCore (fun c => { c with halted := some s.curCtx.val }))
        ∧ t = u.logCore s.focus 0x04 (fieldOf s.ctx.trapPc 0 56) 0
        ∧ u.core.halted = some s.curCtx.val ∧ u.runs s.focus = false ∧ (∀ r, u.g r = s.g r) ∧ u.ctx.pc = s.ctx.pc + 4)

/-- A trap that cannot enter, and halt: A trap that cannot enter; halt. The docstrings of the parts cite the rules; the
model's choices of logs 16, 20, 87 stand behind them. -/
def Obligations.forwarding_and_halt : Prop :=
  Spec.trap_forwarding ∧ Spec.halt_result

/-- R89, R90: the fences, where nothing keeps their release waiting.
The model's choices of logs 9, 21 stand behind it. -/
def Spec.fence_results : Prop :=
  ∀ (s : State) (z : Scope),
    exec (.fenceAcq z) s = .next ((s.acquire s.focus z).finish 4)
    ∧ ((s.release s.focus z).releaseWaits s.focus s.curCtx z = false →
        exec (.fenceRel z) s = .next ((s.release s.focus z).finish 4)
        ∧ exec (.fenceAr z) s = .next (((s.release s.focus z).acquire s.focus z).finish 4))
    ∧ (s.core.hold.any (fun e => e.ctxs.contains s.curCtx) = false →
        ∃ t : State, exec .fenceFmt s = .next t ∧ t = (s.mapCore (fun c => { c with fmtCache := [] })).finish 4 ∧ t.core.fmtCache = [])
    ∧ (let w := (s.l1Cores s.focus).foldl (fun a m => a.flushL1 m) s
       w.core.hold = [] → w.hostPending w.focus = false → ∃ t : State, exec .fenceI s = .next t
         ∧ t = (w.mapCore (fun c => { c with icache := [] }.staleWaits (fun r => r.kind == 2))).finish 4 ∧ t.core.icache = [])

/-- R91: `tinval`, `purge` and `icinv`.
The model's choices of logs 9, 95 stand behind it. -/
def Spec.maintenance_results : Prop :=
  ∀ (s : State) (z : Scope) (a : Reg) (discard : Bool),
    let va := (s.g a).toNat % 2 ^ 56
    let size := s.pageSize s.focus va
    let base := va / size * size
    (∃ t : State, exec (.icinv z a) s = .next (t.finish 4)
      ∧ ∀ m ∈ s.scopeCores s.focus z, ∀ p ∈ (t.coreAt m).icache, ¬ (base / 64 ≤ p.1 ∧ p.1 < (base + size) / 64))
    ∧ (s.ctx.priv = 0 → exec (.tinval z a) s = Spec.illegal s 3 ∧ exec (.purge z discard a) s = Spec.illegal s 3)
    ∧ (s.ctx.priv ≠ 0 →
        (∃ t : State, (t.hostBusy t.focus z base size = false → exec (.tinval z a) s = .next (t.finish 4)) ∧
          ∀ m ∈ s.scopeCores s.focus z, ∀ e ∈ (t.coreAt m).plb, ¬ (e.first ≤ (base + size - 1) / 65536 ∧ base / 65536 ≤ e.last))
        ∧ (let t := s.purgePage s.focus z va discard
           t.hostBusy t.focus z base size = false → exec (.purge z discard a) s = .next (t.finish 4)))

/-- Fences, translation and cache maintenance: fences; translation and cache maintenance. The docstrings of the parts
cite the rules; the model's choices of logs 9, 21, 95 stand behind them. -/
def Obligations.fence_and_maintenance_results : Prop :=
  Spec.fence_results ∧ Spec.maintenance_results

/-- R40 (and R39, R41, R92): `hstart`, `hjoin` and `hexit`. -/
def Obligations.helper_results : Prop :=
  ∀ (s : State) (d a b : Reg) (n : BitVec 12),
    (s.ctx.cidx ≠ 0 → exec (.hstart d a b) s = Spec.illegal s 2 ∧ exec (.hjoin d n) s = Spec.illegal s 2)
    ∧ (n.toNat = 0 ∨ 10 < n.toNat → exec (.hjoin d n) s = Spec.illegal s 2)
    ∧ (s.ctx.cidx = 0 → exec (.hexit a) s = Spec.illegal s 2)
    ∧ (s.ctx.cidx = 0 → (∀ i, 1 ≤ i → i ≤ 10 → (s.ctxAt s.focus i).life ≠ .free) → exec (.hstart d a b) s = .next ((s.setG d 0).finish 4))
    ∧ (∀ k, s.ctx.cidx = 0 → 1 ≤ k → k ≤ 10 → (s.ctxAt s.focus k).life = .free →
        (∀ i, 1 ≤ i → i < k → (s.ctxAt s.focus i).life ≠ .free) →
        ∃ h : Ctx, exec (.hstart d a b) s = .next (((s.setCtxAt s.focus k h).setG d (BitVec.ofNat 64 k)).finish 4)
          ∧ h.life = .live ∧ h.wait = none ∧ h.pc.toNat = fieldOf (s.g a) 1 55 * 2 ∧ h.getG 1 = s.g b
          ∧ (∀ r : Reg, r ≠ 1 → h.getG r = 0) ∧ (∀ x : OxReg, h.getOx x = 0) ∧ (∀ r, r < 8 → h.getV r = 0)
          ∧ h.vl = 0 ∧ h.vcfg = 0 ∧ h.uliVec = 0 ∧ h.uliStat = 0 ∧ h.fstat = 0 ∧ h.frm = s.ctx.frm
          ∧ h.priv = s.ctx.priv ∧ h.bcte = s.ctx.bcte ∧ h.inh = false ∧ h.ppriv = 0 ∧ h.bskip = false ∧ h.cidx = k
          ∧ h.trapPc = 0 ∧ h.trapWord = 0 ∧ h.trapCause = 0 ∧ h.trapAddr = 0 ∧ h.bkptPc = 0)
    ∧ (∀ v, s.ctx.cidx = 0 → 1 ≤ n.toNat → n.toNat ≤ 10 →
        ((s.ctxAt s.focus n.toNat).life = .exited v →
          ∃ x : Ctx, x.life = .free ∧ exec (.hjoin d n) s = .next (((s.setCtxAt s.focus n.toNat x).setG d v).finish 4))
        ∧ ((s.ctxAt s.focus n.toNat).life = .free → exec (.hjoin d n) s = .next ((s.setG d 0).finish 4))
        ∧ ((s.ctxAt s.focus n.toNat).life = .live → exec (.hjoin d n) s = .next (s.wait (.helper n.toNat))))
    ∧ (s.ctx.cidx ≠ 0 → s.curCtx ≠ 0 → ∃ t : State, exec (.hexit a) s = .next t ∧ (t.ctxAt s.focus s.curCtx).life = .exited (s.g a)
        ∧ ((s.ctxAt s.focus 0).waitsHelper s.curCtx = true → (t.ctxAt s.focus 0).wait = none))

namespace Spec

/-- The format record of a pointer's code when its four doublewords are in the format-record cache (R98, R102). -/
def cachedRecord (s : State) (p : Word) : Option FmtRecord :=
  let a := s.core.recordAddr (ptrCode p)
  match s.cachedWord (a % 2 ^ 56), s.cachedWord ((a + 8) % 2 ^ 56), s.cachedWord ((a + 16) % 2 ^ 56), s.cachedWord ((a + 24) % 2 ^ 56) with
  | some w0, some w1, some w2, some w3 => some { dw0 := w0, dw1 := w1, dw2 := w2, dw3 := w3 }
  | _, _, _, _ => none

/-- A pointer that a scalar access may use: a legal block-length code, and a plain code or a dense record at hand (R75, R97). -/
def pointerOk (s : State) (p : Word) : Prop :=
  ptrBlc p ≤ 3 ∧ (ptrCode p = 0 ∨ ∃ r, cachedRecord s p = some r ∧ r.family = some .dense)

/-- The access of `n` bytes at an offset of a pointer reaches `ea` and stays in the address space (R75). -/
def reaches (p : Word) (off : Int) (n ea : Nat) : Prop := ((p.toNat % 2 ^ 56 : Nat) : Int) + off = ea ∧ ea + n ≤ 2 ^ 56

/-- The PLB covers every translated byte of an access, and no byte is refused (R76, R77). -/
def permits (s : State) (need : Need) (ea n : Nat) : Prop :=
  s.core.plbMiss [(ea, n)] = none ∧ s.core.refusedByte s.ctx.priv need ea n = none

/-- Every byte of a load is at hand and none is poisoned (R77). -/
def atHand (s : State) (ea n : Nat) : Prop := s.pendOf s.focus false ea n = none ∧ s.badByte ea n = none

/-- A store of the bytes need not wait: its pages and partial words are at hand, and the alias filter has room (R77, R166). -/
def storable (s : State) (ea n : Nat) : Prop :=
  s.pendOf s.focus true ea n = none ∧ s.storeBlocked (bytesAt ea n) = false

/-- The value of `n` bytes as the executing core reads them, lowest address first (R21). -/
def value (s : State) (ea n : Nat) : Nat := fromBytesLE ((bytesAt ea n).map (fun a => s.byteAt a))

/-- The scalar loads: base register, offset and width in bytes (R75, R83). -/
def loadForm : Instr → Option (Reg × BitVec 12 × Nat)
  | .ldb _ a i | .ldbn _ a i => some (a, i, 1)
  | .ldh _ a i | .ldhn _ a i => some (a, i, 2)
  | .ldw _ a i | .ldwn _ a i => some (a, i, 4)
  | .ldd _ a i | .oxld _ a i => some (a, i, 8)
  | _ => none

/-- The scalar stores: data register, base register, offset and width in bytes (R75). -/
def storeForm : Instr → Option (Reg × Reg × BitVec 12 × Nat)
  | .stb b a i => some (b, a, i, 1)
  | .sth b a i => some (b, a, i, 2)
  | .stw b a i => some (b, a, i, 4)
  | .std b a i => some (b, a, i, 8)
  | _ => none

end Spec

/-- R75, R76, R77, R83: the loads. A tagged pointer also needs the F right.
The model's choices of logs 4, 8, 9, 10, 82 stand behind it. -/
def Spec.load_results : Prop :=
  ∀ (s : State) (d a : Reg) (x : OxReg) (i : BitVec 12) (ea : Nat),
    let p := s.g a
    let ready (n : Nat) : Prop :=
      Spec.pointerOk s p ∧ Spec.reaches p i.toInt n ea ∧ Spec.permits s (Need.load (ptrCode p ≠ 0)) ea n ∧ Spec.atHand s ea n
    (ready 1 → exec (.ldb d a i) s = .next (Spec.wrote s 4 d (BitVec.ofNat 8 (Spec.value s ea 1)).toInt)
      ∧ exec (.ldbn d a i) s = .next (Spec.wrote s 4 d (Spec.value s ea 1)))
    ∧ (ready 2 → exec (.ldh d a i) s = .next (Spec.wrote s 4 d (BitVec.ofNat 16 (Spec.value s ea 2)).toInt)
      ∧ exec (.ldhn d a i) s = .next (Spec.wrote s 4 d (Spec.value s ea 2)))
    ∧ (ready 4 → exec (.ldw d a i) s = .next (Spec.wrote s 4 d (BitVec.ofNat 32 (Spec.value s ea 4)).toInt)
      ∧ exec (.ldwn d a i) s = .next (Spec.wrote s 4 d (Spec.value s ea 4)))
    ∧ (ready 8 → windowOf s.ctx.priv ea = .none →
      exec (.ldd d a i) s = .next (Spec.wrote s 4 d (Spec.value s ea 8))
      ∧ exec (.oxld x a i) s = .next ((s.mapCtx (fun c => { c with ox := c.ox.set x.toNat (BitVec.ofNat 64 (Spec.value s ea 8)) })).finish 4))

/-- R75, R76, R77, R166: the stores. `storeRun` makes the store of a run of bytes; `store_effect` says what it does.
The model's choices of logs 8, 32 stand behind it. -/
def Spec.store_results : Prop :=
  ∀ (s : State) (i : Instr) (b a : Reg) (off : BitVec 12) (n ea : Nat), Spec.storeForm i = some (b, a, off, n) →
    Spec.pointerOk s (s.g a) → Spec.reaches (s.g a) off.toInt n ea → Spec.permits s (Need.store (ptrCode (s.g a) ≠ 0)) ea n →
    Spec.storable s ea n → (n = 8 → windowOf s.ctx.priv ea = .none) →
    exec i s = .next ((s.storeRun ea (bytesLE n (s.g b).toNat)).finish 4)

/-- R75, R77, R232, R233: the frame and the effect of the scalar stores, by the address the meaning stores to. The scratchpad's
canonical form (`Inv`) rules out tables that no run reaches.
The model's choices of logs 4, 8, 32 stand behind it. -/
def Spec.store_effect : Prop :=
  ∀ (s t : State) (i : Instr) (b a : Reg) (off : BitVec 12) (n ea : Nat), Inv s → Spec.storeForm i = some (b, a, off, n) →
    Spec.pointerOk s (s.g a) → Spec.reaches (s.g a) off.toInt n ea → Spec.permits s (Need.store (ptrCode (s.g a) ≠ 0)) ea n →
    Spec.storable s ea n → (n = 8 → windowOf s.ctx.priv ea = .none) →
    (isSpad ea = true → descriptorHits (ea % 2 ^ 48) n = []) →
    s.core.anyWindow = false → (∀ k, k < n → s.core.heldByte (ea + k) = none) →
    (isSpad ea = false → (∀ c ∈ partialBytes ea n, (s.l1Word s.focus (c / 4)).isSome = true)
      ∧ ∀ k, k < n → let line := (ea + k) / 64
        let owner := s.coreAt (s.l1Owner s.focus line)
        owner.dirtyLines.length < 4095 ∧ owner.l1Lines.length < 32767 ∧ ∀ nc ∈ s.cores, nc.2.partialsOn line = []) →
    exec i s = .next t →
    (∀ k, k < n → Spec.seen t (ea + k) = BitVec.ofNat 8 ((s.g b).toNat / 256 ^ k))
    ∧ (∀ c, c < ea ∨ ea + n ≤ c → Spec.seen t c = Spec.seen s c)
    ∧ (∀ r, t.g r = s.g r) ∧ t.ctx = { s.ctx with pc := t.ctx.pc, stat := t.ctx.stat, got := [], lost := [] } ∧ t.ctx.pc = s.ctx.pc + 4
    ∧ (∀ k, k ≠ 11 → t.ctx.stat.getLsbD k = s.ctx.stat.getLsbD k)
    ∧ t.mem = s.mem ∧ t = { s with cores := t.cores }
    ∧ (∀ m j, ¬ (m = s.focus ∧ j = s.curCtx.val) → t.ctxAt m j = s.ctxAt m j)

/-- Scalar stores, what they change and what they leave unchanged: scalar stores; what a scalar store changes. The
docstrings of the parts cite the rules; the model's choices of logs 4, 8, 32 stand behind them. -/
def Obligations.scalar_store_results : Prop :=
  Spec.store_results ∧ Spec.store_effect

/-- R75, R77, R83: the frame of the loads, under the conditions on which they complete; `oxld` writes an operand-extension register.
The model's choices of logs 4, 8, 10 stand behind it. -/
def Spec.load_frame : Prop :=
  ∀ (s t : State) (i : Instr) (a : Reg) (off : BitVec 12) (n ea : Nat), Spec.loadForm i = some (a, off, n) →
    Spec.pointerOk s (s.g a) → Spec.reaches (s.g a) off.toInt n ea → Spec.permits s (Need.load (ptrCode (s.g a) ≠ 0)) ea n →
    Spec.atHand s ea n → (n = 8 → windowOf s.ctx.priv ea = .none) → exec i s = .next t →
    match i with
    | .oxld x _ _ =>
      t = (s.setCtxAt s.focus s.curCtx t.ctx) ∧ t.ctx = { s.ctx with ox := t.ctx.ox, pc := t.ctx.pc, stat := t.ctx.stat, got := [], lost := [] }
      ∧ (∀ y, y ≠ x → t.ctx.getOx y = s.ctx.getOx y) ∧ (∀ k, k ≠ 11 → t.ctx.stat.getLsbD k = s.ctx.stat.getLsbD k)
      ∧ (∀ c, Spec.seen t c = Spec.seen s c) ∧ t.mem = s.mem
    | .ldb d _ _ | .ldh d _ _ | .ldw d _ _ | .ldd d _ _ | .ldbn d _ _ | .ldhn d _ _ | .ldwn d _ _ => Spec.regFrame (some d) s t
    | _ => True

/-- Scalar loads and what they leave unchanged: scalar loads; what a completed scalar load leaves unchanged. The
docstrings of the parts cite the rules; the model's choices of logs 4, 8, 9, 10, 82 stand behind them. -/
def Obligations.scalar_load_results : Prop :=
  Spec.load_results ∧ Spec.load_frame

/-- R75, R76, R77, R97, R44: where scalar accesses trap.
The model's choices of logs 20, 24, 82 stand behind it. -/
def Spec.access_traps : Prop :=
  ∀ (s : State) (i : Instr) (a : Reg) (off : BitVec 12) (n : Nat),
    (Spec.loadForm i = some (a, off, n) ∨ ∃ b, Spec.storeForm i = some (b, a, off, n)) →
    let p := s.g a
    let isLoad := (Spec.loadForm i).isSome
    let need := if isLoad then Need.load (ptrCode p ≠ 0) else Need.store (ptrCode p ≠ 0)
    (3 < ptrBlc p → exec i s = .next (s.raise { cause := 2, detail := 0, addr := p }))
    ∧ (Spec.pointerOk s p → ((p.toNat % 2 ^ 56 : Nat) : Int) + off.toInt < 0 ∨ 2 ^ 56 < ((p.toNat % 2 ^ 56 : Nat) : Int) + off.toInt + n →
        exec i s = .next (s.raise { cause := 3, detail := 0, addr := p }))
    ∧ (∀ ea c, Spec.pointerOk s p → Spec.reaches p off.toInt n ea → (n = 8 → windowOf s.ctx.priv ea = .none) →
        s.core.plbMiss [(ea, n)] = none → s.core.refusedByte s.ctx.priv need ea n = some c →
        exec i s = .next ((s.logCore s.focus (if windowReserved (c % 2 ^ 64) && s.ctx.priv == 2 then 7 else 6)
          (c % 2 ^ 64) 0).raise { cause := 4, detail := 0, addr := BitVec.ofNat 64 c }))
    ∧ (∀ ea c, isLoad = true → Spec.pointerOk s p → Spec.reaches p off.toInt n ea → (n = 8 → windowOf s.ctx.priv ea = .none) →
        Spec.permits s need ea n → s.pendOf s.focus false ea n = none → s.badByte ea n = some c →
        exec i s = .next ((s.logCore s.focus 2 (c % 2 ^ 64) 0).raise { cause := 5, detail := 0, addr := BitVec.ofNat 64 c }))

/-- R43, R76, R77, R236: an access that misses waits and never traps.
The model's choices of logs 9, 10 stand behind it. -/
def Spec.access_waits : Prop :=
  ∀ (s : State) (i : Instr) (a : Reg) (off : BitVec 12) (n ea : Nat),
    (Spec.loadForm i = some (a, off, n) ∨ ∃ b, Spec.storeForm i = some (b, a, off, n)) →
    let p := s.g a
    let isLoad := (Spec.loadForm i).isSome
    let need := if isLoad then Need.load (ptrCode p ≠ 0) else Need.store (ptrCode p ≠ 0)
    Spec.pointerOk s p → Spec.reaches p off.toInt n ea → (n = 8 → windowOf s.ctx.priv ea = .none) →
    (∀ u, s.core.plbMiss [(ea, n)] = some u →
      exec i s = .next ((s.post .plbRefill { Ev.ofCtx s.focus s.curCtx with addr := u * 65536 }).wait (.plb (u * 65536))))
    ∧ (∀ va ws, Spec.permits s need ea n → s.pendOf s.focus (!isLoad) ea n = some (.home va ws ea) →
      exec i s = .next ((s.post .homeMiss (s.missEvent (if isLoad then 0 else 1) va ws ea)).wait (.mem va false)))
    ∧ (∀ va, Spec.permits s need ea n → s.pendOf s.focus (!isLoad) ea n = some (.query va ea) →
      exec i s = .next ((s.post .homeQuery (s.missEvent (if isLoad then 0 else 1) va [] ea)).wait (.query (pageOf va))))

/-- Where scalar accesses trap and where they wait: the traps of scalar loads and stores; where scalar accesses wait.
The docstrings of the parts cite the rules; the model's choices of logs 9, 10, 20, 24, 82 stand behind them. -/
def Obligations.access_traps_and_waits : Prop :=
  Spec.access_traps ∧ Spec.access_waits

/-- R76, R202, R252, R301: the windows that doubleword accesses reach. The store forms that wait complete with their event rows.
The model's choices of logs 10, 18, 26 stand behind it. -/
def Obligations.window_access : Prop :=
  ∀ (s : State) (d a b : Reg) (x : OxReg) (i : BitVec 12) (ea : Nat),
    let p := s.g a
    let cl := s.clusterAt (s.focus / 16)
    ptrBlc p = 0 → ptrCode p = 0 → Spec.reaches p i.toInt 8 ea →
    let reads (v : Word) : Prop := exec (.ldd d a i) s = .next ((s.setG d v).finish 4)
    (∀ off, windowOf s.ctx.priv ea = .ring off → reads (s.core.ringWord off)
      ∧ exec (.oxld x a i) s = .next ((s.mapCtx (fun c => c.setOx x (s.core.ringWord off))).finish 4)
      ∧ (off % 32 ≠ 0 → exec (.std b a i) s = .next (s.finish 4)))
    ∧ (∀ off, windowOf s.ctx.priv ea = .unit off →
      (∀ k, euWord off = some (.cfg k) → reads (cl.barrier k).cfg)
      ∧ (∀ k, euWord off = some (.gen k) → reads ((cl.barrier k).gen.setWidth 64))
      ∧ (∀ k, euWord off = some (.estat k) → reads (cl.event k).estat)
      ∧ (euWord off = some .hchain → reads cl.hchain ∧ (s.ctx.priv = 2 →
          exec (.std b a i) s = .next ((s.onCluster (s.focus / 16) (fun c => { c with hchain := s.g b })).finish 4)))
      ∧ (euWord off = some .waitpol → reads cl.waitpol ∧ (s.ctx.priv = 2 →
          exec (.std b a i) s = .next ((s.onCluster (s.focus / 16) (fun c => { c with waitpol := s.g b })).finish 4)))
      ∧ (euWord off = some .clid → reads (BitVec.ofNat 64 (s.focus % 16 * 65536 + s.focus / 16)))
      ∧ (euWord off = none → exec (.ldd d a i) s =
          .next ((s.logCore s.focus 6 (ea % 2 ^ 64) 0).raise { cause := 4, detail := 0, addr := BitVec.ofNat 64 ea }))
      ∧ (∀ k, euWord off = some (.cfg k) → s.ctx.priv ≠ 0 →
          exec (.std b a i) s = .next ((s.post .barrierCfgWrite (s.euEvent k (s.g b) none)).wait (.window off none))))
    ∧ (∀ die off, windowOf s.ctx.priv ea = .register die off → s.reachReg (s.focus / 1008) die = none →
      (off ∉ [0x050, 0x118, 0x298] → reads (s.readReg die off))
      ∧ (off ≠ 0x128 → exec (.std b a i) s =
          .next ((s.post (regStoreEvent off (s.g b)) (s.regEvent die off (s.g b) true)).wait (.register (regPa die off)))))

namespace Spec

/-- An operand of `n` bits read as a two's-complement number. -/
def signed (n v : Nat) : Int := (BitVec.ofNat n v).toInt

/-- The `amo` instructions of one width and what each writes for the old value `v`, `none` when it writes nothing (R237):
`y` is the operand, `c` the comparand of `cas`, `n` the width in bits. -/
def amoTable (w : Bool) (o : Order) (z : Scope) (d a b : Reg) (n y c : Nat) : List (Instr × (Nat → Option Nat)) :=
  [(.amoAdd w o z d a b, fun v => some ((v + y) % 2 ^ n)),
   (.amoMin w o z d a b, fun v => some (if signed n v ≤ signed n y then v else y)),
   (.amoMax w o z d a b, fun v => some (if signed n v ≤ signed n y then y else v)),
   (.amoMinn w o z d a b, fun v => some (min v y)),
   (.amoMaxn w o z d a b, fun v => some (max v y)),
   (.amoAnd w o z d a b, fun v => some (v &&& y)),
   (.amoOr w o z d a b, fun v => some (v ||| y)),
   (.amoXor w o z d a b, fun v => some (v ^^^ y)),
   (.amoSwap w o z d a b, fun _ => some y),
   (.amoCas w o z d a b, fun v => if v = c then some y else none)]

/-- The `amoupd` instructions of one width, the code each partial is kept under, and what each makes of two values (R238). -/
def amoupdTable (w : Bool) (a b : Reg) (n : Nat) : List (Instr × Nat × (Nat → Nat → Nat)) :=
  [(.amoupdAdd w a b, 0, fun v y => (v + y) % 2 ^ n),
   (.amoupdMin w a b, 1, fun v y => if signed n v ≤ signed n y then v else y),
   (.amoupdMax w a b, 2, fun v y => if signed n v ≤ signed n y then y else v),
   (.amoupdAnd w a b, 5, fun v y => v &&& y),
   (.amoupdOr w a b, 6, fun v y => v ||| y),
   (.amoupdXor w a b, 7, fun v y => v ^^^ y)]

/-- A page whose home can perform an operation at once: its leaf is known, valid, resident and not pinned to the host; behind the
physical window, not host memory (R306, R421). -/
def resident (s : State) (ea : Nat) : Prop :=
  if isTranslated ea then ∃ l, s.hint s.focus ea = some l ∧ l.v = true ∧ l.migratable = false ∧ (l.ho && l.pin) = false
  else topByte ea = 0xFE ∧ paHost (ea % 2 ^ 48) = false

/-- Versioned operations need the page's VER, or HBM4E behind the physical window (R239). -/
def versionedPage (s : State) (ea : Nat) : Prop :=
  if isTranslated ea then ∃ l, s.hint s.focus ea = some l ∧ l.ver = true else paHbm (ea % 2 ^ 48) = true

/-- An operand at an aligned address of a usable pointer with the rights the operation needs (R237, R75, R76). -/
def operand (s : State) (p : Word) (need : Need) (n ea : Nat) : Prop :=
  pointerOk s p ∧ p.toNat % 2 ^ 56 = ea ∧ ea % n = 0 ∧ ea + n ≤ 2 ^ 56 ∧ permits s need ea n

/-- The state after the release part of an ordering or a scope, and that nothing holds the release back (R89, R237). -/
def releasedBy (s : State) (o : Order) (z : Scope) : State := if o = .rel ∨ o = .ar then s.release s.focus z else s
def releasedOk (s : State) (o : Order) (z : Scope) : Prop :=
  o = .rel ∨ o = .ar → (s.release s.focus z).releaseWaits s.focus s.curCtx z = false

/-- The state after the acquire part of an ordering (R237). -/
def acquiredBy (s : State) (o : Order) (z : Scope) : State := if o = .acq ∨ o = .ar then s.acquire s.focus z else s

/-- The home of an address answers with its line: the state `u` in which the access is counted, the slice and the line (R305, R312). -/
def homeGives (s : State) (ea : Nat) (u : State) (slice : Nat) (l : L2Line) : Prop :=
  ∃ leaf t, s.homeLine (dieOfCore s.focus) ea (s.hint s.focus ea) = (.line slice l leaf, t) ∧ u = t.countAccess slice ea (dieOfCore s.focus) leaf

/-- The value of `n` bytes of a line at an address (R21). -/
def lineValue (l : L2Line) (ea n : Nat) : Nat := fromBytesLE (l.bytes (ea % 64) n)

end Spec

/-- R237: the `amo` instructions.
The model's choice of log 17 stands behind it. -/
def Obligations.amo_results : Prop :=
  ∀ (s : State) (w : Bool) (o : Order) (z : Scope) (d a b : Reg) (ea : Nat),
    let n := if w then 4 else 8
    let p := s.g a
    let table := Spec.amoTable w o z d a b (8 * n) ((s.g b).toNat % 2 ^ (8 * n)) (s.ctx.ox[0].toNat % 2 ^ (8 * n))
    (ptrAddr p % n ≠ 0 → ∀ e ∈ table, exec e.1 s = Spec.illegal s 2)
    ∧ (Spec.operand s p (Need.both (ptrCode p ≠ 0)) n ea → Spec.releasedOk s o z →
      let r := Spec.releasedBy s o z
      let done (t : State) (v : Nat) : State := ((Spec.acquiredBy t o z).setG d (BitVec.ofInt 64 (Spec.signed (8 * n) v))).finish 4
      (isSpad ea = true → s.core.aliased (bytesAt ea n) = false → r.core.spadBad (ea % 2 ^ 48) n = false →
        let v := fromBytesLE (memRead r.core.spad n (ea % 2 ^ 48))
        ∀ e ∈ table, exec e.1 s = .next (done (match e.2 v with
          | some x => r.storeSpad r.focus (ea % 2 ^ 48) (bytesLE n x)
          | none => r) v))
      ∧ (isSpad ea = false → s.core.aliased (bytesAt ea n) = false → Spec.resident s ea →
        ∀ u slice l, Spec.homeGives (r.yieldWords r.focus ea n) ea u slice l → l.poisoned (ea % 64) n = false →
        ∀ e ∈ table, exec e.1 s = .next (done (match e.2 (Spec.lineValue l ea n) with
          | some x => u.homeStore slice (ea / 64) l (ea % 64) (bytesLE n x)
          | none => u) (Spec.lineValue l ea n))))

/-- R238: the `amoupd` instructions.
The model's choices of logs 17, 28 stand behind it. -/
def Obligations.amoupd_results : Prop :=
  ∀ (s : State) (w : Bool) (a b : Reg) (ea : Nat),
    let n := if w then 4 else 8
    let p := s.g a
    let y := (s.g b).toNat % 2 ^ (8 * n)
    Spec.operand s p (Need.both (ptrCode p ≠ 0)) n ea →
    (isSpad ea = true → s.core.aliased (bytesAt ea n) = false → s.core.spadBad (ea % 2 ^ 48) n = false →
      ∀ e ∈ Spec.amoupdTable w a b (8 * n), exec e.1 s = .next ((s.storeSpad s.focus (ea % 2 ^ 48) (bytesLE n (e.2.2 (fromBytesLE (memRead s.core.spad n (ea % 2 ^ 48))) y))).finish 4))
    ∧ (isSpad ea = false → s.core.aliased (bytesAt ea n) = false → Spec.resident s ea →
      let o := s.l1Owner s.focus (ea / 64)
      ∀ e ∈ Spec.amoupdTable w a b (8 * n),
      ((s.coreAt o).partialsOn (ea / 64) ≠ [] → ∀ q, tabFind (s.coreAt o).partials (ea / 4) = some q → q.op = e.2.1 → q.width = n →
        ∃ t : State, exec e.1 s = .next (t.finish 4) ∧
          tabFind (t.coreAt o).partials (ea / 4) =
            some { op := e.2.1, width := n, val := BitVec.ofNat 64 (e.2.2 (q.val.toNat % 2 ^ (8 * n)) y) })
      ∧ ((s.coreAt o).partialsOn (ea / 64) = [] → ∀ u slice l, Spec.homeGives s ea u slice l →
        ∃ t : State, exec e.1 s = .next (t.finish 4) ∧ t = (u.grantUpdateOnly (ea / 64)).takePartial o (ea / 4) n e.2.1 y))

/-- R239, R240: `stv`, `ldv`, `vers`, `reclaim` at a line without poison, short of the last version number.
The model's choice of log 17 stands behind it. -/
def Spec.version_results : Prop :=
  ∀ (s : State) (z : Scope) (d a b : Reg) (ea : Nat),
    let p := s.g a
    let loads := Spec.operand s p (Need.load (ptrCode p ≠ 0)) 8 ea ∧ topByte ea ≠ 0xFF ∧ Spec.resident s ea ∧ Spec.versionedPage s ea
    let stores := Spec.operand s p (Need.store (ptrCode p ≠ 0)) 8 ea ∧ topByte ea ≠ 0xFF ∧ Spec.resident s ea ∧ Spec.versionedPage s ea
    let free := s.core.aliased (bytesAt ea 8) = false
    (2 ^ 32 ≤ (s.g b).toNat → exec (.ldv z d a b) s = Spec.illegal s 1)
    ∧ (stores → free → ∀ r u slice l, r = s.release s.focus z → r.releaseWaits s.focus s.curCtx z = false →
        Spec.homeGives (r.yieldWords r.focus ea 8) ea u slice l → l.poisoned (ea % 64) 8 = false → l.ver ≠ BitVec.allOnes 32 →
        let m := { l with ver := l.ver + 1, verDirty := true }
        exec (.stv z a b) s = .next (((u.homeStore slice (ea / 64) m (ea % 64) (bytesLE 8 (s.g b).toNat)).answerVersion (ea / 64)
          (m.put (ea % 64) (bytesLE 8 (s.g b).toNat))).finish 4))
    ∧ (loads → free → (s.g b).toNat < 2 ^ 32 → ∀ u slice l, Spec.homeGives (s.yieldWords s.focus ea 8) ea u slice l →
        ((s.g b).toNat ≤ l.ver.toNat → l.poisoned (ea % 64) 8 = false →
          exec (.ldv z d a b) s = .next (((u.acquire u.focus z).setG d (BitVec.ofNat 64 (Spec.lineValue l ea 8))).finish 4))
        ∧ (l.ver.toNat < (s.g b).toNat → exec (.ldv z d a b) s = .next ((u.addMonitor
          { isVersion := true, va := ea, n := (s.g b).toNat, thr := 0, core := u.focus, ctx := u.curCtx, sc := z }).wait
            (.version ea (s.g b).toNat))))
    ∧ (loads → ∀ u slice l, Spec.homeGives s ea u slice l →
        exec (.vers d a) s = .next ((u.setG d (l.ver.setWidth 64)).finish 4))
    ∧ (stores → ∀ u slice l, Spec.homeGives s ea u slice l →
        exec (.reclaim a) s = .next ((u.setSliceLine slice (ea / 64) { l with ver := 0, verDirty := true }).finish 4))

/-- R266, R267: `sigwait` and `sigdec`.
The model's choices of logs 17, 31 stand behind it. -/
def Spec.signal_results : Prop :=
  ∀ (s : State) (d a b : Reg) (ea : Nat),
    let p := s.g a
    (Spec.operand s p (Need.load (ptrCode p ≠ 0)) 8 ea → topByte ea ≠ 0xFF → Spec.resident s ea →
      ∀ u slice l, Spec.homeGives (s.yieldWords s.focus ea 8) ea u slice l → l.poisoned (ea % 64) 8 = false →
      let v : Word := BitVec.ofNat 64 (Spec.lineValue l ea 8)
      (v.toInt ≤ (s.g b).toInt → exec (.sigwait d a b) s = .next (((u.acquire u.focus .system).setG d v).finish 4))
      ∧ ((s.g b).toInt < v.toInt → exec (.sigwait d a b) s = .next ((u.addMonitor
          { isVersion := false, va := ea, n := 0, thr := s.g b, core := u.focus, ctx := u.curCtx, sc := .system }).wait (.signal ea (s.g b)))))
    ∧ (Spec.operand s p (Need.both (ptrCode p ≠ 0)) 8 ea → topByte ea ≠ 0xFF → Spec.resident s ea →
      s.core.aliased (bytesAt ea 8) = false → ∀ r u slice l, r = s.release s.focus .system → r.releaseWaits s.focus s.curCtx .system = false →
      Spec.homeGives (r.yieldWords r.focus ea 8) ea u slice l → l.poisoned (ea % 64) 8 = false →
      exec (.sigdec a b) s = .next ((u.homeStore slice (ea / 64) l (ea % 64)
        (bytesLE 8 (BitVec.ofNat 64 (Spec.lineValue l ea 8) - s.g b).toNat)).finish 4))

/-- Versioned operations and signal objects: versioned operations; signal objects. The docstrings of the parts cite the
rules; the model's choices of logs 17, 31 stand behind them. -/
def Obligations.version_and_signal_results : Prop :=
  Spec.version_results ∧ Spec.signal_results

namespace Spec

/-- SEW in bits, GM, and VL of the executing context (R120 to R122). -/
def sew (s : State) : Nat := 8 * 2 ^ fieldOf s.ctx.vcfg 0 2
def gm (s : State) : Nat := 2 ^ fieldOf s.ctx.vcfg 2 2
def vl (s : State) : Nat := fieldOf s.ctx.vl 0 12

/-- Active(i) of R127. -/
def active (s : State) (m : Bool) (i : Nat) : Bool := m || (s.ctx.getV 0).getLsbD i

/-- An element that an instruction does not compute: inactive ones follow MZ, those of the tail TZ (R128). -/
def kept (s : State) (i old : Nat) : Nat :=
  if i < vl s then (if s.ctx.vcfg.getLsbD 5 then 0 else old) else (if s.ctx.vcfg.getLsbD 4 then 0 else old)

/-- A destination group of `g` registers from `vd` holds the elements `el` of width `w`; every other vector register is as it was,
flags are only set, and nothing else of the context but the PC and BSKIP, and nothing outside it, has changed (R34, R37, R128). -/
def vecWrote (s t : State) (vd w g : Nat) (el : Nat → Nat) (fl : Flags) : Prop :=
  (∀ i, i < 2048 * g / w → t.ctx.elem vd i w = el i)
  ∧ (∀ r, r < vd ∨ vd + g ≤ r → t.ctx.getV r = s.ctx.getV r)
  ∧ t.ctx.fstat = (s.ctx.fstat ||| fl.setWidth 64) ∧ t.ctx.pc = s.ctx.pc + 4
  ∧ t.ctx = { s.ctx with v := t.ctx.v, fstat := t.ctx.fstat, pc := t.ctx.pc, stat := t.ctx.stat, got := [], lost := [] }
  ∧ (∀ i, i ≠ 11 → t.ctx.stat.getLsbD i = s.ctx.stat.getLsbD i) ∧ t = s.setCtxAt s.focus s.curCtx t.ctx

/-- The union of the flags of the elements that `p` selects below VL (R141). -/
def flagsOf (s : State) (p : Nat → Bool) (f : Nat → Flags) : Flags :=
  (List.range (vl s)).foldr (fun i acc => if p i then f i ||| acc else acc) 0

/-- Vector operands are in place: each register number a multiple of its grouping, a helper's within `v0` to `v7` (R126, R35). -/
def groupsOk (s : State) (gs : List (Nat × Nat)) : Prop :=
  ∀ g ∈ gs, g.1 % g.2 = 0 ∧ (s.ctx.cidx = 0 ∨ g.1 + g.2 ≤ 8)

/-- Operand(i) of R133; `idx` marks the index forms. -/
def second (s : State) (k : Kind) (b : BitVec 5) (idx : Bool) (i : Nat) : Nat :=
  match k with
  | .vv => s.ctx.elem b.toNat i (sew s)
  | .vx => (s.g b).toNat % 2 ^ sew s
  | .vi => if idx then b.toNat else (b.toInt % 2 ^ sew s).toNat

/-- An instruction that computes its active elements below VL completes, each result taken at the element's width; with VL = 0 it
writes nothing (R129). -/
def vecComputes (s : State) (i : Instr) (m : Bool) (vd w g : Nat) (f : Nat → Nat × Flags) : Prop :=
  (vl s = 0 → exec i s = .next (s.finish 4))
  ∧ (vl s ≠ 0 → ∃ t, exec i s = .next t ∧ vecWrote s t vd w g
      (fun j => if j < vl s ∧ active s m j = true then (f j).1 % 2 ^ w else kept s j (s.ctx.elem vd j w)) (flagsOf s (active s m) (fun j => (f j).2)))

/-- Wrap of an integer to `w` bits, and SatS and SatU (R135). -/
def wrap (r : Int) (w : Nat) : Nat := (r % 2 ^ w).toNat
def clamp (lo hi v : Int) : Int := max lo (min v hi)
def clampS (v : Int) (n : Nat) : Int := clamp (-2 ^ (n - 1)) (2 ^ (n - 1) - 1) v
def clampU (v : Int) (n : Nat) : Int := clamp 0 (2 ^ n - 1) v

/-- `r` is z/2^s rounded to the nearest integer, ties to even (R135). -/
def nearest (z : Int) (s : Nat) (r : Int) : Prop :=
  2 * (r * 2 ^ s - z) ≤ 2 ^ s ∧ 2 * (z - r * 2 ^ s) ≤ 2 ^ s ∧ ((2 * (r * 2 ^ s - z) = 2 ^ s ∨ 2 * (z - r * 2 ^ s) = 2 ^ s) → r % 2 = 0)

/-- The integer instructions of R135 that neither widen nor narrow: the constructor, whether the immediate is an index, and the
operation on N, x, y and the old destination element. -/
def vintTable : List ((Bool → Kind → VRegNo → VRegNo → BitVec 5 → Instr) × Bool × (Nat → Nat → Nat → Nat → Int)) :=
  [(.vadd, false, fun _ x y _ => x + y), (.vsub, false, fun _ x y _ => x - y),
   (.vand, false, fun _ x y _ => (x &&& y : Nat)), (.vor, false, fun _ x y _ => (x ||| y : Nat)), (.vxor, false, fun _ x y _ => (x ^^^ y : Nat)),
   (.vsll, true, fun n x y _ => x * 2 ^ (y % n)), (.vsrl, true, fun n x y _ => (x : Int) / 2 ^ (y % n)),
   (.vsra, true, fun n x y _ => signed n x / 2 ^ (y % n)),
   (.vmin, false, fun n x y _ => min (signed n x) (signed n y)), (.vmax, false, fun n x y _ => max (signed n x) (signed n y)),
   (.vminn, false, fun _ x y _ => (min x y : Nat)), (.vmaxn, false, fun _ x y _ => (max x y : Nat)),
   (.vmul, false, fun _ x y _ => x * y), (.vmulh, false, fun n x y _ => signed n x * signed n y / 2 ^ n),
   (.vmulhn, false, fun n x y _ => (x * y / 2 ^ n : Nat)), (.vmacc, false, fun n x y o => o + signed n x * signed n y),
   (.vsadd, false, fun n x y _ => clampS (signed n x + signed n y) n), (.vsaddn, false, fun n x y _ => clampU (x + y) n),
   (.vssub, false, fun n x y _ => clampS (signed n x - signed n y) n), (.vssubn, false, fun n x y _ => clampU (x - y) n)]

end Spec

/-- R123: `setvl` and `setvli`. -/
def Obligations.vector_config : Prop :=
  ∀ (s : State) (d a b : Reg) (c : BitVec 6),
    let vlmax (cfg : Word) : Nat := 2048 * 2 ^ fieldOf cfg 2 2 / (8 * 2 ^ fieldOf cfg 0 2)
    let sets (i : Instr) (cfg : Word) : Prop :=
      let n := min (if a = 0 then vlmax cfg else (s.g a).toNat) (vlmax cfg)
      exec i s = .next (Spec.wrote (s.mapCtx (fun x => { x with vcfg := cfg, vl := BitVec.ofNat 64 n })) 4 d n)
    sets (.setvli d a c) (c.setWidth 64)
    ∧ ((s.g b).toNat < 64 → sets (.setvl d a b) (s.g b))
    ∧ (64 ≤ (s.g b).toNat → exec (.setvl d a b) s = Spec.illegal s 1)

/-- R135, R126 to R129, R133: the integer instructions at SEW. -/
def Obligations.vector_integer_results : Prop :=
  ∀ (s : State) (m : Bool) (k : Kind) (d a : VRegNo) (b : BitVec 5), (m = true ∨ d ≠ 0) →
    Spec.groupsOk s ((d.toNat, Spec.gm s) :: (a.toNat, Spec.gm s) :: (if k = .vv then [(b.toNat, Spec.gm s)] else [])) →
    ∀ e ∈ Spec.vintTable, Spec.vecComputes s (e.1 m k d a b) m d.toNat (Spec.sew s) (Spec.gm s) (fun i =>
      (Spec.wrap (e.2.2 (Spec.sew s) (s.ctx.elem a.toNat i (Spec.sew s)) (Spec.second s k b e.2.1 i) (s.ctx.elem d.toNat i (Spec.sew s))) (Spec.sew s), 0))

/-- R135, R136: the widening forms and `vnclip`. -/
def Obligations.vector_widening_results : Prop :=
  ∀ (s : State) (m : Bool) (k : Kind) (d a : VRegNo) (b : BitVec 5),
    let n := Spec.sew s
    let g := Spec.gm s
    let x (i : Nat) : Int := Spec.signed n (s.ctx.elem a.toNat i n)
    let y (i : Nat) : Int := Spec.signed n (Spec.second s k b false i)
    let apart (p gp q gq : Nat) : Prop := p + gp ≤ q ∨ q + gq ≤ p
    let wide (i : Instr) (f : Nat → Int) : Prop := Spec.vecComputes s i m d.toNat (2 * n) (2 * g) (fun j => (Spec.wrap (f j) (2 * n), 0))
    (n = 64 ∨ g = 8 → ∀ i ∈ [Instr.vwadd m k d a b, .vwmul m k d a b, .vwmacc m k d a b, .vnclip m k d a b], exec i s = Spec.illegal s 2)
    ∧ (n ≠ 64 → g ≠ 8 → (m = true ∨ d ≠ 0) →
      (Spec.groupsOk s ((d.toNat, 2 * g) :: (a.toNat, g) :: (if k = .vv then [(b.toNat, g)] else [])) →
        apart d.toNat (2 * g) a.toNat g → (k = .vv → apart d.toNat (2 * g) b.toNat g) →
        wide (.vwadd m k d a b) (fun i => x i + y i) ∧ wide (.vwmul m k d a b) (fun i => x i * y i)
        ∧ wide (.vwmacc m k d a b) (fun i => s.ctx.elem d.toNat i (2 * n) + x i * y i))
      ∧ (Spec.groupsOk s ((d.toNat, g) :: (a.toNat, 2 * g) :: (if k = .vv then [(b.toNat, g)] else [])) →
        apart d.toNat g a.toNat (2 * g) →
        ∃ r : Nat → Int, (∀ i, Spec.nearest (Spec.signed (2 * n) (s.ctx.elem a.toNat i (2 * n))) (Spec.second s k b true i % (2 * n)) (r i))
          ∧ Spec.vecComputes s (.vnclip m k d a b) m d.toNat n g (fun i => (Spec.wrap (Spec.clampS (r i) n) n, 0))))

namespace Spec

/-- The float instructions with two operands: the constructor and its result and flags on the format, the rounding mode, x, y and
the old destination element (R138, R139). The operations are the model's own: `float_special_values` says what they give for
NaNs, infinities and zeros. -/
def vfloatTable : List ((Bool → Kind → VRegNo → VRegNo → BitVec 5 → Instr) × (FFmt → RMode → Nat → Nat → Nat → Nat × Flags)) :=
  [(.vfadd, fun f r x y _ => fAdd f r x y), (.vfsub, fun f r x y _ => fSub f r x y), (.vfmul, fun f r x y _ => fMul f r x y),
   (.vfdiv, fun f r x y _ => fDiv f r x y), (.vfmin, fun f _ x y _ => fMinMax f false x y), (.vfmax, fun f _ x y _ => fMinMax f true x y),
   (.vfmacc, fun f r x y o => fMacc f r x y o), (.vfnmacc, fun f r x y o => fNmacc f r x y o),
   (.vfsgnj, fun f _ x y _ => (y / 2 ^ (f.width - 1) * 2 ^ (f.width - 1) + x % 2 ^ (f.width - 1), 0)),
   (.vfsgnjn, fun f _ x y _ => ((1 - y / 2 ^ (f.width - 1)) * 2 ^ (f.width - 1) + x % 2 ^ (f.width - 1), 0))]

/-- The float format of an element width: BF16, F32, F64 (R137). -/
def format (n : Nat) : FFmt := if n = 16 then fmtBF16 else if n = 32 then fmtF32 else fmtF64

/-- The rounding mode of `FRM` (R36), and of a rounding code (R68). -/
def frm (s : State) : RMode := [RMode.rne, .rtz, .rdn, .rup].getD (fieldOf s.ctx.frm 0 2) .rne
def rounding (s : State) : VRound → RMode
  | .frm => frm s
  | .rne => .rne
  | .rtz => .rtz
  | .rdn => .rdn
  | .rup => .rup

end Spec

/-- R137 to R141: the float instructions; `vfsqrt` and `vfclass` have one source. -/
def Spec.vector_float_results : Prop :=
  ∀ (s : State) (m : Bool) (k : Kind) (d a : VRegNo) (b : BitVec 5),
    let n := Spec.sew s
    let g := Spec.gm s
    let f := Spec.format n
    let x (i : Nat) : Nat := s.ctx.elem a.toNat i n
    (n = 8 → (∀ e ∈ Spec.vfloatTable, exec (e.1 m k d a b) s = Spec.illegal s 2)
      ∧ exec (.vfsqrt m d a) s = Spec.illegal s 2 ∧ exec (.vfclass m d a) s = Spec.illegal s 2)
    ∧ (n ≠ 8 → (m = true ∨ d ≠ 0) →
      (Spec.groupsOk s ((d.toNat, g) :: (a.toNat, g) :: (if k = .vv then [(b.toNat, g)] else [])) →
        ∀ e ∈ Spec.vfloatTable, Spec.vecComputes s (e.1 m k d a b) m d.toNat n g
          (fun i => e.2 f (Spec.frm s) (x i) (Spec.second s k b false i) (s.ctx.elem d.toNat i n)))
      ∧ (Spec.groupsOk s [(d.toNat, g), (a.toNat, g)] →
        Spec.vecComputes s (.vfsqrt m d a) m d.toNat n g (fun i => fSqrt f (Spec.frm s) (x i))
        ∧ Spec.vecComputes s (.vfclass m d a) m d.toNat n g (fun i => (fClass f (x i), 0))))

/-- R138, R94, R95: NaNs, infinities and zeros, for the formats of the three element widths. -/
def Spec.float_special_values : Prop :=
  ∀ (f : FFmt) (r : RMode) (x y : Nat), f = fmtBF16 ∨ f = fmtF32 ∨ f = fmtF64 → x < 2 ^ f.width → y < 2 ^ f.width →
    let snan := (f.unpack x).isSnan || (f.unpack y).isSnan
    let invalid : Nat × Flags := (f.nan, flagNV)
    ((f.unpack x).isNan = true ∨ (f.unpack y).isNan = true →
      ∀ op ∈ [fAdd f r, fSub f r, fMul f r, fDiv f r], op x y = (f.nan, if snan then flagNV else 0))
    ∧ ((f.unpack x).isNan = true → fSqrt f r x = (f.nan, if (f.unpack x).isSnan then flagNV else 0))
    ∧ (∀ p q, f.unpack x = .inf p → f.unpack y = .inf q → (p ≠ q → fAdd f r x y = invalid) ∧ (p = q → fSub f r x y = invalid)
        ∧ fDiv f r x y = invalid ∧ fMul f r x y = (f.inf (p != q), 0))
    ∧ (∀ p, f.unpack x = .inf p → (f.unpack y).isZero = true → fMul f r x y = invalid ∧ fMul f r y x = invalid)
    ∧ ((f.unpack x).isZero = true → (f.unpack y).isZero = true → fDiv f r x y = invalid)
    ∧ (∀ p m e, f.unpack x = .fin p m e → m ≠ 0 → (f.unpack y).isZero = true → fDiv f r x y = (f.inf (p != (f.unpack y).isNeg), flagDZ))
    ∧ (∀ m e, f.unpack x = .fin true m e → m ≠ 0 → fSqrt f r x = invalid) ∧ (f.unpack x = .inf true → fSqrt f r x = invalid)

/-- Vector float instructions and their special operands: vector float instructions; special operands of the float
operations. The docstrings of the parts cite the rules. -/
def Obligations.vector_float_arithmetic : Prop :=
  Spec.vector_float_results ∧ Spec.float_special_values

/-- R149, R150: the conversions. -/
def Obligations.vector_convert_results : Prop :=
  ∀ (s : State) (m : Bool) (z : VRound) (d a : VRegNo),
    let n := Spec.sew s
    let g := Spec.gm s
    let f := Spec.format n
    let r := Spec.rounding s z
    let x (w i : Nat) : Nat := s.ctx.elem a.toNat i w
    (n = 8 → ∀ i ∈ [Instr.vcvtfi m z d a, .vcvtfn m z d a, .vcvtif m z d a, .vcvtnf m z d a, .vcvtfw m z d a, .vcvtfs m z d a],
      exec i s = Spec.illegal s 2)
    ∧ (n = 64 ∨ g = 8 → exec (.vcvtfw m z d a) s = Spec.illegal s 2 ∧ exec (.vcvtfs m z d a) s = Spec.illegal s 2)
    ∧ (n ≠ 8 → (m = true ∨ d ≠ 0) → Spec.groupsOk s [(d.toNat, g), (a.toNat, g)] →
      Spec.vecComputes s (.vcvtif m z d a) m d.toNat n g (fun i => f.roundInt r (Spec.signed n (x n i)) 0)
      ∧ Spec.vecComputes s (.vcvtnf m z d a) m d.toNat n g (fun i => f.roundInt r (x n i) 0)
      ∧ Spec.vecComputes s (.vcvtfi m z d a) m d.toNat n g (fun i =>
          let q := fToInt f r (-2 ^ (n - 1)) (2 ^ (n - 1) - 1) (x n i)
          (Spec.wrap q.1 n, q.2))
      ∧ Spec.vecComputes s (.vcvtfn m z d a) m d.toNat n g (fun i =>
          let q := fToInt f r 0 (2 ^ n - 1) (x n i)
          (Spec.wrap q.1 n, q.2)))
    ∧ (n ≠ 8 → n ≠ 64 → g ≠ 8 → (m = true ∨ d ≠ 0) →
      (Spec.groupsOk s [(d.toNat, 2 * g), (a.toNat, g)] → (d.toNat + 2 * g ≤ a.toNat ∨ a.toNat + g ≤ d.toNat) →
        Spec.vecComputes s (.vcvtfw m z d a) m d.toNat (2 * n) (2 * g) (fun i => fToF f (Spec.format (2 * n)) r (x n i)))
      ∧ (Spec.groupsOk s [(d.toNat, g), (a.toNat, 2 * g)] → (d.toNat + g ≤ a.toNat ∨ a.toNat + 2 * g ≤ d.toNat) →
        Spec.vecComputes s (.vcvtfs m z d a) m d.toNat n g (fun i => fToF (Spec.format (2 * n)) f r (x (2 * n) i))))

namespace Spec

/-- A mask destination register holds the bits `bit` below VL and the tail by TZ; every other vector register is as it was (R142). -/
def maskWrote (s t : State) (vd : Nat) (bit : Nat → Bool) (fl : Flags) : Prop :=
  (∀ i, i < 2048 → (t.ctx.getV vd).getLsbD i =
    if i < vl s then bit i else (!s.ctx.vcfg.getLsbD 4 && (s.ctx.getV vd).getLsbD i))
  ∧ (∀ r, r ≠ vd → t.ctx.getV r = s.ctx.getV r)
  ∧ t.ctx.fstat = (s.ctx.fstat ||| fl.setWidth 64) ∧ t.ctx.pc = s.ctx.pc + 4
  ∧ t.ctx = { s.ctx with v := t.ctx.v, fstat := t.ctx.fstat, pc := t.ctx.pc, stat := t.ctx.stat, got := [], lost := [] }
  ∧ t = s.setCtxAt s.focus s.curCtx t.ctx

/-- The integer compares on N, x and y (R142). -/
def vcmpTable : List ((Bool → Kind → VRegNo → VRegNo → BitVec 5 → Instr) × (Nat → Nat → Nat → Bool)) :=
  [(.vmseq, fun _ x y => x == y), (.vmsne, fun _ x y => x != y), (.vmslt, fun n x y => decide (signed n x < signed n y)),
   (.vmsle, fun n x y => decide (signed n x ≤ signed n y)), (.vmsltn, fun _ x y => decide (x < y)), (.vmslen, fun _ x y => decide (x ≤ y))]

/-- The float compares (R142). -/
def vfcmpTable : List ((Bool → Kind → VRegNo → VRegNo → BitVec 5 → Instr) × (FFmt → Nat → Nat → Bool × Flags)) :=
  [(.vmfeq, fEq), (.vmflt, fLt), (.vmfle, fLe)]

/-- Does a mask destination keep clear of a source group (R142, R126)? -/
def maskApart (d a g : Nat) : Prop := d + 1 ≤ a ∨ a + g ≤ d

end Spec

/-- R142: integer and float compares. -/
def Obligations.vector_compare_results : Prop :=
  ∀ (s : State) (m : Bool) (k : Kind) (d a : VRegNo) (b : BitVec 5),
    let n := Spec.sew s
    let g := Spec.gm s
    let x (i : Nat) : Nat := s.ctx.elem a.toNat i n
    let y (i : Nat) : Nat := Spec.second s k b false i
    let writes (i : Instr) (f : Nat → Bool × Flags) : Prop :=
      (Spec.vl s = 0 → exec i s = .next (s.finish 4))
      ∧ (Spec.vl s ≠ 0 → ∃ t, exec i s = .next t ∧ Spec.maskWrote s t d.toNat
          (fun j => if Spec.active s m j then (f j).1 else (!s.ctx.vcfg.getLsbD 5 && (s.ctx.getV d.toNat).getLsbD j))
          (Spec.flagsOf s (Spec.active s m) (fun j => (f j).2)))
    Spec.groupsOk s ((d.toNat, 1) :: (a.toNat, g) :: (if k = .vv then [(b.toNat, g)] else [])) →
    Spec.maskApart d.toNat a.toNat g → (k = .vv → Spec.maskApart d.toNat b.toNat g) →
    (∀ e ∈ Spec.vcmpTable, writes (e.1 m k d a b) (fun i => (e.2 n (x i) (y i), 0)))
    ∧ (n ≠ 8 → ∀ e ∈ Spec.vfcmpTable, writes (e.1 m k d a b) (fun i => e.2 (Spec.format n) (x i) (y i)))
    ∧ (n = 8 → ∀ e ∈ Spec.vfcmpTable, exec (e.1 m k d a b) s = Spec.illegal s 2)

/-- R143: mask logic and `vmpop`. -/
def Spec.mask_results : Prop :=
  ∀ (s : State) (m : Bool) (d a b : VRegNo) (r : Reg),
    let p (i : Nat) : Bool := (s.ctx.getV a.toNat).getLsbD i
    let q (i : Nat) : Bool := (s.ctx.getV b.toNat).getLsbD i
    let writes (i : Instr) (bit : Nat → Bool) : Prop :=
      (Spec.vl s = 0 → exec i s = .next (s.finish 4)) ∧ (Spec.vl s ≠ 0 → ∃ t, exec i s = .next t ∧ Spec.maskWrote s t d.toNat bit 0)
    (Spec.groupsOk s [(d.toNat, 1), (a.toNat, 1), (b.toNat, 1)] →
      writes (.vmand d a b) (fun i => p i && q i) ∧ writes (.vmor d a b) (fun i => p i || q i)
      ∧ writes (.vmxor d a b) (fun i => p i ^^ q i) ∧ writes (.vmandn d a b) (fun i => p i && !q i))
    ∧ (Spec.groupsOk s [(a.toNat, 1)] →
      (Spec.vl s = 0 → exec (.vmpop m r a) s = .next (s.finish 4))
      ∧ (Spec.vl s ≠ 0 → exec (.vmpop m r a) s =
          .next (Spec.wrote s 4 r ((List.range (Spec.vl s)).countP (fun i => Spec.active s m i && p i)))))

/-- R144 to R147: the permutes, with a destination group clear of the source groups where the rules ask it.
The model's choice of log 22 stands behind it. -/
def Spec.vector_move_results : Prop :=
  ∀ (s : State) (m : Bool) (k : Kind) (d a : VRegNo) (b : BitVec 5) (r : Reg),
    let n := Spec.sew s
    let g := Spec.gm s
    let vs := 2048 * g / n
    let e (i : Nat) : Nat := s.ctx.elem a.toNat i n
    let old (i : Nat) : Nat := s.ctx.elem d.toNat i n
    let ix := if k = .vx then (s.g b).toNat else b.toNat
    let apart (q gq : Nat) : Prop := d.toNat + g ≤ q ∨ q + gq ≤ d.toNat
    let does (i : Instr) (m : Bool) (f : Nat → Nat) : Prop := Spec.vecComputes s i m d.toNat n g (fun j => (f j, 0))
    let free := m = true ∨ d ≠ 0
    let src := if k = .vv then [(b.toNat, g)] else []
    (free → Spec.groupsOk s ((d.toNat, g) :: (if k = .vv then [(a.toNat, g)] else [])) →
      does (.vmv m k d a b) m (fun i => if k = .vv then e i else Spec.second s k b false i))
    ∧ (d ≠ 0 → Spec.groupsOk s ((d.toNat, g) :: (a.toNat, g) :: src) →
      does (.vmerge k d a b) true (fun i => if (s.ctx.getV 0).getLsbD i then Spec.second s k b false i else e i))
    ∧ (Spec.groupsOk s [(d.toNat, g)] → k ≠ .vv →
      does (.vinsert k d r b) true (fun i => if i = ix then (s.g r).toNat % 2 ^ n else old i))
    ∧ (free → Spec.groupsOk s [(d.toNat, g), (a.toNat, g)] → apart a.toNat g → k ≠ .vv →
      does (.vslidedn m k d a b) m (fun i => if i + ix < vs then e (i + ix) else 0)
      ∧ (Spec.vl s = 0 → exec (.vslideup m k d a b) s = .next (s.finish 4))
      ∧ (Spec.vl s ≠ 0 → ∃ t, exec (.vslideup m k d a b) s = .next t ∧ Spec.vecWrote s t d.toNat n g (fun i =>
          if i < ix then old i else if i < Spec.vl s ∧ Spec.active s m i = true then e (i - ix) else Spec.kept s i (old i)) 0)
      ∧ (Spec.vl s ≠ 0 → (ix = 0 ∨ Spec.vl s % ix ≠ 0) → exec (.vtrn m k d a b) s = Spec.illegal s 2)
      ∧ (ix ≠ 0 → Spec.vl s % ix = 0 →
          does (.vtrn m k d a b) m (fun i => e (i % (Spec.vl s / ix) * ix + i / (Spec.vl s / ix)))))
    ∧ (free → Spec.groupsOk s ((d.toNat, g) :: (a.toNat, g) :: src) → apart a.toNat g → (k = .vv → apart b.toNat g) →
      does (.vgather m k d a b) m (fun i =>
        let j := if k = .vv then s.ctx.elem b.toNat i n else ix
        if j < vs then e j else 0))
    ∧ (Spec.groupsOk s [(d.toNat, g), (a.toNat, g), (b.toNat, 1)] → apart a.toNat g → apart b.toNat 1 →
      (Spec.vl s = 0 → exec (.vcompress d a b) s = .next (s.finish 4))
      ∧ (Spec.vl s ≠ 0 →
        let picked := ((List.range (Spec.vl s)).filter (fun i => (s.ctx.getV b.toNat).getLsbD i)).map e
        ∃ t, exec (.vcompress d a b) s = .next t ∧ Spec.vecWrote s t d.toNat n g (fun i =>
          if i < picked.length then picked.getD i 0 else if s.ctx.vcfg.getLsbD 4 then 0 else old i) 0))
    ∧ (Spec.groupsOk s [(a.toNat, g)] → k ≠ .vv →
      (Spec.vl s = 0 → exec (.vxtract k r a b) s = .next (s.finish 4))
      ∧ (Spec.vl s ≠ 0 → exec (.vxtract k r a b) s = .next (Spec.wrote s 4 r (if ix < Spec.vl s then Spec.signed n (e ix) else 0))))

/-- Mask logic, moves, slides, gathers and merges: mask logic; moves, slides, gathers and merges. The docstrings of the
parts cite the rules; the model's choice of log 22 stands behind them. -/
def Obligations.mask_and_move_results : Prop :=
  Spec.mask_results ∧ Spec.vector_move_results

namespace Spec

/-- The integer reductions of one width: Combine on N, the accumulator and an element (R148). -/
def vredTable : List ((Bool → VRegNo → VRegNo → VRegNo → Instr) × (Nat → Nat → Nat → Nat)) :=
  [(.vredsum, fun n acc x => (acc + x) % 2 ^ n), (.vredmin, fun n acc x => if signed n acc ≤ signed n x then acc else x),
   (.vredmax, fun n acc x => if signed n acc ≤ signed n x then x else acc), (.vredminn, fun _ acc x => min acc x),
   (.vredmaxn, fun _ acc x => max acc x), (.vredand, fun _ acc x => acc &&& x), (.vredor, fun _ acc x => acc ||| x),
   (.vredxor, fun _ acc x => acc ^^^ x)]

end Spec

/-- R148: the reductions.
The model's choice of log 23 stands behind it. -/
def Obligations.vector_reduce_results : Prop :=
  ∀ (s : State) (m : Bool) (d a b : VRegNo),
    let n := Spec.sew s
    let g := Spec.gm s
    let xs := ((List.range (Spec.vl s)).filter (Spec.active s m)).map (fun i => s.ctx.elem a.toNat i n)
    let writes (i : Instr) (w v : Nat) (fl : Flags) : Prop :=
      ∃ t, exec i s = .next t ∧ Spec.vecWrote s t d.toNat w 1
        (fun j => if j = 0 then v % 2 ^ w else if s.ctx.vcfg.getLsbD 4 ∧ Spec.vl s ≠ 0 then 0 else s.ctx.elem d.toNat j w) fl
    (m = true ∨ d ≠ 0) → Spec.groupsOk s [(d.toNat, 1), (a.toNat, g), (b.toNat, 1)] →
    (∀ e ∈ Spec.vredTable, writes (e.1 m d a b) n (xs.foldl (e.2 n) (s.ctx.elem b.toNat 0 n)) 0)
    ∧ (n ≠ 8 →
      let r := xs.foldl (fun (p : Nat × Flags) x =>
        let q := fAdd (Spec.format n) (Spec.frm s) p.1 x
        (q.1, p.2 ||| q.2)) (s.ctx.elem b.toNat 0 n, 0)
      writes (.vfredsum m d a b) n r.1 r.2)
    ∧ (n ≠ 64 → g ≠ 8 → (d.toNat + 1 ≤ a.toNat ∨ a.toNat + g ≤ d.toNat) →
      writes (.vwredsum m d a b) (2 * n)
        (xs.foldl (fun acc x => Spec.wrap (acc + Spec.signed n x) (2 * n)) (s.ctx.elem b.toNat 0 (2 * n))) 0)

namespace Spec

/-- The active elements below VL in rising order (R127). -/
def actives (s : State) (m : Bool) : List Nat := (List.range (vl s)).filter (active s m)

/-- The address of element `i` of a vector access before its range check: unit stride, a stride in a register, an index (R157). -/
def unitAt (s : State) (p : Word) (i : Nat) : Int := (p.toNat % 2 ^ 56 : Nat) + (i * (sew s / 8) : Nat)
def strideAt (s : State) (p : Word) (b : Reg) (i : Nat) : Int := (p.toNat % 2 ^ 56 : Nat) + i * (s.g b).toInt
def indexAt (s : State) (p : Word) (b : VRegNo) (i : Nat) : Int := (p.toNat % 2 ^ 56 : Nat) + s.ctx.elem b.toNat i (sew s)

/-- Every active element lies in the address space (R158). -/
def inRange (s : State) (m : Bool) (at' : Nat → Int) : Prop := ∀ i ∈ actives s m, 0 ≤ at' i ∧ at' i + (sew s / 8 : Nat) ≤ 2 ^ 56

/-- The element runs of a vector access. -/
def runs (s : State) (m : Bool) (at' : Nat → Int) : List (Nat × Nat) := (actives s m).map (fun i => ((at' i).toNat, sew s / 8))

/-- The PLB covers every translated byte of the runs, and no byte is refused (R158, R76). -/
def permitsAll (s : State) (need : Need) (rs : List (Nat × Nat)) : Prop :=
  s.core.plbMiss rs = none ∧ ∀ r ∈ rs, s.core.refusedByte s.ctx.priv need r.1 r.2 = none

/-- The loaded elements in a destination group: the values of the active ones, the policies for the others (R128, R159). -/
def loaded (s : State) (m : Bool) (d : VRegNo) (at' : Nat → Int) (j : Nat) : Nat :=
  if j < vl s ∧ active s m j = true then value s (at' j).toNat (sew s / 8) else kept s j (s.ctx.elem d.toNat j (sew s))

/-- Element stores made in order; what a held-up store keeps of those still to place is the model's own (R159, R166). -/
def placeAll : State → List (Nat × List Byte) → State
  | s, [] => s
  | s, e :: rest => placeAll ((s.storeRun e.1 e.2).placedOne rest) rest

/-- The hold buffer takes every element in its turn (R166). -/
def roomFor : State → List (Nat × List Byte) → Prop
  | _, [] => True
  | s, e :: rest => s.storeBlocked (bytesAt e.1 e.2.length) = false ∧ roomFor ((s.storeRun e.1 e.2).placedOne rest) rest

end Spec

/-- R157 to R159, R128, R129: the plain, strided and indexed loads.
The model's choices of logs 8, 24 stand behind it. -/
def Spec.vector_load_results : Prop :=
  ∀ (s : State) (m : Bool) (d : VRegNo) (a b : Reg) (v : VRegNo),
    let g := Spec.gm s
    let p := s.g a
    let loads (i : Instr) (at' : Nat → Int) : Prop :=
      (Spec.vl s = 0 → exec i s = .next (s.finish 4))
      ∧ (Spec.vl s ≠ 0 → Spec.pointerOk s p → Spec.inRange s m at' → Spec.permitsAll s (Need.load (ptrCode p ≠ 0)) (Spec.runs s m at') →
          (∀ r ∈ Spec.runs s m at', Spec.atHand s r.1 r.2) →
          ∃ t, exec i s = .next t ∧ Spec.vecWrote s t d.toNat (Spec.sew s) g (Spec.loaded s m d at') 0)
    (m = true ∨ d ≠ 0) →
    (Spec.groupsOk s [(d.toNat, g)] → loads (.vld m d a) (Spec.unitAt s p) ∧ loads (.vlds m d a b) (Spec.strideAt s p b))
    ∧ (Spec.groupsOk s [(d.toNat, g), (v.toNat, g)] → loads (.vldx m d a v) (Spec.indexAt s p v))

/-- R131, R132: `vldff`, complete and truncated.
The model's choices of logs 24, 83, 97 stand behind it. -/
def Spec.first_fault_results : Prop :=
  ∀ (s : State) (m : Bool) (d : VRegNo) (a : Reg),
    let g := Spec.gm s
    let p := s.g a
    let w := Spec.sew s / 8
    let need := Need.load (ptrCode p ≠ 0)
    let at' := Spec.unitAt s p
    (m = true ∨ d ≠ 0) → Spec.groupsOk s [(d.toNat, g)] →
    (Spec.vl s = 0 → exec (.vldff m d a) s = .next (s.finish 4))
    ∧ (Spec.vl s ≠ 0 → Spec.pointerOk s p → s.ctx.lost = [] →
        s.core.plbMiss ((Spec.runs s m at').filter (fun r => decide (r.1 + r.2 ≤ 2 ^ 56))) = none →
        let good (i : Nat) : Prop := at' i + (w : Nat) ≤ 2 ^ 56 ∧ s.core.refusedByte s.ctx.priv need (at' i).toNat w = none
          ∧ Spec.atHand s (at' i).toNat w
        ((∀ i ∈ Spec.actives s m, good i) →
          ∃ t, exec (.vldff m d a) s = .next t ∧ Spec.vecWrote s t d.toNat (Spec.sew s) g (Spec.loaded s m d at') 0)
        ∧ (∀ j ∈ Spec.actives s m, (∃ i ∈ Spec.actives s m, i < j) → (∀ i ∈ Spec.actives s m, i < j → good i) →
          let ea := (at' j).toNat
          let truncated (v : State) : Prop :=
            let u := v.mapCtx (fun x => { x with vl := BitVec.ofNat 64 j })
            ∃ t, exec (.vldff m d a) s = .next t ∧ Spec.vecWrote u t d.toNat (Spec.sew s) g
              (fun k => if k < j ∧ Spec.active s m k = true then Spec.value s (at' k).toNat w
                else Spec.kept u k (u.ctx.elem d.toNat k (Spec.sew s))) 0
          (2 ^ 56 < at' j + (w : Nat) ∨ s.core.refusedByte s.ctx.priv need ea w ≠ none → truncated s)
          ∧ (at' j + (w : Nat) ≤ 2 ^ 56 → s.core.refusedByte s.ctx.priv need ea w = none → s.pendOf s.focus false ea w = none →
              s.badByte ea w ≠ none → truncated (s.logCore s.focus 2 ea 0))
          ∧ (at' j + (w : Nat) ≤ 2 ^ 56 → s.core.refusedByte s.ctx.priv need ea w = none → isSpad ea = false → ea % 64 + w ≤ 64 →
              let va := match s.missingIn s.focus (bytesAt ea w) (ea / 64) with
                | x :: _ => 4 * x
                | [] => 64 * (ea / 64)
              (s.missingIn s.focus (bytesAt ea w) (ea / 64) ≠ []
                ∨ ∃ l, isTranslated va = true ∧ s.hint s.focus va = some l ∧ (l.v = false ∨ l.migratable = true)) →
              (∃ slice leaf v, s.askHome (dieOfCore s.focus) va (s.probeHint s.focus va) = (.fault slice leaf, v)) → truncated s)))

/-- Vector loads and first-fault loads: vector loads; first-fault loads. The docstrings of the parts cite the rules;
the model's choices of logs 8, 24, 83, 97 stand behind them. -/
def Obligations.vector_load_forms : Prop :=
  Spec.vector_load_results ∧ Spec.first_fault_results

/-- R157 to R159, R166: the plain, strided and indexed stores, begun from their first element or gone on with.
The model's choices of logs 8, 24, 32 stand behind it. -/
def Obligations.vector_store_results : Prop :=
  ∀ (s : State) (m : Bool) (d : VRegNo) (a b : Reg) (v : VRegNo),
    let g := Spec.gm s
    let p := s.g a
    let stores (i : Instr) (at' : Nat → Int) : Prop :=
      let els := (Spec.actives s m).map (fun i => ((at' i).toNat, bytesLE (Spec.sew s / 8) (s.ctx.elem d.toNat i (Spec.sew s))))
      (Spec.vl s = 0 → exec i s = .next (s.finish 4))
      ∧ (Spec.vl s ≠ 0 → s.ctx.placed = 0 → Spec.pointerOk s p → Spec.inRange s m at' →
          Spec.permitsAll s (Need.store (ptrCode p ≠ 0)) (Spec.runs s m at') →
          (∀ r ∈ Spec.runs s m at', s.pendOf s.focus true r.1 r.2 = none) →
          (Spec.roomFor s els → exec i s = .next ((Spec.placeAll s els).finish 4) ∧ (els ≠ [] → (Spec.placeAll s els).ctx.placed = 0))
          ∧ (∀ e rest, els = e :: rest → s.storeBlocked (bytesAt e.1 e.2.length) = true → exec i s = .next (s.wait .busy)))
      ∧ (Spec.vl s ≠ 0 → s.ctx.placed ≠ 0 → Spec.roomFor s s.ctx.unplaced → exec i s = .next ((Spec.placeAll s s.ctx.unplaced).finish 4))
    (Spec.groupsOk s [(d.toNat, g)] → stores (.vst m d a) (Spec.unitAt s p) ∧ stores (.vsts m d a b) (Spec.strideAt s p b))
    ∧ (Spec.groupsOk s [(d.toNat, g), (v.toNat, g)] → stores (.vstx m d a v) (Spec.indexAt s p v))

namespace Spec

/-- A billet pointer whose record is in the format-record cache, with its family (R97, R98, R160). -/
def billetAt (s : State) (p : Word) (r : FmtRecord) (fam : Family) : Prop :=
  ptrBlc p ≤ 3 ∧ ptrCode p ≠ 0 ∧ cachedRecord s p = some r ∧ r.family = some fam ∧ fam ≠ .dense

/-- The header and the element code that an element of a billet run in memory has: header halfwords and payloads are stored apart
(R108, R109, R160). -/
def billetIn (s : State) (fam : Family) (p : Word) (i : Nat) : BilletIn :=
  let pay := fam.payload (blenOf (ptrBlc p))
  let base := ptrAddr p + i / blenOf (ptrBlc p) * pay
  { i := i, header := value s (headerOf pay base) 2,
    code := codeIn fam i (value s (storeOf pay (base + i % blenOf (ptrBlc p) * fam.codeBits / 8)) 1) }

/-- The header and code of an element of a billet image in registers (R151). -/
def imageIn (s : State) (fam : Family) (p : Word) (a : VRegNo) (i : Nat) : BilletIn :=
  { i := i, header := s.ctx.elem a.toNat (i / blenOf (ptrBlc p)) 16, code := s.ctx.elem (a.toNat + 1) i fam.codeBits }

/-- The level codes that some elements need: those whose header selects the level table (R100, R106). -/
def levelCodes (r : FmtRecord) (ins : List BilletIn) : List Nat := (ins.filter (fun e => usesLevels r e.header)).map (fun e => e.code)

/-- The level-table entries of some codes are in the format-record cache of a core (R100, R102). -/
def levelsAt (c : Core) (r : FmtRecord) (codes : List Nat) : Prop :=
  ∀ x ∈ codes, (tabFind c.fmtCache (fmtKey (levelAddr r x) 2)).isSome = true

/-- The level table of a record out of the format-record cache, where codes need it (R100, R102). -/
def cachedLevels (c : Core) (fam : Family) (r : FmtRecord) (codes : List Nat) : List Int :=
  if codes.isEmpty ∨ r.ltab = 0 then [] else
  (List.range (2 ^ fam.codeBits)).map (fun k => levelOf ((tabFind c.fmtCache (fmtKey (levelAddr r k) 2)).getD 0))

/-- The corrupt headers that a decode meets, each by the number it is logged with (R105). -/
def corruptLog (s : State) (hs : List Nat) (detail : Word) : State := hs.foldl (fun a h => a.logCore a.focus 3 h detail) s

/-- The value of a decoded element at SEW 32 (F32) or 64 (grid form), and its flags (R151). -/
def decodedAt (s : State) (z : VRound) (fam : Family) (r : FmtRecord) (table : List Int) (e : BilletIn) : Nat × Flags :=
  let q := billetDecode fam e.header e.code r table
  if sew s = 32 then decodedF32 (rounding s z) q else (decodedGrid q, 0)

end Spec

/-- R151, R160 to R163: `vldb`, `vbdec` and `vqst`; `billetDecode` and `quench` are the codecs of R101 to R116.
The model's choices of logs 24, 98, 99, 100 stand behind it. -/
def Obligations.billet_results : Prop :=
  ∀ (s : State) (m : Bool) (z : VRound) (q : QSel) (d a : VRegNo) (c : Reg),
    let n := Spec.sew s
    let g := Spec.gm s
    (n < 32 → exec (.vldb m z d c) s = Spec.illegal s 2 ∧ exec (.vbdec m z d a) s = Spec.illegal s 2)
    ∧ (n = 8 ∨ n = 64 → exec (.vqst q d c) s = Spec.illegal s 2)
    ∧ (Spec.vl s = 0 → Spec.groupsOk s [(d.toNat, g)] →
      (32 ≤ n → (m = true ∨ d ≠ 0) → exec (.vldb m z d c) s = .next (s.finish 4)
        ∧ ((d.toNat + g ≤ a.toNat ∨ a.toNat + 2 ≤ d.toNat) → a.toNat + 1 ≤ 31 → (s.ctx.cidx = 0 ∨ a.toNat + 2 ≤ 8) →
            exec (.vbdec m z d a) s = .next (s.finish 4)))
      ∧ (n = 16 ∨ n = 32 → exec (.vqst q d c) s = .next (s.finish 4)))
    ∧ (Spec.vl s = 0 → a.toNat = 31 ∨ (d.toNat < a.toNat + 2 ∧ a.toNat < d.toNat + g) → exec (.vbdec m z d a) s = Spec.illegal s 2)
    ∧ (∀ r fam, 32 ≤ n → (m = true ∨ d ≠ 0) → Spec.groupsOk s [(d.toNat, g)] → Spec.vl s ≠ 0 →
      let writes (i : Instr) (ins : Nat → BilletIn) (home : Nat → Nat) (detail : Word) : Prop :=
        let codes := Spec.levelCodes r ((Spec.actives s m).map ins)
        let table := Spec.cachedLevels s.core fam r codes
        let bad := corruptHeaders r ((Spec.actives s m).map (fun j => (home j, (ins j).header)))
        let u := Spec.corruptLog s bad detail
        Spec.levelsAt s.core r codes →
        (∀ h rest, bad = h :: rest → s.ctx.bcte = true →
          exec i s = .next (((s.flag flagBFLT).logCore s.focus 3 h detail).raise { cause := 8, detail := 0, addr := BitVec.ofNat 64 h }))
        ∧ (bad = [] ∨ s.ctx.bcte = false → ∃ t, exec i s = .next t ∧ Spec.vecWrote u t d.toNat n g
          (fun j => if j < Spec.vl s ∧ Spec.active s m j = true then (Spec.decodedAt s z fam r table (ins j)).1 % 2 ^ n
            else Spec.kept u j (u.ctx.elem d.toNat j n))
          (Spec.flagsOf s (Spec.active s m) (fun j => (Spec.decodedAt s z fam r table (ins j)).2) ||| if bad = [] then 0 else flagBFLT))
      (let p := s.ctx.ox[0]
       let k := if fam = .billet8 ∧ n = 32 ∧ g = 8 then 2 else 1
       Spec.billetAt s p r fam → a.toNat + k ≤ 31 → (d.toNat + g ≤ a.toNat ∨ a.toNat + k + 1 ≤ d.toNat) →
       (s.ctx.cidx = 0 ∨ a.toNat + k ≤ 7) →
       writes (.vbdec m z d a) (Spec.imageIn s fam p a) (fun i => 2 * (i / blenOf (ptrBlc p)))
         (BitVec.ofNat 64 (2 ^ 63 + a.toNat * 256 + s.ctx.cidx)))
      ∧ (let p := s.g c
         let pay := fam.payload (blenOf (ptrBlc p))
         let base (i : Nat) : Nat := ptrAddr p + i / blenOf (ptrBlc p) * pay
         let rs := (Spec.actives s m).flatMap (fun i =>
           [(headerOf pay (base i), 2), (storeOf pay (base i + i % blenOf (ptrBlc p) * fam.codeBits / 8), 1)])
         Spec.billetAt s p r fam → ptrAddr p % pay = 0 → (∀ e ∈ rs, e.1 + e.2 ≤ 2 ^ 56) → Spec.permitsAll s (Need.load true) rs →
         (∀ e ∈ rs, Spec.atHand s e.1 e.2) →
         writes (.vldb m z d c) (Spec.billetIn s fam p) (fun i => headerOf pay (base i)) 0))
    ∧ ((n = 16 ∨ n = 32) → Spec.groupsOk s [(d.toNat, g)] → Spec.vl s ≠ 0 → s.ctx.placed ≠ 0 → Spec.roomFor s s.ctx.unplaced →
      exec (.vqst q d c) s = .next ((Spec.placeAll s s.ctx.unplaced).finish 4))
    ∧ (∀ r fam, (n = 16 ∨ n = 32) → Spec.groupsOk s [(d.toNat, g)] → Spec.vl s ≠ 0 → s.ctx.placed = 0 → Spec.billetAt s (s.g c) r fam →
      3 ∈ qselCands q r → r.ltab = 0 → exec (.vqst q d c) s = .next (s.raise { cause := 2, detail := 0, addr := s.g c }))
    ∧ (∀ r fam, (n = 16 ∨ n = 32) → Spec.groupsOk s [(d.toNat, g)] → Spec.vl s ≠ 0 → s.ctx.placed = 0 →
      let p := s.g c
      let blen := blenOf (ptrBlc p)
      let pay := fam.payload blen
      let cands := qselCands q r
      let codes := quenchCodes fam cands
      let table := Spec.cachedLevels s.core fam r codes
      let billets := (List.range (Spec.vl s / blen)).map (fun j =>
        let h := quench fam r table cands ((List.range blen).map (fun i => qinOfFloat (Spec.format n) (s.ctx.elem d.toNat (j * blen + i) n)))
        (headerOf pay (ptrAddr p + j * pay), h.1, storeOf pay (ptrAddr p + j * pay), h.2.1))
      let apart := billets.flatMap (fun x => [(x.1, bytesLE 2 x.2.1), (x.2.2.1, packCodes fam x.2.2.2)])
      let els := billetStores fam billets
      Spec.billetAt s p r fam → (3 ∈ cands → r.ltab ≠ 0) → Spec.levelsAt s.core r codes → Spec.vl s % blen = 0 → ptrAddr p % pay = 0 →
      (∀ e ∈ apart, e.1 + e.2.length ≤ 2 ^ 56) →
      (∀ l ∈ [apart, els], Spec.permitsAll s (Need.store true) (l.map (fun e => (e.1, e.2.length)))
        ∧ ∀ e ∈ l, s.pendOf s.focus true e.1 e.2.length = none) → Spec.roomFor s els →
      exec (.vqst q d c) s = .next ((Spec.placeAll s els).finish 4)
      ∧ (els.flatMap (fun e => (bytesAt e.1 e.2.length).zip e.2)).Perm (apart.flatMap (fun e => (bytesAt e.1 e.2.length).zip e.2)))

namespace Spec

/-- The stream that `sopen` captures from the operand-extension registers, with the record of its BASE (R170, R171). -/
def opened (s : State) (k : BitVec 5) (r : FmtRecord) : Stream :=
  { Stream.reset with
    kind := k.toNat, ctxn := s.curCtx, svc := s.ctx.priv == 2, fmt := r
    desc := #v[s.ctx.ox[0], s.ctx.ox[1], s.ctx.ox[2], s.ctx.ox[3], s.ctx.ox[4], s.ctx.ox[5]] }

/-- As `opened`, at its first element with the initial partial (R175). -/
def openedAt (s : State) (k : BitVec 5) (r : FmtRecord) : Stream :=
  { opened s k r with known := { StreamPos.start with acc := (opened s k r).initial, site := 0xFFFF, park := false } }

/-- The record of BASE: none is read for a plain pointer, a valid one is in the format-record cache for a tagged one (R171, R172). -/
def baseRecord (s : State) (p : Word) (r : FmtRecord) : Prop :=
  ptrBlc p ≤ 3 ∧ (ptrCode p = 0 → r = FmtRecord.zero) ∧ (ptrCode p ≠ 0 → cachedRecord s p = some r ∧ r.family ≠ none)

/-- The checks of rows 2 to 5 of R172 on a captured stream with a good record. -/
def descriptorOk (s : State) (st : Stream) : Prop :=
  st.fieldsOk = true ∧ st.dataOk = true ∧ st.inRange = true ∧ (st.dest = true → ptrBlc st.result0 ≤ 3 ∧ s.resultOk s.focus st = true)
  ∧ (st.pat = 1 → st.idxb % 4 = 0 ∧ st.idxb + 4 * st.count 0 ≤ 2 ^ 56)

/-- The value of `n` bytes as a stream of the executing core reads them: through the L1, without held bytes (R176, R190). -/
def unitValue (s : State) (ea n : Nat) : Nat := fromBytesLE ((bytesAt ea n).map (fun a => s.unitByte a))

/-- The elements that `sread` or `swrite` moves now (R176, R177). -/
def streamCount (s : State) (st : Stream) : Nat := if st.state = .sunk then 0 else min (vl s) (st.total - st.known.prog)

/-- Runs that a stream of the executing core can read at once: through the L1 or in the scratchpad, without poison (R176, R190). -/
def unitReady (s : State) (rs : List (Nat × Nat)) : Prop :=
  ∀ r ∈ rs, s.pendUnit s.focus r.1 r.2 = none ∧ ∀ a ∈ bytesAt r.1 r.2, s.unitBad a = false

/-- The index entry of an element in an indirect pattern, as the stream reads it (R171, R190). -/
def streamIndex (s : State) (st : Stream) (k : Nat) : Nat := if st.pat = 1 then unitValue s (st.idxAddr k) 4 else 0

/-- The index entries of the next `n` elements are permitted and at hand, and the elements lie in the address space (R176). -/
def streamReach (s : State) (st : Stream) (n : Nat) : Prop :=
  let p := st.known.prog
  st.pat = 1 → n ≠ 0 →
    let rs := (List.range n).map (fun i => (st.idxAddr (p + i), 4))
    permitsAll s (Need.load false) rs ∧ unitReady s rs
    ∧ ∀ i, i < n → 0 ≤ st.addr (p + i) (streamIndex s st (p + i))
        ∧ st.addr (p + i) (streamIndex s st (p + i)) + st.width ≤ (2 : Int) ^ 56

/-- The header and code of a billet's element of a stream in memory (R113, R171). -/
def streamBillet (s : State) (st : Stream) (k : Nat) : BilletIn :=
  let rs := st.runs k (streamIndex s st k)
  { i := k, header := unitValue s (rs.getD 0 (0, 0)).1 2, code := codeIn st.family k (unitValue s (rs.getD 1 (0, 0)).1 1) }

/-- The value that `sread` delivers for an element and its flags: the dense bytes, or the billet's decoded value at the stream's
rounding mode (R176). -/
def streamValue (s : State) (st : Stream) (table : List Int) (k : Nat) : Nat × Flags :=
  if st.billets then
    let q := billetDecode st.family (streamBillet s st k).header (streamBillet s st k).code st.fmt table
    if sew s = 32 then decodedF32 (rmodeOf st.rm) q else (decodedGrid q, 0)
  else (unitValue s ((st.runs k (streamIndex s st k)).headD (0, 0)).1 st.width, 0)

end Spec

/-- R170 to R175, R184: `sopen`, for every pattern and family. An empty stream passes all its elements at once.
The model's choices of logs 25, 36, 101, 102 stand behind it. -/
def Obligations.stream_open_results : Prop :=
  ∀ (s : State) (z : Slot) (k : BitVec 5) (r : FmtRecord),
    let n := s.focus
    let st := Spec.opened s k r
    let at0 : Stream := { Spec.openedAt s k r with state := .locl }
    let s1 := s.setStream n z.toNat at0
    (st.reservedOk = false → exec (.sopen z k) s = Spec.illegal s 1)
    ∧ (st.reservedOk = true → (s.core.stream z.toNat).state ≠ .free ∨ 2 < k.toNat → exec (.sopen z k) s = Spec.illegal s 2)
    ∧ (st.reservedOk = true → (s.core.stream z.toNat).state = .free → Spec.baseRecord s st.base r → Spec.descriptorOk s st →
      s.core.heldOverlap z.toNat st = false →
      (st.total = 0 → exec (.sopen z k) s = .next ((s1.passedAll n z.toNat).finish 4))
      ∧ (st.total ≠ 0 → k.toNat < 2 → exec (.sopen z k) s = .next (s1.finish 4))
      ∧ (st.total ≠ 0 → k.toNat = 2 →
          (st.flt = false ∨ (st.billets = true ∧ st.fmt.ltab ≠ 0) →
            exec (.sopen z k) s = .next ((s1.post .streamElementPass (streamEv n z.toNat 0)).finish 4))
          ∧ (st.flt = true → (st.billets = false ∨ st.fmt.ltab = 0) →
            let s2 := (s.readFootprint n st).setStream n z.toNat at0
            (s.footprintReadable n st = false →
              exec (.sopen z k) s = .next ((s2.post .streamElementPass (streamEv n z.toNat 0)).finish 4))
            ∧ (s.footprintReadable n st = true →
              let idx := (s2.writeBackFootprint n at0).indexNow n at0 0
              let site := idx.2.siteOf (dieOfCore n) (at0.elemAddr 0 idx.1) at0.noalloc
              ∃ t : State, exec (.sopen z k) s = .next (t.finish 4)
                ∧ (st.pat ≠ 1 → idx.1 = 0)
                ∧ (t.streamAt n z.toNat) = { at0 with
                    state := .floated, known := { at0.known with site := site }, live := { at0.known with site := site }, transit := true
                    idxv := idx.1 }
                ∧ t.agenda.getLast? = some (.event .streamContextArrive { streamEv n z.toNat site with aux := n })))))

/-- R176 to R182, R187: the other stream instructions, for dense and billet streams, affine and indirect.
The model's choices of logs 23, 33, 36, 102, 103, 107 stand behind it. -/
def Obligations.stream_instruction_results : Prop :=
  ∀ (s : State) (z : Slot) (v : VRegNo) (d : Reg) (k : BitVec 5),
    let slot := z.toNat
    let st := s.core.stream slot
    let w := Spec.sew s
    let g := Spec.gm s
    let n := Spec.streamCount s st
    let p := st.known.prog
    let index := Spec.streamIndex s st
    let here := st.state = .locl ∨ st.state = .sunk
    let readRuns := (List.range n).flatMap (fun i => st.runs (p + i) (index (p + i)))
    let denseEls := (List.range n).map (fun i => ((st.addr (p + i) (index (p + i))).toNat, bytesLE st.width (s.ctx.elem v.toNat i w)))
    let ins := if st.billets then (List.range n).map (fun i => Spec.streamBillet s st (p + i)) else []
    let codes := Spec.levelCodes st.fmt ins
    let value (i : Nat) := Spec.streamValue s st (Spec.cachedLevels s.core st.family st.fmt codes) (p + i)
    let bad := corruptHeaders st.fmt (ins.zipIdx.map (fun e => (((st.runs (p + e.2) 0).headD (0, 0)).1, e.1.header)))
    let cands := if st.sel = 0 then maskSels st.fmt.mask else [st.sel - 4]
    let quenched (j : Nat) := quench st.family st.fmt (Spec.cachedLevels s.core st.family st.fmt (quenchCodes st.family cands)) cands
      ((List.range st.blen).map (fun i => qinOfFloat (Spec.format w) (s.ctx.elem v.toNat (j * st.blen + i) w)))
    let billetEls := (List.range (n / st.blen)).map (fun j =>
      let a := (st.affineAddr (p + j * st.blen)).toNat
      (headerOf st.payload a, (quenched j).1, storeOf st.payload a, (quenched j).2.1))
    let stores (u : State) (rs : List (Nat × Nat)) : Prop :=
      Spec.permitsAll u (Need.store st.tagged) rs ∧ ∀ e ∈ rs, u.pendOf u.focus true e.1 e.2 = none
    let writes (u : State) (els : List (Nat × List Byte)) : Prop :=
      s.ctx.placed = 0 → stores u (els.map (fun e => (e.1, e.2.length))) → Spec.roomFor u els →
      exec (.swrite z v d) s = .next ((((Spec.placeAll u els).setG d (BitVec.ofNat 64 n)).advance slot n).finish 4)
    (st.kind = 0 → here → Spec.groupsOk s [(v.toNat, g)] → (if st.billets then w = 32 ∨ w = 64 else 8 * st.width = w) →
      Spec.streamReach s st n → Spec.permitsAll s (Need.load st.tagged) readRuns →
      Spec.unitReady s readRuns → Spec.levelsAt s.core st.fmt codes →
      (∀ h rest, bad = h :: rest → s.ctx.bcte = true →
        exec (.sread z v d) s = .next (((s.flag flagBFLT).logCore s.focus 3 h 0).raise { cause := 8, detail := 0, addr := BitVec.ofNat 64 h }))
      ∧ (bad = [] ∨ s.ctx.bcte = false → ∃ u : State, exec (.sread z v d) s = .next ((u.advance slot n).finish 4)
        ∧ u = (Spec.corruptLog s bad 0).setCtxAt s.focus s.curCtx u.ctx
        ∧ (∀ i, i < 2048 * g / w → u.ctx.elem v.toNat i w =
            if i < n then (value i).1 % 2 ^ w else if s.ctx.vcfg.getLsbD 4 then 0 else s.ctx.elem v.toNat i w)
        ∧ (∀ r, r < v.toNat ∨ v.toNat + g ≤ r → u.ctx.getV r = s.ctx.getV r)
        ∧ u.ctx = ({ s.ctx with
            v := u.ctx.v
            fstat := s.ctx.fstat |||
              ((List.range n).foldr (fun i acc => (value i).2 ||| acc) (0 : Flags) ||| if bad = [] then 0 else flagBFLT).setWidth 64 }).setG d
              (BitVec.ofNat 64 n)))
    ∧ (st.kind = 1 → here → Spec.groupsOk s [(v.toNat, g)] → (if st.billets then w = 16 ∨ w = 32 else 8 * st.width = w) →
      (st.billets = true → Spec.vl s % st.blen = 0) →
      (n = 0 → exec (.swrite z v d) s = .next (((s.setG d 0).advance slot 0).finish 4))
      ∧ (n ≠ 0 → s.ctx.placed ≠ 0 → Spec.roomFor s s.ctx.unplaced → exec (.swrite z v d) s =
          .next ((((Spec.placeAll s s.ctx.unplaced).setG d (BitVec.ofNat 64 n)).advance slot n).finish 4))
      ∧ (n ≠ 0 → st.billets = false → Spec.streamReach s st n → writes s denseEls)
      ∧ (n ≠ 0 → st.billets = true → st.pat ≠ 1 → (3 ∈ cands → st.fmt.ltab ≠ 0) →
          Spec.levelsAt s.core st.fmt (quenchCodes st.family cands) →
          stores s (billetEls.flatMap (fun x => [(x.1, 2), (x.2.2.1, st.payload)])) →
          writes (s.flag ((List.range (n / st.blen)).foldl (fun f j => f ||| (quenched j).2.2) 0)) (billetStores st.family billetEls)))
    ∧ (st.state = .free → exec (.swait z d) s = Spec.illegal s 2 ∧ exec (.srecall z) s = Spec.illegal s 2)
    ∧ (st.state = .sunk → st.err = 0 → exec (.swait z d) s = .next (((s.acquire s.focus .system).setG d st.result).finish 4))
    ∧ (st.state ≠ .free → st.state ≠ .sunk → exec (.swait z d) s = .next (s.wait (.sink slot)))
    ∧ (st.state = .locl → st.kind = 2 → ∃ t : State, ∃ x : Nat, exec (.srecall z) s = .next (t.finish 4) ∧ (st.pat ≠ 1 → x = 0)
        ∧ t.core.stream slot = { st with
            idxv := x, state := .recalled, known := { st.known with site := 0xFFFF }, forwards := [], transit := false, recalling := false, kept := none })
    ∧ (st.state = .locl → st.kind ≠ 2 → exec (.srecall z) s = Spec.illegal s 2)
    ∧ (st.state = .recalled ∨ st.state = .sunk → exec (.srecall z) s = .next (s.finish 4))
    ∧ (8 < k.toNat → exec (.squery z d k) s = Spec.illegal s 2)
    ∧ (k.toNat = 8 → exec (.squery z d k) s = .next ((s.setG d (s.core.slotStatus slot)).finish 4))
    ∧ (k.toNat = 1 → st.state = .locl →
        let u := s.noteIndex s.focus slot p
        ∃ x : Word, exec (.squery z d k) s = .next ((u.setG d x).finish 4)
          ∧ (p < st.total → (x.toNat : Int) = st.addr p (u.core.stream slot).idxv % 2 ^ 56))
    ∧ (k.toNat < 8 → (k.toNat ≠ 1 ∨ st.state ≠ .locl) → ∃ x : Word, exec (.squery z d k) s = .next ((s.setG d x).finish 4)
        ∧ (st.state = .free → x = 0)
        ∧ (st.state ≠ .free → (k.toNat = 2 → fieldOf x 0 48 = st.known.prog % 2 ^ 48) ∧ (k.toNat = 6 → x.toNat = fieldOf st.known.acc 0 64)
            ∧ (k.toNat = 7 → x.toNat = fieldOf st.known.acc 64 64)))
    ∧ (st.state ≠ .recalled → exec (.sresume z) s = Spec.illegal s 2)
    ∧ (st.state = .recalled → s.core.heldOverlap slot st = false → exec (.sresume z) s = .next ((s.startStream s.focus slot st).finish 4))
    ∧ (st.state = .free → exec (.sclose z) s = .next (s.finish 4))
    ∧ (st.state = .locl ∨ st.state = .recalled ∨ st.state = .sunk → ∃ t : State, exec (.sclose z) s = .next (t.finish 4)
        ∧ t.core.stream slot = Stream.reset)

namespace Spec

/-- The line pieces of a run read one after the other at their homes for an agent of die `d`, without poison or error: their bytes and
the state after the accesses (R317). -/
def lineReads (d : Nat) : State → List (Nat × Nat × Nat) → List Byte → State → Prop
  | s, [], bs, u => bs = [] ∧ u = s
  | s, l :: ls, bs, u => s.ev.aux = 0 ∧ ∃ slice line leaf t rest, s.homeLine d (l.1 * 64 + l.2.1) none = (.line slice line leaf, t)
      ∧ line.poisoned l.2.1 l.2.2 = false ∧ bs = line.bytes l.2.1 l.2.2 ++ rest
      ∧ lineReads d (t.countAccess slice (l.1 * 64 + l.2.1) d leaf) ls rest u

/-- The same for several runs, for an agent of core `n`: a run in core-local space is read from the scratchpad (R295). -/
def runReads (n d : Nat) : State → List (Nat × Nat) → List (List Byte) → State → Prop
  | s, [], bss, u => bss = [] ∧ u = s
  | s, r :: rs, bss, u => ∃ bs t rest,
      (if r.2 = 0 then bs = [] ∧ t = s
       else if topByte r.1 = 0xFF then bs = (s.coreAt n).getSpad (r.1 % 2 ^ 48) r.2 ∧ t = s
         ∧ ∀ w ∈ wordsTouched (r.1 % 2 ^ 48) r.2, w ∉ (s.coreAt n).spadPoison
       else lineReads d s (linesOf r.1 r.2) bs t)
      ∧ bss = bs :: rest ∧ runReads n d t rs rest u

/-- Lines that an agent is to write are reached at their homes, or lie in host memory (R277, R420). -/
def linesReached (d : Nat) : State → List (Nat × Nat × Nat) → State → Prop
  | s, [], u => u = s
  | s, l :: ls, u => s.ev.aux = 0 ∧ ∃ r t, s.homeLine d (l.1 * 64 + l.2.1) none = (r, t)
      ∧ ((∃ slice line leaf, r = .line slice line leaf) ∨ ∃ slice pa, r = .remote slice pa) ∧ linesReached d t ls u

/-- Runs of bytes written by an agent as a whole: once every line is reached, `agentPut` writes each run (R277). -/
def runWrites (ag : Agent) (s : State) (rs : List (Nat × List Byte)) (u : State) : Prop :=
  ∃ t, linesReached ag.die s (runLines rs) t ∧ u = rs.foldl (fun a r => a.agentPut ag r.1 r.2) t

/-- Runs that a unit of core `n` finds in its L1 or its scratchpad, without poison (R176, R190). -/
def unitHas (s : State) (n : Nat) (rs : List (Nat × Nat)) : Prop :=
  ∀ r ∈ rs, if topByte r.1 = 0xFF then ∀ w ∈ wordsTouched (r.1 % 2 ^ 48) r.2, w ∉ (s.coreAt n).spadPoison
    else ∀ l ∈ linesOf r.1 r.2, ∀ w ∈ wordsAt (l.1 * 64 + l.2.1) l.2.2, ∃ x, s.l1Word n w = some x ∧ x.poison = false

/-- The value of a run that a unit of core `n` reads there. -/
def unitReads (s : State) (n : Nat) (r : Nat × Nat) : Nat :=
  if topByte r.1 = 0xFF then fromBytesLE ((s.coreAt n).getSpad (r.1 % 2 ^ 48) r.2)
  else fromBytesLE ((bytesAt r.1 r.2).map (fun a => s.l1Byte n a))

/-- The partial after an element of a reduce stream, and its flags (R183): `x` the element's bits, `c` the decoded billet. -/
def folded (st : Stream) (p : StreamPos) (x : Nat) (c : Option (Int × Int)) : StreamPos × Flags :=
  let w := 8 * st.width
  let v : Int := if signedType st.etype then signed w (x % 2 ^ w) else (x : Int)
  let acc := fieldOf p.acc 0 64
  let sets (r : Nat) : StreamPos := { p with acc := BitVec.ofNat 144 r }
  let window (q : Int × Bool) : StreamPos × Flags :=
    let r := windowAdd { a := p.acc, poison := p.pois } q.1 q.2
    ({ p with acc := r.a, pois := r.poison }, 0)
  if st.billets then
    match c with
    | some (q, e) => window (contribution q e st.w, false)
    | none => window (0, true)
  else if st.op = 1 then (sets (wrap (acc + v) 64), 0)
  else if st.op = 2 then
    let r := fAdd fmtF32 .rne acc (if st.etype = 9 then x * 65536 else x)
    (sets r.1, r.2)
  else if st.op = 3 ∨ st.op = 4 then
    match floatOf st.etype with
    | some f =>
      let r := fMinMax f (decide (st.op = 4)) acc x
      (sets r.1, r.2)
    | none =>
      let a : Int := if signedType st.etype then signed 64 acc else (acc : Int)
      (sets (wrap (if st.op = 4 then max a v else min a v) 64), 0)
  else if st.op = 5 then
    let zero : Bool := match floatOf st.etype with
      | some f => (f.unpack x).isZero
      | none => x == 0
    (sets (if zero then acc else (acc + 1) % 2 ^ 64), 0)
  else
    match floatOf st.etype with
    | some f =>
      match f.unpack x with
      | .fin sg m e => window (contribution (if sg then -(m : Int) else m) e st.w, false)
      | _ => window (0, true)
    | none => window (contribution v 0 st.w, false)

end Spec

/-- R182, R183, R186, R188, R251: the six rows of streams, for a slot that their event is about.
The model's choices of logs 33, 36, 104, 107 stand behind it. -/
def Obligations.stream_event_results : Prop :=
  ∀ (s : State),
    let n := s.ev.core
    let slot := s.ev.unit
    let st := s.streamAt n slot
    let p := st.pos
    (st.state = .floated → st.transit = true →
      let s1 := s.setStream n slot { st with live := { st.live with site := s.ev.addr }, transit := false }
      (st.kept ≠ some s.ev.addr →
        exec .streamContextArrive s = .next ((s1.beginRead n slot).post .streamElementPass (streamEv n slot 0)))
      ∧ (st.kept = some s.ev.addr →
        exec .streamContextArrive s = .next ((s1.stopSlot n slot).post .streamContextReturn { streamEv n slot 0 with aux := s.ev.addr })))
    ∧ (s.ev.aux = 0 → st.kind = 2 → st.state = .locl → p.prog < st.total →
      let ag := s.streamAgent n slot
      ∀ idx u, (st.pat ≠ 1 → idx = 0 ∧ u = s) →
        (st.pat = 1 → st.hop = none ∧
          let free := s.freeWord
          let s1 := free.2.setStream n slot { st with idxv := fieldOf free.1 0 32 }
          Spec.unitHas s1 n [(st.idxAddr p.prog, 4)] ∧ idx = Spec.unitReads s1 n (st.idxAddr p.prog, 4)
          ∧ s1.readSegments ag [(st.idxAddr p.prog, 4)] = s1 ∧ s1.agentRefused ag (Need.load st.tagged) (st.idxAddr p.prog) 4 = none
          ∧ u = s1.setStream n slot { s1.streamAt n slot with idxv := idx }
          ∧ 0 ≤ st.addr p.prog idx ∧ st.addr p.prog idx + st.width ≤ (2 : Int) ^ 56) →
        let rs := st.runs p.prog idx
        u.readSegments ag rs = u → (∀ r ∈ rs, r.2 ≠ 0 ∧ u.agentRefused ag (Need.load st.tagged) r.1 r.2 = none) →
        Spec.unitHas u n rs →
        let vs := rs.map (Spec.unitReads u n)
        let e : BilletIn := { i := 0, header := vs.headD 0, code := codeIn st.family p.prog (vs.getD 1 0) }
        let codes := if st.billets then Spec.levelCodes st.fmt [e] else []
        Spec.levelsAt (u.coreAt n) st.fmt codes →
        let f := Spec.folded st p (vs.headD 0)
          (billetDecode st.family e.header e.code st.fmt (Spec.cachedLevels (u.coreAt n) st.family st.fmt codes))
        let bad := st.billets && headerCorrupt e.header st.fmt
        let u2 := if bad then u.logCore n 3 (rs.headD (0, 0)).1 0 else u
        exec .streamElementPass s =
          .next ((u2.dropRemote n).passElement n slot (st.elemAddr p.prog idx / 64) f.1 (f.2 ||| if bad then flagBFLT else 0)))
    ∧ (s.ev.aux = 0 → st.kind = 2 → st.state = .floated → st.transit = false → p.prog < st.total →
      let d := siteDie st.live.site
      let reads (a : State) (rs : List (Nat × Nat)) (bss : List (List Byte)) (u : State) : Prop :=
        let lines := spanLines (rs.filter (fun r => topByte r.1 != 0xFF))
        a.wouldFault d lines = false ∧ ∃ b, Spec.runReads n d a rs bss b ∧ u = if st.noalloc then b.noAllocate a d lines else b
      let passes (a : State) (idx : Nat) : Prop := ∀ bss u1,
        let rs := st.runs p.prog idx
        reads a rs bss u1 →
        let vs := bss.map fromBytesLE
        let e : BilletIn := { i := 0, header := vs.headD 0, code := codeIn st.family p.prog (vs.getD 1 0) }
        let codes := if st.billets then Spec.levelCodes st.fmt [e] else []
        Spec.levelsAt (u1.coreAt n) st.fmt codes →
        let f := Spec.folded st p (vs.headD 0)
          (billetDecode st.family e.header e.code st.fmt (Spec.cachedLevels (u1.coreAt n) st.family st.fmt codes))
        let bad := st.billets && headerCorrupt e.header st.fmt
        let u2 := if bad then u1.logCore n 3 (rs.headD (0, 0)).1 0 else u1
        exec .streamElementPass s =
          .next ((u2.dropRemote n).passElement n slot (st.elemAddr p.prog idx / 64) f.1 (f.2 ||| if bad then flagBFLT else 0))
      (st.pat ≠ 1 → passes s 0)
      ∧ (st.pat = 1 →
        let free := s.freeWord
        ∀ bs b, reads (free.2.setStream n slot { st with idxv := fieldOf free.1 0 32 }) [(st.idxAddr p.prog, 4)] [bs] b →
          let idx := fromBytesLE bs
          let a := b.setStream n slot { b.streamAt n slot with idxv := idx }
          (∀ line, st.hop = some line → st.lineOf p.prog idx ≠ line →
            exec .streamElementPass s = .next ((a.dropRemote n).stayOrHop n slot idx line id))
          ∧ (0 ≤ st.addr p.prog idx → st.addr p.prog idx + st.width ≤ (2 : Int) ^ 56 →
            (st.hop = none → passes a idx)
            ∧ (st.hop = some (st.lineOf p.prog idx) → passes (a.setStream n slot { a.streamAt n slot with hop := none }) idx))))
    ∧ (st.state = .floated → ∃ t : State, exec .progressMark s = .next t
        ∧ (t.streamAt n slot).known = { st.known with prog := s.ev.val.toNat, park := s.ev.flag, site := s.ev.addr }
        ∧ (t.streamAt n slot).state = .floated)
    ∧ (st.state = .floated →
      (st.live.site = s.ev.addr → st.transit = false →
        exec .streamRecallArrive s =
          .next ((s.stopSlot n slot).post .streamContextReturn { streamEv n slot 0 with aux := s.ev.addr }))
      ∧ (st.live.site = s.ev.addr → st.transit = true → exec .streamRecallArrive s = .next (s.setStream n slot { st with kept := some s.ev.addr }))
      ∧ (∀ next, st.live.site ≠ s.ev.addr → tabFind st.forwards s.ev.addr = some next →
        exec .streamRecallArrive s = .next (s.post .streamRecallArrive { streamEv n slot next with aux := s.ev.addr })))
    ∧ (st.state = .floated → ∃ t : State, exec .streamContextReturn s = .next t
        ∧ (st.closing = true → t.streamAt n slot = Stream.reset)
        ∧ (st.closing = false → (t.streamAt n slot).state = .recalled ∧ (t.streamAt n slot).known = { st.live with site := 0xFFFF }))
    ∧ ((st.state = .locl ∨ st.state = .floated) → st.total ≤ p.prog → st.closing = true → exec .streamSink s = .next (s.freeSlot n slot))
    ∧ ((st.state = .locl ∨ st.state = .floated) → st.total ≤ p.prog → st.closing = false → st.dest = true → st.res = 2 →
      exec .streamSink s = .next (s.sinkError n slot 6 st.result0 (some (.reply (ptrAddr st.result0) 5))))
    ∧ (s.ev.aux = 0 → (st.state = .locl ∨ st.state = .floated) → st.total ≤ p.prog → st.closing = false → st.res = 0 →
      let r := st.finalResult p
      let done (u : State) : Prop := exec .streamSink s = .next ((u.setStream n slot { st with flags := st.flags ||| r.2 }).sink n slot r.1)
      (st.dest = false → done s)
      ∧ (st.dest = true →
          let a := ptrAddr st.result0
          let bytes := if st.op = 6 then ({ a := p.acc, poison := p.pois } : WinElem).image else bytesLE 8 r.1.toNat
          let ag := { s.streamAgent n slot with row := Instr.streamSink, die := dieOfCore n }
          s.readSegments ag [(a, bytes.length)] = s → s.agentRefused ag (Need.store false) a bytes.length = none →
          topByte a ≠ 0xFF → a % 64 + bytes.length ≤ 64 →
          ∀ slice l leaf t slice' l' leaf' t', s.homeLine (dieOfCore n) a none = (.line slice l leaf, t) →
            t.homeLine (dieOfCore n) a none = (.line slice' l' leaf', t') →
            let u := (t'.countAccess slice' a (dieOfCore n) leaf').homeStore slice' (a / 64) l' (a % 64) bytes
            ((u.coreAt n).hostWrites = [] → done u)
            ∧ ((u.coreAt n).hostWrites ≠ [] → exec .streamSink s =
                .next ((u.setStream n slot { u.streamAt n slot with res := 1 }).retryLater .streamSink (streamEv n slot 0)))))

namespace Spec

/-- The side of an engine operation whose pointer is `p`, `t` being the type of a plain pointer; the record of a tagged one is in the
format-record cache (R281). -/
def engineSide (s : State) (p : Word) (t : Nat) (side : Side) : Prop :=
  ptrBlc p ≤ 3 ∧ (ptrCode p = 0 → side = .dense t)
  ∧ (ptrCode p ≠ 0 → ∃ r fam, cachedRecord s p = some r ∧ r.family = some fam
      ∧ side = if fam = .dense then .dense r.etype else .billet r fam)

/-- The operation that an engine instruction captures (R279, R280); `typed` adds its records and element types. -/
def captured (s : State) (kind : EngKind) (a b : Reg) : EngOp :=
  { id := 0, kind := kind, ctx := s.curCtx, dst := s.g a, src := s.g b, svc := s.ctx.priv == 2
    ox := #v[s.ctx.ox[0], s.ctx.ox[1], if kind = .copy then 0 else s.ctx.ox[2], if kind = .copy ∨ kind = .conv then 0 else s.ctx.ox[3]]
    recD := FmtRecord.zero, recS := FmtRecord.zero, typeD := 0, typeS := 0, levels := [], done := 0, phase := 0, crc := 0, crcBack := 0
    flags := 0, err := 0, errDw := 0 }
def typed (o : EngOp) (d r : Side) : EngOp := { o with recD := d.record, recS := r.record, typeD := d.type, typeS := r.type }

/-- The state in which an operation has become one of the core's and its first unit is due (R277). -/
def started (s : State) (o : EngOp) : State :=
  ((s.mapCore (fun c => { c with ops := c.ops ++ [{ o with id := s.core.opNext }], opNext := s.core.opNext + 1 })).post .engineUnit
    { Ev.ofCtx s.focus s.curCtx with unit := s.core.opNext }).finish 4

end Spec

/-- R277 to R282, R294: the engine instructions.
The model's choices of logs 24, 34 stand behind it. -/
def Obligations.engine_issue_results : Prop :=
  (∀ (s : State) (a b : Reg) (kind : EngKind) (i : Instr),
    (kind, i) ∈ [(EngKind.copy, Instr.ecopy a b), (.gather, .egather a b), (.scatter, .escatter a b), (.reduce, .ereduce a b), (.conv, .econv a b)] →
    let o := Spec.captured s kind a b
    (8 ≤ s.core.ops.length → exec i s = .next (s.wait .busy))
    ∧ (s.core.ops.length < 8 →
      (o.reservedOk = false → exec i s = Spec.illegal s 1)
      ∧ (o.reservedOk = true → o.fieldsOk = false → o.lateRm = false → exec i s = Spec.illegal s 2)
      ∧ (∀ d, o.reservedOk = true → o.lateRm = true → Spec.engineSide s o.dst o.etype d →
          (d.isBillet = false → floatOf d.type = none → exec i s = Spec.illegal s 1)
          ∧ (d.isBillet = true ∨ floatOf d.type ≠ none → o.fieldsOk = false → exec i s = Spec.illegal s 2))
      ∧ (o.reservedOk = true → o.fieldsOk = true → ∀ d r, Spec.engineSide s o.dst o.etype d →
        Spec.engineSide s o.src (if kind = .conv then o.stype else if o.conv = 1 ∧ d.isBillet = true then d.record.etype else o.etype) r →
        let o1 := Spec.typed o d r
        (o.lateRm = true → d.isBillet = true ∨ floatOf d.type ≠ none) →
        (o1.typesOk d r = true → o1.lateTrap d r = none → exec i s = .next (Spec.started s o1))
        ∧ (o1.typesOk d r = false → o.conv ≠ 0 ∨ (d.isBillet = false ∧ r.isBillet = false) → exec i s = Spec.illegal s 2))))
  ∧ (∀ (s : State) (d : Reg),
    ∃ v : Word, exec (.estat d) s = .next ((s.setG d v).finish 4)
      ∧ fieldOf v 0 4 = s.core.ops.length % 16 ∧ fieldOf v 4 4 = 0 ∧ v.getLsbD 8 = s.core.opLv ∧ fieldOf v 9 7 = 0
      ∧ fieldOf v 16 16 = s.core.opLtag % 65536 ∧ fieldOf v 32 8 = 0 ∧ fieldOf v 40 8 = s.core.opLerr % 256 ∧ fieldOf v 48 16 = 0)

namespace Spec

/-- Two dense elements of a type combined by `ereduce` (R287): `x` of the destination, `y` of the source. -/
def combined (t op : Nat) (mode : RMode) (x y : Nat) : Nat × Flags :=
  let w := 8 * etypeBytes t
  let pick (le : Bool) : Nat := if op = 1 then (if le then x else y) else (if le then y else x)
  match floatOf t with
  | some f => if op = 0 then fAdd f mode x y else fMinMax f (decide (op = 2)) x y
  | none =>
    if op = 0 then ((x + y) % 2 ^ w, 0)
    else (pick (if signedType t then decide (signed w x ≤ signed w y) else decide (x ≤ y)), 0)

/-- The contribution and the poison of a partial record of 16 bytes under window base `w` (R288). -/
def recordTerm (w : Int) (bs : List Byte) : Int × Bool :=
  let q := fromBytesLE ((bs.drop 8).take 8)
  if q / 2 ^ 16 % 2 ^ 47 ≠ 0 then (0, true)
  else (contribution (signed 64 (fromBytesLE (bs.take 8))) (signed 16 (q % 2 ^ 16)) w, decide (2 ^ 63 ≤ q))

/-- The level table as an operation has read it for some codes (R100, R284). -/
def opTable (o : EngOp) (codes : List Nat) : List Int :=
  if codes = [] then [] else (List.range (2 ^ o.fam.codeBits)).map (fun c => (tabFind o.levels c).getD 0)

/-- An engine operation reads runs with a right it needs: the segments well formed, none refused, every byte at hand at its home or in the scratchpad. -/
def engineReads (ag : Agent) (s : State) (need : Need) (rs : List (Nat × Nat)) (bss : List (List Byte)) (u : State) : Prop :=
  s.readSegments ag rs = s ∧ s.agentRefusedAny ag need rs = none ∧ runReads ag.core ag.die s rs bss u

/-- An engine operation writes runs: none refused, every line reached. -/
def engineWrites (ag : Agent) (o : EngOp) (s : State) (rs : List (Nat × List Byte)) (u : State) : Prop :=
  let ranges := rs.map (fun r => (r.1, r.2.length))
  s.readSegments ag ranges = s ∧ s.agentRefusedAny ag (Need.store (ptrCode o.dst ≠ 0)) ranges = none ∧ runWrites ag s rs u

end Spec

/-- R277, R283 to R290: ENGINE_UNIT for an operation in flight. `engNext` makes the next unit due, or the completion.
The model's choices of logs 33, 34, 35, 84 stand behind it. -/
def Spec.engine_unit_results : Prop :=
  ∀ (s : State) (o : EngOp),
    let n := s.ev.core
    let u := o.done
    let ag := s.engAgent n o .engineUnit
    let dst := ptrAddr o.dst
    let src := ptrAddr o.src
    let w := o.dstBytes
    let sw := o.srcBytes
    let step (v : State) (o1 : EngOp) : Prop := exec .engineUnit s = v.engNext n { o1 with done := u + 1 }
    s.ev.aux = 0 → (s.coreAt n).findOp s.ev.unit = some o → o.err = 0 →
    (o.units ≤ u → o.crcOn = true → u < 2 * o.units → (s.coreAt n).hostWrites = [] → ∀ bs t,
      Spec.runReads n ag.die s [o.copyRange (u - o.units)] [bs] t → step t { o with crcBack := crc64 o.crcBack bs })
    ∧ (u < o.units →
      (o.kind = .copy → o.conv = 0 → ∀ bs t v,
        Spec.engineReads ag s o.needSrc [(src + ((o.copyRange u).1 - dst), (o.copyRange u).2)] [bs] t →
        Spec.engineWrites ag o t [((o.copyRange u).1, bs)] v → step v { o with crc := if o.crcOn then crc64 o.crc bs else o.crc })
      ∧ (o.kind = .copy → o.conv = 1 → ∀ bs t v,
        let codes := quenchCodes o.fam o.cands
        let hd := headerOf o.payload (dst + u * o.payload)
        let q := quench o.fam o.recD (Spec.opTable o codes) o.cands
          ((chunks (8 * sw) o.blen (fromBytesLE bs)).map (qinOfFloat ((floatOf o.typeS).getD fmtF32)))
        (∀ c ∈ codes, (tabFind o.levels c).isSome = true) →
        Spec.engineReads ag s o.needSrc [(src + u * o.blen * sw, o.blen * sw)] [bs] t →
        Spec.engineWrites ag o t [(hd, bytesLE 2 q.1), (storeOf o.payload (dst + u * o.payload), packCodes o.fam q.2.1)] v →
        let paired := u ≠ 0 ∧ hd % 4 = 2 ∧ headerOf o.payload (dst + u * o.payload - o.payload) + 2 = hd
        (paired → step (v.agentClean ag (hd - 2)) { o with flags := o.flags ||| q.2.2 })
        ∧ (¬ paired → step v { o with flags := o.flags ||| q.2.2 }))
      ∧ (o.kind = .copy → o.conv = 2 → ∀ h bs t v,
        let f := (floatOf o.typeD).getD fmtF32
        let l := src + u * o.payload
        let codes := chunks o.fam.codeBits o.blen (fromBytesLE bs)
        let levels := usesLevels o.recS (fromBytesLE h)
        let corrupt := headerCorrupt (fromBytesLE h) o.recS
        let rs := codes.map (fun c =>
          match billetDecode o.fam (fromBytesLE h) c o.recS (if levels then Spec.opTable o codes else []) with
          | none => (f.nan, (0 : Flags))
          | some (q, x) => f.roundInt o.rm q x)
        let out := bytesLE (o.blen * w) (joinChunks (8 * w) (rs.map (fun r => r.1)))
        (levels = true → ∀ c ∈ codes, (tabFind o.levels c).isSome = true) →
        Spec.engineReads ag s o.needSrc [(headerOf o.payload l, 2), (storeOf o.payload l, o.payload)] [h, bs] t →
        Spec.engineWrites ag o (if corrupt then t.logEngine n 0x03 (headerOf o.payload l) 0 else t) [((o.copyRange u).1, out)] v →
        step v { o with
          flags := rs.foldl (fun a r => a ||| r.2) (if corrupt then o.flags ||| flagBFLT else o.flags), crc := if o.crcOn then crc64 o.crc out else o.crc })
      ∧ (o.kind = .gather ∨ o.kind = .scatter → ∀ ix t,
        Spec.engineReads ag s (Need.load false) [(o.idxb + 4 * u, 4)] [ix] t →
        let far (base : Nat) : Word := BitVec.ofNat 64 base + BitVec.ofNat 64 (fromBytesLE ix) * o.ox[3]
        let a := far (if o.kind = .gather then src else dst)
        0 ≤ a.toInt → a.toInt + w ≤ (2 : Int) ^ 56 → ∀ bs t' v,
        Spec.engineReads ag t o.needSrc [(if o.kind = .gather then a.toNat else src + u * w, w)] [bs] t' →
        Spec.engineWrites ag o t' [(if o.kind = .gather then dst + u * w else a.toNat, bs)] v → step v o)
      ∧ (o.kind = .reduce → o.op ≠ 3 → ∀ x y t t' v,
        let c := Spec.combined o.typeD o.op o.rm (fromBytesLE x) (fromBytesLE y)
        Spec.engineReads ag s o.needSrc [(src + u * w, w)] [y] t →
        Spec.engineReads ag t (Need.store (ptrCode o.dst ≠ 0)) [(dst + u * w, w)] [x] t' →
        Spec.engineWrites ag o t' [(dst + u * w, bytesLE w c.1)] v → step v { o with flags := o.flags ||| c.2 })
      ∧ (o.kind = .reduce → o.op = 3 → ∀ img bs t v,
        let acc := winOfImage img
        let terms := (List.range o.rpe).map (fun k => Spec.recordTerm o.w ((bs.drop (16 * k)).take 16))
        let out := if o.srck = 0 then windowAdd acc (winOfImage bs).a.toInt (winOfImage bs).poison
          else terms.foldl (fun a p => windowAdd a p.1 p.2) acc
        s.readSegments ag [(src + u * sw, sw)] = s → s.readSegments ag [(dst + u * 32, 32)] = s →
        s.agentRefused ag o.needSrc (src + u * sw) sw = none → s.agentRefused ag (Need.store false) (dst + u * 32) 32 = none →
        (o.srck ≠ 0 → ∀ k, k < o.rpe → fromBytesLE (((bs.drop (16 * k)).take 16).drop 8) / 2 ^ 16 % 2 ^ 47 = 0) →
        Spec.runReads n ag.die s [(dst + u * 32, 32), (src + u * sw, sw)] [img, bs] t →
        Spec.engineWrites ag o t [(dst + u * 32, out.image)] v → step v o)
      ∧ (o.kind = .conv → ∀ bs t v,
        let f := (floatOf o.typeD).getD fmtF32
        let g := (floatOf o.typeS).getD fmtF32
        let line := o.copyRange u
        let a := (line.1 - dst) / w
        let k := (line.1 - dst + line.2 + w - 1) / w - a
        let rs := (List.range k).map (fun i =>
          let e := (bs.drop (i * sw)).take sw
          if o.srcw then windowOut f o.rm (winOfImage e) o.w else fToF g f o.rm (fromBytesLE e))
        Spec.engineReads ag s o.needSrc [(src + a * sw, k * sw)] [bs] t →
        Spec.engineWrites ag o t [(line.1, ((rs.flatMap (fun r => bytesLE w r.1)).drop (line.1 - dst - a * w)).take line.2)] v →
        step v { o with flags := rs.foldl (fun x r => x ||| r.2) o.flags }))

/-- R285, R291 to R294: ENGINE_COMPLETION. `phase` is how far the completion has come: 1 after the CRC, 2 after the signal.
The model's choices of logs 34, 105 stand behind it. -/
def Spec.engine_completion_results : Prop :=
  ∀ (s t u : State) (o o1 : EngOp),
    let n := s.ev.core
    let ag := s.engAgent n o .engineCompletion
    let quiet := o.err ≠ 0 ∨ o.crcOn = false ∨ o.count = 0
    let crcSeen : Prop :=
      (quiet ∧ t = s ∧ o1 = o)
      ∨ (¬ quiet ∧ o.crc ≠ o.crcBack ∧ t = s.logEngine n 0x02 (ptrAddr o.dst) 4 ∧ o1 = { o with err := 4, errDw := o.crc })
      ∨ (¬ quiet ∧ o.crc = o.crcBack ∧ o1 = o ∧ s.readSegments ag [(o.crcAddr, 8)] = s
          ∧ s.agentRefused ag (Need.store (ptrCode o.dst ≠ 0)) o.crcAddr 8 = none ∧ Spec.runWrites ag s [(o.crcAddr, bytesLE 8 o.crc.toNat)] t)
    let waits (v : State) (o2 : EngOp) : Prop :=
      exec .engineCompletion s = .next ((v.putOp n o2).retryLater .engineCompletion { Ev.ofCtx n o.ctx with unit := o.id })
    let completes (u : State) : Prop :=
      let dw0 := inboxDw0 0x13 (if o1.err = 0 then 0 else 1) (o1.err % 16 * 2 ^ 48 + o1.tag * 2 ^ 32 + min o1.done o1.units % 2 ^ 32)
      let dw1 : Word := if o1.err ≠ 0 then o1.errDw else if o1.crcOn then o1.crc else 0
      let v := u.flagOf n ((u.coreAt n).inboxCtx o1.ctx) o1.flags
      let x := if o1.cmode = 2 then v else v.postInbox n o1.ctx 0x1300 dw0 dw1
      exec .engineCompletion s = .next ((x.onCore n (fun c =>
        { c with ops := c.ops.filter (fun y => y.id != o1.id), opLerr := if o1.err = 0 then c.opLerr else o1.err, opLv := true
                 opLtag := o1.tag })).wakeBusy n)
    let signalled : Prop :=
      (o.cmode = 1 → u = t)
      ∧ (o.cmode ≠ 1 → t.ev.aux = 0 ∧ t.readSegments ag [(o.sig, 8)] = t ∧ t.agentRefused ag (Need.both false) o.sig 8 = none
          ∧ ∃ slice l leaf t', t.homeLine ag.die o.sig none = (.line slice l leaf, t') ∧ l.poisoned (o.sig % 64) 8 = false
            ∧ u = (t'.countAccess slice o.sig ag.die leaf).decrementLine slice o.sig l 1)
    (s.coreAt n).findOp s.ev.unit = some o →
    ((o.phase = 0 ∧ crcSeen) ∨ (o.phase = 1 ∧ t = s ∧ o1 = o) →
      ((t.coreAt n).hostWrites ≠ [] → waits t { o1 with phase := 1 })
      ∧ ((t.coreAt n).hostWrites = [] → signalled →
          ((u.coreAt n).hostWrites = [] → completes u) ∧ ((u.coreAt n).hostWrites ≠ [] → waits u { o1 with phase := 2 })))
    ∧ (o.phase = 2 → o1 = o → ((s.coreAt n).hostWrites = [] → completes s) ∧ ((s.coreAt n).hostWrites ≠ [] → waits s o))

/-- The units and the completion of engine operations: the units of engine operations; the completion of an engine
operation. The docstrings of the parts cite the rules; the model's choices of logs 33, 34, 35, 84, 105 stand behind
them. -/
def Obligations.engine_unit_and_completion : Prop :=
  Spec.engine_unit_results ∧ Spec.engine_completion_results

namespace Spec

/-- The command that the matrix unit of a core executes: the first of its queue, of code `opc`, with no reserved bit set (R209). -/
def mxCommand (s : State) (n opc : Nat) (h : MxCmd) : Prop :=
  (s.coreAt n).mx.queue.head? = some h ∧ h.opc = opc ∧ h.reservedSet = false

/-- The state as the sequencer takes a command up: it waits for nothing (R201). -/
def mxTurn (s : State) (n : Nat) : State := s.onMx n (fun m => { m with wait := .none })

/-- A command of one unit has begun and `f` is its effect on the unit; its retirement is due (R199, R209). -/
def mxRetires (s : State) (n : Nat) (f : Matrix → Matrix) : State :=
  (s.onMx n (fun m => { f { m with
    started := true, kprog := 0, wait := .none, slot := 0, group := (s.coreAt n).bcastGrp, recA := FmtRecord.zero, recB := FmtRecord.zero
    flags := 0 } with ending := some (0, 0) })).post .matrixCommandRetire (Ev.ofCtx n 0)

/-- The effect on the accumulator that a command names. -/
def onAcc (h : MxCmd) (f : Acc → Acc) (m : Matrix) : Matrix := m.setAcc h.acc (f (m.accAt h.acc))

/-- `mcvt` of one row (R219): its 32 results and flags, and the scratchpad offset that it goes to. -/
def mcvtRow (h : MxCmd) (t : Tile) (i : Nat) : List (Nat × Flags) :=
  let mode := if h.f0 27 3 = 0 then h.rm else h.f0 27 3 - 4
  let f := if h.f0 30 2 = 0 then fmtF32 else if h.f0 30 2 = 1 then fmtBF16 else fmtF16
  (List.range 32).map (fun j => windowOut f (rmodeOf mode) (t.el (32 * i + j)) t.base)
def mcvtSize (h : MxCmd) : Nat := if h.f0 30 2 = 0 then 4 else 2
def mcvtAt (h : MxCmd) (i : Nat) : Int := (h.dw 2).toNat + i * h.stride

/-- The rows of `mcvt` written to the scratchpad in order, the flags kept for the retirement. -/
def mcvtRows (n : Nat) (h : MxCmd) (t : Tile) : State → List Nat → State
  | s, [] => s
  | s, i :: is =>
    mcvtRows n h t ((s.storeSpad n (mcvtAt h i).toNat ((mcvtRow h t i).flatMap (fun r => bytesLE (mcvtSize h) r.1))).onMx n
      (fun m => { m with flags := (mcvtRow h t i).foldl (fun a r => a ||| r.2) m.flags })) is

end Spec

/-- R200 to R203: `mpush`, `mstat`, `rput` and RING_CONFIG_WRITE.
The model's choice of log 38 stands behind it. -/
def Spec.matrix_instruction_results : Prop :=
  (∀ (s : State) (v : VRegNo), (s.ctx.cidx = 0 ∨ v.toNat < 8) →
    let q := s.core.mx.queue
    let h : MxCmd := { image := (List.range 8).map (fun i => BitVec.ofNat 64 ((s.ctx.getV v.toNat).toNat / 2 ^ (64 * i)))
                       ctx := s.curCtx, rm := fieldOf s.ctx.frm 0 2, svc := s.ctx.priv == 2 }
    let t := s.onMx s.focus (fun m => { m with queue := q ++ [h] })
    (32 ≤ q.length → exec (.mpush v) s = .next (s.wait .busy))
    ∧ (0 < q.length → q.length < 32 → exec (.mpush v) s = .next (t.finish 4))
    ∧ (q = [] → exec (.mpush v) s = .next ((t.mxKick s.focus).finish 4)))
  ∧ (∀ (s : State) (d : Reg),
    let m := s.core.mx
    let state := match m.wait with
      | .tile => 2
      | .fault => 3
      | .none => if m.started then 1 else 0
    exec (.mstat d) s = .next (Spec.wrote s 4 d ((m.lerr * 2 ^ 40 + state * 2 ^ 37 + (if m.lv then 2 ^ 32 else 0) + m.ltag * 2 ^ 16 + m.kprog * 2 ^ 8
      + m.queue.length : Nat) : Int)))
  ∧ (∀ (s : State) (a : Reg) (r : BitVec 3),
    let c := (s.g a).toNat
    let x := s.core.mx.ring r.toNat
    (x.cap = 0 ∨ c = 0 ∨ x.cap < x.fill + c → exec (.rput a r) s = Spec.illegal s 2)
    ∧ (x.cap ≠ 0 → c ≠ 0 → x.fill + c ≤ x.cap → ∃ t : State, exec (.rput a r) s = .next (t.finish 4)
        ∧ (t.core.mx.ring r.toNat) = { x with tail := (x.tail + c) % x.cap, fill := x.fill + c }
        ∧ (∀ q : BitVec 3, q ≠ r → t.core.mx.ring q.toNat = s.core.mx.ring q.toNat)
        ∧ (s.core.mx.wait ≠ .tile → t.agenda = s.agenda)
        ∧ (s.core.mx.wait = .tile → t.agenda = s.agenda ++ [.event .mmaStep { Ev.ofCtx s.focus 0 with unit := s.core.mx.kprog }])))
  ∧ (∀ (s : State),
    let n := s.ev.core
    let v := s.ev.val
    let cap := fieldOf v 40 12
    let ts := fieldOf v 24 16
    let base := fieldOf v 0 19
    let named := (s.coreAt n).mx.queue.any (fun h => h.names s.ev.unit)
    let legal := fieldOf v 52 12 = 0 ∧ fieldOf v 19 5 = 0 ∧ base + cap * ts ≤ 0x80000
      ∧ (cap ≠ 0 → ts % 64 = 0 ∧ 64 ≤ ts ∧ ts ≤ 32768 ∧ base % 64 = 0)
    (legal → named = false → exec .ringConfigWrite s = .next ((s.onMx n (fun m => m.setRing s.ev.unit
      { cap := cap, tsize := ts, base := base, head := 0, tail := 0, fill := 0 })).answer n s.ev.ctx none))
    ∧ (¬ legal ∨ named = true → exec .ringConfigWrite s = .next (s.trapWaiting n s.ev.ctx
        { cause := 4, detail := 0, addr := BitVec.ofNat 64 (0xFF * 2 ^ 48 + 0x110000 + 32 * s.ev.unit) })))

/-- R199, R205, R207, R209, R214, R219, R221 to R223.
The model's choices of logs 38, 39 stand behind it. -/
def Spec.matrix_command_results : Prop :=
  ∀ (s : State) (h : MxCmd),
    let n := s.ev.core
    let x := (s.coreAt n).mx.accAt h.acc
    let retires (i : Instr) (f : Matrix → Matrix) : Prop := exec i s = .next (Spec.mxRetires s n f)
    (Spec.mxCommand s n 1 h → retires .mzero (Spec.onAcc h (fun x => x.setTarget { els := [], w := BitVec.ofNat 16 (h.f0 0 16) })))
    ∧ (Spec.mxCommand s n 9 h → (x.spec = false → retires .mspec (Spec.onAcc h (fun x => { x with shadow := x.live, spec := true })))
      ∧ (x.spec = true → exec .mspec s = .next (((Spec.mxTurn s n).dropRemote n).mxEnd n 9 0)))
    ∧ (Spec.mxCommand s n 10 h → (x.spec = true → retires .mcommit (Spec.onAcc h (fun x => { x with live := x.shadow, spec := false })))
      ∧ (x.spec = false → retires .mcommit (Spec.onAcc h (fun x => x))))
    ∧ (Spec.mxCommand s n 11 h → retires .mdiscard (Spec.onAcc h (fun x => { x with spec := false })))
    ∧ (Spec.mxCommand s n 6 h → h.f0 30 2 ≠ 3 → (h.f0 27 3 = 0 ∨ 4 ≤ h.f0 27 3) →
        (∀ i, i < 32 → Spec.mcvtAt h i % Spec.mcvtSize h = 0 ∧ 0 ≤ Spec.mcvtAt h i ∧ Spec.mcvtAt h i + 32 * Spec.mcvtSize h ≤ 0x80000) →
        exec .mcvt s = .next ((Spec.mcvtRows n h x.target ((Spec.mxTurn s n).mxStart n FmtRecord.zero FmtRecord.zero 0) (List.range 32)).mxEnd n 0 0))
    ∧ (Spec.mxCommand s n 12 h → ((s.coreAt n).hostWrites = [] → retires .mfence (fun m => m))
      ∧ ((s.coreAt n).hostWrites ≠ [] → exec .mfence s =
          .next (((Spec.mxTurn s n).mxStart n FmtRecord.zero FmtRecord.zero 0).retryLater .mfence s.ev)))
    ∧ (Spec.mxCommand s n 13 h → (s.coreAt n).hostWrites = [] →
      let sent := (s.coreAt n).mx.sig
      (h.f0 0 2 = 1 → sent ≠ 2 → retires .msignal (fun m => m))
      ∧ (2 ≤ h.f0 0 2 →
          let sig := h.dw 1
          let a := ptrAddr sig
          let b := (Spec.mxTurn s n).mxStart n FmtRecord.zero FmtRecord.zero 0
          let ag := b.mxAgent n h .msignal 0
          ptrCode sig = 0 → ptrBlc sig ≤ 3 → sig.toNat % 8 = 0 →
          (sent = 2 → exec .msignal s = .next (((Spec.mxTurn s n).dropRemote n).mxEnd n 8 (BitVec.ofNat 64 a)))
          ∧ (sent = 1 → retires .msignal (fun m => m))
          ∧ (sent = 0 → topByte a ≠ 0xFF → s.ev.aux = 0 → b.readSegments ag [(a, 8)] = b → b.agentRefused ag (Need.both false) a 8 = none →
            ∀ slice l leaf t, b.homeLine (dieOfCore n) a none = (.line slice l leaf, t) → l.poisoned (a % 64) 8 = false →
            let v := ((t.countAccess slice a (dieOfCore n) leaf).decrementLine slice a l (h.dw 2)).dropRemote n
            exec .msignal s = .next (if (v.coreAt n).hostWrites = [] then v.mxEnd n 0 0
              else (v.onMx n (fun m => { m with sig := 1 })).retryLater .msignal s.ev))))
    ∧ (Spec.mxCommand s n 13 h → (s.coreAt n).hostWrites ≠ [] → (s.coreAt n).mx.sig = 1 → 2 ≤ h.f0 0 2 → ptrCode (h.dw 1) = 0 →
        ptrBlc (h.dw 1) ≤ 3 → (h.dw 1).toNat % 8 = 0 →
        exec .msignal s = .next (((Spec.mxTurn s n).mxStart n FmtRecord.zero FmtRecord.zero 0).retryLater .msignal s.ev))
    ∧ (∀ rest, (s.coreAt n).mx.queue = h :: rest →
      let m := (s.coreAt n).mx
      let err := s.ev.aux
      let r := m.retireRings h err
      let popped (q : MxRing) : MxRing := { q with head := (q.head + m.kprog) % q.cap, fill := q.fill - m.kprog }
      (∃ t : State, exec .matrixCommandRetire s = .next t
        ∧ (t.coreAt n).mx = { r with
            queue := rest, started := false, kprog := 0, wait := .none, sig := 0, ending := none, flags := 0, lv := true, ltag := h.tag
            lerr := if err = 0 then m.lerr else err })
      ∧ (m.started = true → h.opc = 3 → h.f0 21 1 = 0 → (m.ring h.ra).cap ≠ 0 → r.ring h.ra = popped (m.ring h.ra))
      ∧ (m.started = true → h.opc = 2 → h.ra ≠ h.rb → (m.ring h.ra).cap ≠ 0 → (m.ring h.rb).cap ≠ 0 →
          r.ring h.ra = (if h.f0 21 1 = 0 then popped (m.ring h.ra) else m.ring h.ra)
          ∧ r.ring h.rb = (if h.f0 20 1 = 0 ∧ h.bus = false then popped (m.ring h.rb) else m.ring h.rb))
      ∧ (m.started = true → h.opc = 4 → err = 0 → (m.ring h.ra).cap ≠ 0 →
          r.ring h.ra = { m.ring h.ra with tail := ((m.ring h.ra).tail + 1) % (m.ring h.ra).cap, fill := (m.ring h.ra).fill + 1 })
      ∧ (m.started = false ∨ h.opc ∉ [2, 3, 4] → r = m))

/-- Matrix instructions, ring descriptors, commands of one unit and retirement: the matrix instructions and the ring
descriptors; matrix commands of one unit and retirement. The docstrings of the parts cite the rules; the model's
choices of logs 38, 39 stand behind them. -/
def Obligations.matrix_issue_and_retirement : Prop :=
  Spec.matrix_instruction_results ∧ Spec.matrix_command_results

namespace Spec

/-- A format record whose doublewords the format-record cache of a core holds (R98, R102). -/
def recordIn (c : Core) (code : Nat) : Option FmtRecord :=
  let a := c.recordAddr code
  match tabFind c.fmtCache (a % 2 ^ 56), tabFind c.fmtCache ((a + 8) % 2 ^ 56), tabFind c.fmtCache ((a + 16) % 2 ^ 56),
    tabFind c.fmtCache ((a + 24) % 2 ^ 56) with
  | some w0, some w1, some w2, some w3 => some { dw0 := w0, dw1 := w1, dw2 := w2, dw3 := w3 }
  | _, _, _, _ => none

/-- The operand that a code, a block-length code and an element type name (R212). -/
def mxNames (c : Core) (code blc etype : Nat) (x : MxOperand) : Prop :=
  blc ≤ 3 ∧ (code = 0 → x = .dense etype)
  ∧ (code ≠ 0 → etype = 0 ∧ ∃ r fam, recordIn c code = some r ∧ r.family = some fam
      ∧ x = if fam = .dense then .dense r.etype else .billet r fam blc)

/-- An operand named by a 16-bit descriptor, and a memory operand with its descriptor (R212). -/
def mxDescribes (c : Core) (d : Nat) (x : MxOperand) : Prop := mxNames c (bitsOf d 11 5) (bitsOf d 8 3) (bitsOf d 4 4) x
def mxPoints (c : Core) (p : Word) (d : Nat) (x : MxOperand) : Prop :=
  bitsOf d 8 8 = 0 ∧ mxNames c (ptrCode p) (ptrBlc p) (bitsOf d 4 4) x

/-- A ring is configured for tiles of `ts` bytes and `k` steps (R215). -/
def ringFits (m : Matrix) (r ts k : Nat) : Prop := (m.ring r).cap ≠ 0 ∧ ts ≤ (m.ring r).tsize ∧ k ≤ (m.ring r).cap

/-- The level codes that the blocks of an operand's lines need (R100), in the format-record cache of a core, and the table out of it. -/
def mxCodes (x : MxOperand) (ls : List (List MxBlock)) : List Nat :=
  match x with
  | .dense _ => []
  | .billet r fam blc => levelsNeeded r fam blc ls
def levelsReady (c : Core) (x : MxOperand) (ls : List (List MxBlock)) : Prop := levelsAt c x.record (mxCodes x ls)
def mxTable (c : Core) (x : MxOperand) (ls : List (List MxBlock)) : List Int :=
  match x with
  | .dense _ => []
  | .billet r fam _ => cachedLevels c fam r (mxCodes x ls)

/-- The flag of an operand's lines: BFLT where a header is corrupt (R105, R215). -/
def mxFlags (x : MxOperand) (ls : List (List MxBlock)) : Flags := if ls.flatten.any (fun b => b.corrupt x) then flagBFLT else 0

/-- A K step has been applied to the accumulator of a command (R215): each element takes its contribution, a corrupt header sets BFLT for
the retirement; nothing else of the accumulators, the rings and the queue changes. -/
def mxSummed (s t : State) (n : Nat) (h : MxCmd) (xa xb : MxOperand) (ta tb : List (List MxBlock)) : Prop :=
  let m := (s.coreAt n).mx
  let u := (t.coreAt n).mx
  (∀ i j, i < 32 → j < 32 →
    let c := lineDot (m.accAt h.acc).target.base ((ta.getD i []).map (fun b => b.decode xa (mxTable (s.coreAt n) xa ta)))
      ((tb.getD j []).map (fun b => b.decode xb (mxTable (s.coreAt n) xb tb)))
    (u.accAt h.acc).target.el (32 * i + j) = windowAdd ((m.accAt h.acc).target.el (32 * i + j)) c.1 c.2)
  ∧ (u.accAt h.acc).target.w = (m.accAt h.acc).target.w ∧ (∀ a, a < 4 → a ≠ h.acc → u.accAt a = m.accAt a)
  ∧ u.kprog = m.kprog + 1 ∧ u.rings = m.rings ∧ u.queue = m.queue ∧ u.flags = m.flags ||| mxFlags xa ta ||| mxFlags xb tb

/-- As `mxSummed`, and the next step or the retirement is due (R199, R215). -/
def mxStepped (s t : State) (n : Nat) (h : MxCmd) (xa xb : MxOperand) (ta tb : List (List MxBlock)) : Prop :=
  let k := (s.coreAt n).mx.kprog + 1
  mxSummed s t n h xa xb ta tb
  ∧ t.agenda.getLast? = some (if h.k ≤ k then .event .matrixCommandRetire (Ev.ofCtx n 0)
      else .event .mmaStep { Ev.ofCtx n h.ctx with unit := k })

/-- The lines of operand A that the executing command of a core reads at its step, and of B out of a tile (R204, R205). -/
def linesA (c : Core) (h : MxCmd) : List (List MxBlock) :=
  (c.slotTile ((c.mx.ring h.ra).slotOff c.mx.kprog) (c.mx.opA h).ts).lines (c.mx.opA h)
def tileB (c : Core) (h : MxCmd) : RawTile := c.slotTile ((c.mx.ring h.rb).slotOff c.mx.kprog) (c.mx.opB h).ts

/-- Runs written by a command one after the other (R218). -/
def writesInTurn (ag : Agent) : State → List (Nat × List Byte) → State → Prop
  | s, [], u => u = s
  | s, r :: rs, u => ∃ t, runWrites ag s [r] t ∧ writesInTurn ag t rs u

/-- A unit of a row-by-row command is done: the next row is due, or the command retires (R199). -/
def rowDone (s : State) (n : Nat) (row : Instr) (ctx : Nat) : State := s.mxRowDone n row ctx 32

end Spec

/-- R212, R215, R216, R224, R225, R272: the starts of `mma` and `mmab` and MMA_STEP, with the level entries its blocks need in
the format-record cache; the bus delivers the tile of the source it serves to every member of its group, or waits when no source is ready.
The model's choices of logs 33, 38, 40, 106 stand behind it. -/
def Obligations.matrix_product_results : Prop :=
  ∀ (s : State) (h : MxCmd) (xa xb : MxOperand),
    let n := s.ev.core
    let c := s.coreAt n
    let m := c.mx
    let begun := ((((Spec.mxTurn s n).mxStart n xa.record xb.record 0).dropRemote n).post .mmaStep { Ev.ofCtx n h.ctx with unit := 0 })
    (Spec.mxCommand s n 2 h → Spec.mxDescribes c (fieldOf (h.dw 1) 48 16) xa → Spec.mxDescribes c (fieldOf (h.dw 1) 32 16) xb →
      xa.ok = true → xb.ok = true → xa.pairs xb = true → h.k ≠ 0 → (h.ra ≠ h.rb ∨ h.bus = true) → c.busBad (posOfCore n) h = false →
      Spec.ringFits m h.ra xa.ts h.k → (h.bus = false → Spec.ringFits m h.rb xb.ts h.k) → exec .mma s = .next begun)
    ∧ (Spec.mxCommand s n 3 h → Spec.mxDescribes c (fieldOf (h.dw 1) 48 16) xa → Spec.mxPoints c (h.dw 2) (fieldOf (h.dw 1) 32 16) xb →
      xa.ok = true → xb.ok = true → xa.pairs xb = true → h.k ≠ 0 → xb.memOk h = true → Spec.ringFits m h.ra xa.ts h.k →
      exec .mmab s = .next begun)
    ∧ (m.queue.head? = some h → m.started = true → m.kprog = s.ev.unit → m.kprog < h.k →
      let a := m.opA h
      let b := m.opB h
      let ta := Spec.linesA c h
      (h.opc = 2 → h.bus = false → h.bcast = false → m.kprog < (m.ring h.ra).fill → m.kprog < (m.ring h.rb).fill →
        let tb := (Spec.tileB c h).lines b
        Spec.levelsReady c a ta → Spec.levelsReady c b tb → ∃ t, exec .mmaStep s = .next t ∧ Spec.mxStepped s t n h a b ta tb)
      ∧ ((h.opc = 2 ∨ h.opc = 3) → (m.ring h.ra).fill ≤ m.kprog ∨ (h.opc = 2 ∧ h.bus = false ∧ (m.ring h.rb).fill ≤ m.kprog) →
        ∃ t, exec .mmaStep s = .next t ∧ (t.coreAt n).mx = { m with wait := .tile } ∧ t.agenda = s.agenda)
      ∧ (h.opc = 2 → h.bus = true ∨ h.bcast = true → m.kprog < (m.ring h.ra).fill → (h.bus = false → m.kprog < (m.ring h.rb).fill) →
        let u := (Spec.mxTurn s n).onMx n (fun m => { m with wait := .tile })
        (u.busSource (clusterOfCore n) = none → exec .mmaStep s = .next u)
        ∧ (∀ src hs, u.busSource (clusterOfCore n) = some src → (u.coreAt src).mx.queue.head? = some hs →
          let parts := src :: busMembers src (u.coreAt src).mx.group
          let tile := Spec.tileB (u.coreAt src) hs
          (∀ p ∈ parts, (u.coreAt p).mx.group = (u.coreAt src).mx.group) →
          (∀ p ∈ parts, ∀ hp, (u.coreAt p).mx.queue.head? = some hp → ((u.coreAt p).mx.opB hp).ts ≤ tile.size
            ∧ Spec.levelsReady (u.coreAt p) ((u.coreAt p).mx.opA hp) (Spec.linesA (u.coreAt p) hp)
            ∧ Spec.levelsReady (u.coreAt p) ((u.coreAt p).mx.opB hp) (tile.lines ((u.coreAt p).mx.opB hp))) →
          ∃ t, exec .mmaStep s = .next t ∧ ∀ p ∈ parts, ∀ hp, (u.coreAt p).mx.queue.head? = some hp →
            Spec.mxSummed u t p hp ((u.coreAt p).mx.opA hp) ((u.coreAt p).mx.opB hp) (Spec.linesA (u.coreAt p) hp)
              (tile.lines ((u.coreAt p).mx.opB hp))))
      ∧ (h.opc = 3 → m.kprog < (m.ring h.ra).fill → s.ev.aux = 0 →
        let runs := (List.range 32).flatMap (fun i => (List.range b.blocks).flatMap (fun kb => b.memRuns h m.kprog i kb))
        let rs := runs.map (fun r => (r.1.toNat, r.2))
        (∀ r ∈ runs, 0 ≤ r.1 ∧ r.1 + r.2 ≤ (2 : Int) ^ 56) →
        (Spec.mxTurn s n).readSegments (s.mxAgent n h .mmaStep m.kprog) rs = Spec.mxTurn s n →
        (Spec.mxTurn s n).agentRefusedAny (s.mxAgent n h .mmaStep m.kprog) (Need.load (ptrCode (h.dw 2) ≠ 0)) rs = none →
        ∀ bss u, Spec.runReads n (dieOfCore n) (Spec.mxTurn s n) rs bss u → (u.coreAt n).mx = { m with wait := .none } →
        (u.coreAt n).spad = c.spad → (u.coreAt n).spadPoison = c.spadPoison →
        let bs := b.blocksOf (bss.map (fun x => (x, []))) runs
        let tb := (List.range 32).map (fun i => (bs.drop (i * b.blocks)).take b.blocks)
        Spec.levelsReady (u.coreAt n) a ta → Spec.levelsReady (u.coreAt n) b tb →
        ∃ t, exec .mmaStep s = .next t ∧ Spec.mxStepped u t n h a b ta tb))

/-- R212, R213, R217, R218, R220: the commands that go row by row through memory, at rows without poison.
The model's choices of logs 33, 38, 39, 41, 105, 106 stand behind it. -/
def Obligations.matrix_memory_results : Prop :=
  ∀ (s : State) (h : MxCmd) (x : MxOperand),
    let n := s.ev.core
    let c := s.coreAt n
    let m := c.mx
    let k := m.kprog
    let p := h.dw 2
    let s0 := Spec.mxTurn s n
    let begun (i : Instr) (r : FmtRecord) (slot : Nat) (drop : Bool) : Prop :=
      let u := s0.mxStart n r FmtRecord.zero slot
      exec i s = .next ((if drop then u.dropRemote n else u).post i { Ev.ofCtx n h.ctx with unit := 0 })
    let row (opc : Nat) : Prop := m.queue.head? = some h ∧ h.opc = opc ∧ m.started = true ∧ k = s.ev.unit ∧ k < 32 ∧ s.ev.aux = 0
    let reads (i : Instr) (rs : List (Nat × Nat)) (bss : List (List Byte)) (u : State) : Prop :=
      s0.readSegments (s.mxAgent n h i k) rs = s0 ∧ s0.agentRefusedAny (s.mxAgent n h i k) (Need.load (ptrCode p ≠ 0)) rs = none
      ∧ Spec.runReads n (dieOfCore n) s0 rs bss u
    let writable (i : Instr) (rs : List (Nat × List Byte)) : Prop :=
      let runs := rs.map (fun r => (r.1, r.2.length))
      s0.readSegments (s.mxAgent n h i k) runs = s0 ∧ s0.agentRefusedAny (s.mxAgent n h i k) (Need.store (ptrCode p ≠ 0)) runs = none
    (Spec.mxCommand s n 4 h → m.started = false → Spec.mxPoints c p (fieldOf (h.dw 1) 48 16) x → x.ok = true → x.memOk h = true →
      (m.ring h.ra).cap ≠ 0 → x.ts ≤ (m.ring h.ra).tsize → (m.ring h.ra).fill ≠ (m.ring h.ra).cap →
      begun .mrload x.record (m.ring h.ra).tail true)
    ∧ (row 4 → x = m.opD h →
      let runs := (List.range x.blocks).flatMap (fun kb => x.memRuns h 0 k kb)
      (∀ r ∈ runs, 0 ≤ r.1 ∧ r.1 + r.2 ≤ (2 : Int) ^ 56) → ∀ bss u, reads .mrload (runs.map (fun r => (r.1.toNat, r.2))) bss u →
      let slot := (m.ring h.ra).base + m.slot * (m.ring h.ra).tsize
      let data := bss.map (fun b => (b, ([] : List Nat)))
      exec .mrload s = .next (Spec.rowDone ((List.range x.blocks).foldl (fun a kb =>
        a.putBlock n x slot k kb ((data.drop (kb * x.perBlock)).take x.perBlock) ((runs.drop (kb * x.perBlock)).take x.perBlock)) u) n .mrload h.ctx))
    ∧ (Spec.mxCommand s n 5 h → m.started = false → ∀ r fam blc, Spec.mxNames c (ptrCode p) (ptrBlc p) 0 (.billet r fam blc) →
      (h.f0 0 3 = 7 → r.ltab ≠ 0) → blc ≤ 1 → (h.f0 0 3 = 0 ∨ 4 ≤ h.f0 0 3) →
      ptrAddr p % fam.payload (blenOf blc) = 0 → h.stride % fam.payload (blenOf blc) = 0 → begun .mqst r 0 true)
    ∧ (row 5 → ∀ r fam blc, operandOf (ptrCode p) (ptrBlc p) 0 m.recA = .billet r fam blc →
      let blen := blenOf blc
      let pay := fam.payload blen
      let cands := if h.f0 0 3 = 0 then maskSels r.mask else [h.f0 0 3 - 4]
      let t := (m.accAt h.acc).target
      let at' (kb : Nat) : Int := (ptrAddr p : Int) + k * h.stride + ((kb * pay : Nat) : Int)
      let q (kb : Nat) := quench fam r (Spec.cachedLevels c fam r (quenchCodes fam cands)) cands
        ((List.range blen).map (fun j => qinOfWindow (t.el (32 * k + kb * blen + j)) t.base))
      let rs := billetStores fam ((List.range (32 / blen)).map (fun kb =>
        (headerOf pay (at' kb).toNat, (q kb).1, storeOf pay (at' kb).toNat, (q kb).2.1)))
      (r.ltab ≠ 0 → Spec.levelsAt c r (quenchCodes fam cands)) →
      (∀ kb, kb < 32 / blen → 0 ≤ at' kb ∧ storeOf pay (at' kb).toNat + pay ≤ 2 ^ 56 ∧ headerOf pay (at' kb).toNat + 2 ≤ 2 ^ 56) →
      writable .mqst rs → ∀ u, Spec.writesInTurn (s.mxAgent n h .mqst k) s0 rs u →
      exec .mqst s = .next (Spec.rowDone (u.onMx n (fun m =>
        { m with flags := m.flags ||| (List.range (32 / blen)).foldl (fun a kb => a ||| (q kb).2.2) 0 })) n .mqst h.ctx))
    ∧ (Spec.mxCommand s n 7 h → m.started = false → ptrCode p = 0 → ptrBlc p ≤ 3 → ptrAddr p % 32 = 0 →
      (topByte (ptrAddr p) = 0xFF → ptrAddr p % 2 ^ 48 + 32768 ≤ 0x80000) → begun .mstw FmtRecord.zero 0 false)
    ∧ (Spec.mxCommand s n 8 h → m.started = false → ptrCode p = 0 → ptrBlc p ≤ 3 → ptrAddr p % 32 = 0 →
      (topByte (ptrAddr p) = 0xFF → ptrAddr p % 2 ^ 48 + 32768 ≤ 0x80000) → begun .mldw FmtRecord.zero 0 false)
    ∧ (row 7 →
      let a := ptrAddr p + 1024 * k
      let run := (a, (List.range 32).flatMap (fun j => ((m.accAt h.acc).target.el (32 * k + j)).image))
      a + 1024 ≤ 2 ^ 56 → writable .mstw [run] → ∀ u, Spec.runWrites (s.mxAgent n h .mstw k) s0 [run] u →
      exec .mstw s = .next (Spec.rowDone u n .mstw h.ctx))
    ∧ (row 8 →
      let a := ptrAddr p + 1024 * k
      a + 1024 ≤ 2 ^ 56 → ∀ bs u, reads .mldw [(a, 1024)] [bs] u → ∃ v, exec .mldw s = .next (Spec.rowDone v n .mldw h.ctx)
        ∧ (∀ j, j < 32 → ((v.coreAt n).mx.accAt h.acc).target.el (32 * k + j) = winOfImage ((bs.drop (32 * j)).take 32))
        ∧ ((v.coreAt n).mx.accAt h.acc).target.w = BitVec.ofNat 16 (h.f0 0 16)
        ∧ (∀ e, e < 32 * k ∨ 32 * k + 32 ≤ e →
            ((v.coreAt n).mx.accAt h.acc).target.el e = ((u.coreAt n).mx.accAt h.acc).target.el e))

/-- R47, R48, R241 to R247, R370: the rows of messages and interrupts.
The model's choices of logs 29, 48, 87, 93, 111 stand behind it. -/
def Obligations.message_results : Prop :=
  (∀ (s : State) (a : Reg) (v : VRegNo) (t : Task),
    let w := s.g a
    let dest := fieldOf w 0 12
    let ring := fieldOf w 12 3
    let k := dest * 8 + ring
    let seq := tabGet 0 (s.coreAt t.key).seqOut k
    let refused := exec (.send a v) s = .next ((s.logCore s.focus 6 w.toNat 0).raise { cause := 4, detail := 0, addr := w })
    let legal := w.getLsbD 15 = false ∧ fieldOf w 19 45 = 0 ∧ dest < 4032 ∧ (s.ctx.cidx = 0 ∨ v.toNat < 8)
    (w.getLsbD 15 = true ∨ fieldOf w 19 45 ≠ 0 → exec (.send a v) s = Spec.illegal s 1)
    ∧ (legal → s.core.task = none → refused)
    ∧ (legal → s.core.task = some t → s.partHolds t.part (dest / 16) = false → refused)
    ∧ (legal → s.core.task = some t → s.partHolds t.part (dest / 16) = true → 8 ≤ s.core.unaccepted ∨ s.core.retry ≠ [] →
        exec (.send a v) s = .next (s.wait .busy))
    ∧ (legal → s.core.task = some t → s.partHolds t.part (dest / 16) = true → s.core.unaccepted < 8 → s.core.retry = [] →
        ∃ (u : State) (m : Msg), exec (.send a v) s = .next ((u.post .messageArrival m.toEv).finish 4)
          ∧ m.key = t.key ∧ m.sender = s.focus ∧ m.ctx = s.ctx.cidx ∧ m.part = t.part ∧ m.dest = dest ∧ m.ring = ring ∧ m.seq = seq
          ∧ m.data.length = fieldOf w 16 3 + 1 ∧ (∀ i, i ≤ fieldOf w 16 3 → (m.data.getD i 0).toNat = (s.ctx.getV v.toNat).toNat / 2 ^ (64 * i) % 2 ^ 64)
          ∧ (u.coreAt s.focus).unaccepted = s.core.unaccepted + 1 ∧ (u.coreAt s.focus).task = some { t with sent := t.sent + 1 }
          ∧ tabGet 0 (u.coreAt t.key).seqOut k = (seq + 1) % 2 ^ 32 ∧ u = { s with cores := u.cores }))
  ∧ (∀ (s : State) (d : Reg) (n : BitVec 3) (v : VRegNo),
    let r := n.toNat
    let c := s.core
    let m := c.msgRing r
    let off := c.slotOff r m.head
    (c.ringCap r = 0 → exec (.recv d n v) s = Spec.illegal s 2)
    ∧ (c.ringCap r ≠ 0 → (s.ctx.cidx = 0 ∨ v.toNat < 8) →
      (m.fill = 0 → exec (.recv d n v) s = .next ((s.mapCore (fun c => { c with recvQueue := c.recvQueue ++ [(r, s.curCtx.val)] })).wait (.ring r)))
      ∧ (m.fill ≠ 0 → (∀ w ∈ wordsTouched off 72, w ∉ c.spadPoison) →
        ∃ u : State, exec (.recv d n v) s = .next ((u.drainRing s.focus r 64).finish 4)
          ∧ u.core.msgRing r = { m with head := (m.head + 1) % c.ringCap r, fill := m.fill - 1 }
          ∧ u.g d = (if d = 0 then 0 else BitVec.ofNat 64 (fromBytesLE (c.getSpad off 8)))
          ∧ fieldOf (u.ctx.getV v.toNat) 0 512 = fromBytesLE (c.getSpad (off + 8) 64)
          ∧ fieldOf (u.ctx.getV v.toNat) 512 1536 = fieldOf (s.ctx.getV v.toNat) 512 1536
          ∧ (∀ q, q ≠ d → u.g q = s.g q))))
  ∧ (∀ (s : State) (d e : Reg),
    let mine (x : InboxEntry) : Bool := x.ctx == s.curCtx.val
    let gives (u : State) (a b : Word) : State := ((u.setG d a).setG e b).finish 4
    (s.core.inbox.find? mine = none → exec (.ipop d e) s = .next (gives s 0 0) ∧ exec (.ipeek d e) s = .next (gives s 0 0))
    ∧ (∀ x, s.core.inbox.find? mine = some x →
      exec (.ipeek d e) s = .next (gives s x.dw0 x.dw1)
      ∧ exec (.ipop d e) s = .next (gives ((s.mapCore (fun c =>
          Core.postDeferred { c with inbox := c.inbox.eraseP mine } c.deferred)).acquire s.focus .system) x.dw0 x.dw1)))
  ∧ (∀ s : State,
    (s.ctx.uliStat.getLsbD 1 = false → exec .uret s = Spec.illegal s 2)
    ∧ (s.ctx.uliStat.getLsbD 1 = true → ∃ x : Ctx, exec .uret s = .next (s.setCtxAt s.focus s.curCtx x)
        ∧ x.pc.toNat = fieldOf s.ctx.g[31] 1 55 * 2 ∧ x.uliStat.getLsbD 1 = false ∧ (∀ i, i ≠ 1 → x.uliStat.getLsbD i = s.ctx.uliStat.getLsbD i)
        ∧ (∀ r : Reg, x.getG r = if h : 24 ≤ r.toNat then s.ctx.shadow[r.toNat - 24] else s.ctx.getG r))
    ∧ (s.core.uliDue s.curCtx = true → ∃ t : State, exec .uliEntry s = .next t ∧ t.ctx.wait = none
        ∧ t.ctx.pc.toNat = fieldOf s.ctx.uliVec 1 55 * 2 ∧ t.ctx.g[31] = s.ctx.pc.setWidth 64 ∧ t.ctx.uliStat.getLsbD 1 = true
        ∧ (∀ i : Fin 8, t.ctx.shadow[i] = s.ctx.g[24 + i.val]) ∧ (∀ r : Reg, r ≠ 31 → t.g r = s.g r)))
  ∧ (∀ s : State,
    let m := s.ev.toMsg
    let c := s.coreAt m.dest
    let k := m.key * 8 + m.ring
    let p := s.partAt m.part
    let seq := tabGet 0 c.expected k
    let refused (u : State) := exec .messageArrival s = .next ((u.onCore m.sender (fun c => { c with retry := c.retry ++ [m] })).retryLater
      .messageRetry { Ev.empty with core := m.sender })
    s.reach (dieOfCore m.sender) (dieOfCore m.dest) false = none → p.switchedOut = false →
    (∀ v ∈ p.saved, ¬ (16 * v.cluster + v.slot = m.dest ∧ v.slot < 16)) → (∃ t, c.task = some t ∧ t.part = m.part) →
    (m.seq = seq → (c.msgRing m.ring).fill < c.ringCap m.ring → m.ring < 8 →
      ∃ u : State, exec .messageArrival s = .next ((u.serveRecv m.dest m.ring).drainRing m.dest m.ring 64)
        ∧ (u.coreAt m.dest).msgRing m.ring = { c.msgRing m.ring with
            tail := ((c.msgRing m.ring).tail + 1) % c.ringCap m.ring, fill := (c.msgRing m.ring).fill + 1 }
        ∧ tabGet 0 (u.coreAt m.dest).expected k = (m.seq + 1) % 2 ^ 32
        ∧ (Inv s → (c.msgRing m.ring).tail < c.ringCap m.ring → m.data.length ≤ 8 →
            ∀ i, i < 8 * (m.data.length + 1) → memByte (u.coreAt m.dest).spad (c.slotOff m.ring (c.msgRing m.ring).tail + i) =
              BitVec.ofNat 8 (((m.header :: m.data).getD (i / 8) 0).toNat / 256 ^ (i % 8))))
    ∧ (m.seq = seq → c.ringCap m.ring ≤ (c.msgRing m.ring).fill → refused (s.readRing m.dest m.ring))
    ∧ (m.seq ≠ seq → c.reorder.length < 64 → exec .messageArrival s = .next (s.onCore m.dest (fun c => { c with reorder := c.reorder ++ [m] })))
    ∧ (m.seq ≠ seq → 64 ≤ c.reorder.length → refused s))
  ∧ (∀ s : State,
    let u := (s.onCore s.ev.core (fun c => { c with retry := [] })).wakeBusy s.ev.core
    exec .messageRetry s = .next { u with agenda := u.agenda ++ (s.coreAt s.ev.core).retry.map (fun m => .event .messageArrival m.toEv) })
  ∧ (∀ s : State, s.ev.unit < 8 → s.ev.flag = false → ∃ u : State, exec .msgRingConfigWrite s = .next (u.drainRing s.ev.core s.ev.unit 64)
    ∧ (u.coreAt s.ev.core).msgRing s.ev.unit = { head := 0, tail := 0, fill := 0 })
  ∧ (∀ s : State, s.ev.flag = true → exec .msgRingConfigWrite s = .next (s.drainRing s.ev.core s.ev.unit 64))
  ∧ (∀ (s : State) (m : TrapMsg), (s.ctxAt s.ev.core s.ev.ctx).fwd = some m →
    let mine (d : List Word) : Prop := fieldOf (d.headD 0) 48 16 = s.ev.core ∧ fieldOf (d.headD 0) 44 4 = s.ev.ctx
    (∃ t : State, exec .trapMessageReplyResume s = .next t
      ∧ t.ctxAt s.ev.core s.ev.ctx = { s.ctxAt s.ev.core s.ev.ctx with
          wait := none, fwd := none, heldReply := none, got := [], lost := [], pc := BitVec.ofNat 56 (fieldOf s.ev.val 1 55 * 2) }
      ∧ (∀ p ∈ t.trapMsgs, ¬ mine p.2) ∧ (∀ p ∈ s.trapMsgs, ¬ mine p.2 → p ∈ t.trapMsgs))
    ∧ (∀ w p q, (s.ctxAt s.ev.core s.ev.ctx).wait = some w → m.pos < p → p < 4 → s.chainMember (clusterOfCore s.ev.core) p = some q →
        (∀ j, m.pos < j → j < p → s.chainMember (clusterOfCore s.ev.core) j = none) →
        ∃ t : State, exec .trapMessageReplyPass s = .next t
          ∧ t.ctxAt s.ev.core s.ev.ctx = { s.ctxAt s.ev.core s.ev.ctx with
              wait := some { why := .trapReply, ir := w.ir }, fwd := some { m with pos := p } }
          ∧ t.trapMsgs.getLast? = some (q, ({ m with pos := p } : TrapMsg).image s.ev.core s.ev.ctx)))

namespace Spec

/-- A unit has looked at a barrier (R257): nothing happens while its part is not complete; else it tells its parent once, or, as a root
below the fabric level, completes: the generation moves on, the arrivals clear and every waiting context goes on. -/
def progressed (s t : State) (cl k : Nat) : Prop :=
  let x := (s.clusterAt cl).barrier k
  (x.own = none ∨ x.brk = true → t = s)
  ∧ ∀ m, x.own = some m → x.brk = false →
    (x.partDone m cl = false → t = s)
    ∧ (x.partDone m cl = true →
      (∀ p, m.parent x.level cl = some p →
        (x.clDone = true → t = s)
        ∧ (x.clDone = false → t = (s.onBarrier cl k (fun y => { y with clDone := true })).post .barrierEventMessage (barrierMsg k cl p x.gen m false)))
      ∧ (m.parent x.level cl = none → x.level ≠ 3 →
        (t.clusterAt cl).barrier k = { x with
          gen := x.gen + 1, arrived := [], own := none, clDone := false, heardDie := [], heardPkg := [], heardFab := [], waiters := [] }
        ∧ ∀ w ∈ x.waiters, (s.ctxAt (16 * cl + w.pos) w.ctx).euWait ≠ none → (t.ctxAt (16 * cl + w.pos) w.ctx).wait = none))

/-- A barrier once an arrival of context `i` of core `n` under the masks `m` has been counted (R255, R257). -/
def arrivedAt (n i : Nat) (m : DomMasks) (x : Barrier) : Barrier :=
  { x with
    arrivals := tabPut x.arrivals (n % 16 * 16 + i) x.gen.toNat
    own := if n % 16 ∈ x.arrived then x.own else some (x.own.getD m)
    arrived := if n % 16 ∈ x.arrived then x.arrived else insertNat (n % 16) x.arrived }

/-- A waiting load completes with a status and an acquire at a scope (R253, R258). -/
def granted (s : State) (n i : Nat) (v : Word) (z : Scope) : State := (s.acquire n z).answer n i (some v)

end Spec

/-- R252 to R262, R265, R424: the rows of the event unit.
The model's choices of logs 26, 27, 30 stand behind it. -/
def Obligations.event_unit_results : Prop :=
  (∀ (s : State) (d a b : Reg) (ea : Nat), Spec.pointerOk s (s.g a) → Spec.reaches (s.g a) 0 8 ea →
    let lim := some (s.g b)
    let asks (off : Nat) (row : Instr) (k : Nat) : Prop :=
      exec (.waitt d a b) s = .next ((s.post row { Ev.ofCtx s.focus s.curCtx with unit := k, flag := true, data := [s.g b] }).wait (.window off lim))
    let cls := if windowReserved (s.g a).toNat && s.ctx.priv == 2 then 7 else 6
    let refused := exec (.waitt d a b) s = .next ((s.logCore s.focus cls (s.g a).toNat 0).raise { cause := 4, detail := 0, addr := s.g a })
    (∀ off, windowOf s.ctx.priv ea = .unit off →
      (∀ k, (euWord off = some (.arrive k) → asks off .arriveLoad k) ∧ (euWord off = some (.wait k) → asks off .waitLoad k)
        ∧ (euWord off = some (.lock k) → asks off .lockLoad k) ∧ (euWord off = some (.evt k) → asks off .evtLoad k)
        ∧ (euWord off ∈ [none, some (.cfg k), some (.gen k), some (.try k), some (.estat k), some .hchain, some .waitpol, some .clid] → refused)))
    ∧ ((∀ off, windowOf s.ctx.priv ea ≠ .unit off) → refused))
  ∧ (∀ (s : State) (off : Nat) (lim : Option Word),
    let e := s.ev
    let n := e.core
    let i := e.ctx
    let k := e.unit
    let cl := clusterOfCore n
    let x := (s.clusterAt cl).barrier k
    let mx := (s.clusterAt cl).mutex k
    let evt := (s.clusterAt cl).event k
    let me : EuWaiter := { pos := n % 16, ctx := i, off := off }
    (s.ctxAt n i).euWait = some (off, lim) →
    (fieldOf e.val 59 3 < 4 → fieldOf e.val 32 27 = 0 → e.val.getLsbD 62 = false → k < 16 → ∃ t : State, exec .barrierCfgWrite s = .next t
      ∧ (t.clusterAt cl).barrier k = { Barrier.reset with en := e.val.getLsbD 63, level := fieldOf e.val 59 3, gen := x.gen }
      ∧ (t.ctxAt n i).wait = none)
    ∧ (limitPassed lim s.time = true →
      (s.euUnderWay .arriveLoad n i = false → ∃ t : State, exec .waittTimeout s = .next t
        ∧ t.ctxAt n i = ({ s.ctxAt n i with got := [], lost := [] } : Ctx).complete (some (BitVec.ofNat 64 (2 * 2 ^ 62)))
        ∧ (∀ j, (∀ w ∈ ((t.clusterAt cl).barrier j).waiters, ¬ (w.pos = n % 16 ∧ w.ctx = i))
            ∧ (∀ w ∈ ((t.clusterAt cl).mutex j).queue, ¬ (w.pos = n % 16 ∧ w.ctx = i))
            ∧ (∀ w ∈ ((t.clusterAt cl).event j).waiters, ¬ (w.pos = n % 16 ∧ w.ctx = i))))
      ∧ (s.euUnderWay .arriveLoad n i = true → exec .waittTimeout s = .next (s.retryLater .waittTimeout e)))
    ∧ (let z := levelScope x.level
      let r := s.release n z
      let m := (s.coreAt n).masks
      let joins (u : State) : State := if limitPassed lim s.time then s.answer n i (some (BitVec.ofNat 64 (2 * 2 ^ 62))) else u
      (k < 16 → (s.coreAt n).domCl.getLsbD (n % 16) = true → x.en = true → x.brk = false → x.hasArrived n i = false →
        r.releaseWaits n i z = false → m.holds n x.level = true → (x.own.getD m).agree m x.level = true →
        let counted := r.onBarrier cl k (Spec.arrivedAt n i m)
        let waits := r.onBarrier cl k (fun y => { Spec.arrivedAt n i m y with waiters := y.waiters ++ [me] })
        (n % 16 ∈ x.arrived → exec .arriveStore s = .next (counted.answer n i none)
          ∧ exec .arriveLoad s = .next (if limitPassed lim s.time then counted.answer n i (some (BitVec.ofNat 64 (2 * 2 ^ 62))) else waits))
        ∧ (n % 16 ∉ x.arrived →
          (∃ t, exec .arriveStore s = .next (t.answer n i none) ∧ Spec.progressed counted t cl k)
          ∧ (limitPassed lim s.time = false → ∃ t, exec .arriveLoad s = .next t ∧ Spec.progressed waits t cl k)
          ∧ (limitPassed lim s.time = true → (Spec.arrivedAt n i m x).partDone (x.own.getD m) cl = false →
              exec .arriveLoad s = .next (counted.answer n i (some (BitVec.ofNat 64 (2 * 2 ^ 62)))))))
      ∧ (x.en = true → x.brk = false →
        (x.hasArrived n i = true → exec .waitLoad s = .next (joins (s.onBarrier cl k (fun y => { y with waiters := y.waiters ++ [me] }))))
        ∧ (x.hasArrived n i = false → exec .waitLoad s = .next (Spec.granted s n i (euStatus 0 x.gen.toNat) z)))
      ∧ (mx.broken = false →
        let taken := s.onMutex cl k (fun y => { y with holder := some (n % 16, i) })
        (mx.holder = none → exec .lockLoad s = .next (Spec.granted taken n i 0 .cluster) ∧ exec .tryLoad s = .next (Spec.granted taken n i 0 .cluster))
        ∧ (mx.holder ≠ none → exec .lockLoad s = .next (joins (s.onMutex cl k (fun y => { y with queue := y.queue ++ [me] })))
            ∧ exec .tryLoad s = .next (s.answer n i (some (BitVec.ofNat 64 (3 * 2 ^ 62)))))
        ∧ (mx.holder = some (n % 16, i) →
            let u := s.release n .cluster
            u.releaseWaits n i .cluster = false →
            (mx.queue = [] → exec .lockStore s = .next ((u.answer n i none).onMutex cl k (fun y => { y with holder := none, queue := [] })))
            ∧ (∀ w rest lim', mx.queue = w :: rest → ((u.answer n i none).ctxAt (16 * cl + w.pos) w.ctx).euWait = some lim' →
                limitPassed lim'.2 u.time = false → exec .lockStore s = .next (Spec.granted ((u.answer n i none).onMutex cl k (fun y =>
                  { y with holder := some (w.pos, w.ctx), queue := rest })) (16 * cl + w.pos) w.ctx 0 .cluster)))
        ∧ (mx.holder ≠ some (n % 16, i) → exec .lockStore s = .next (s.trapWaiting n i
            { cause := 4, detail := 0, addr := BitVec.ofNat 64 (0xFF * 2 ^ 48 + 0x200000 + off) })))
      ∧ (let u := s.release n .cluster
         k < 32 → u.releaseWaits n i .cluster = false → ∃ t : State, exec .evtStore s = .next t
          ∧ (t.clusterAt cl).event k = { evt with set := true, payload := e.val.setWidth 32, waiters := [] } ∧ (t.ctxAt n i).wait = none
          ∧ ∀ w ∈ evt.waiters, (u.ctxAt (16 * cl + w.pos) w.ctx).euWait ≠ none → (t.ctxAt (16 * cl + w.pos) w.ctx).wait = none)
      ∧ (evt.broken = false →
        (evt.set = true → exec .evtLoad s = .next (Spec.granted s n i (BitVec.ofNat 64 evt.payload.toNat) .cluster))
        ∧ (evt.set = false → exec .evtLoad s = .next (joins (s.onEvent cl k (fun y => { y with waiters := y.waiters ++ [me] })))))
      ∧ exec .estatStore s = .next ((s.onEvent cl k (fun y => { y with set := false })).answer n i none)))
  ∧ (∀ s : State,
    let e := s.ev
    let k := e.unit
    s.reachOneWay (dieOfCluster e.core) (dieOfCluster e.addr) false = none → k < 16 →
    let cl := e.addr
    let x := (s.clusterAt cl).barrier k
    (e.flag = true → x.brk = false → ∀ row, row = Instr.barrierEventMessage ∨ row = Instr.barrierReleaseMessage →
      ∃ t : State, exec row s = .next t ∧ (t.clusterAt cl).barrier k = { x with brk := true, waiters := [] }
      ∧ ∀ w ∈ x.waiters, (s.ctxAt (16 * cl + w.pos) w.ctx).euWait ≠ none → (t.ctxAt (16 * cl + w.pos) w.ctx).wait = none)
    ∧ (e.flag = false → x.en = true → x.brk = false → (x.own.getD e.masks).agree e.masks x.level = true → ∃ t, exec .barrierEventMessage s = .next t
      ∧ Spec.progressed (s.onBarrier cl k (fun y => { y with
          own := some (y.own.getD e.masks)
          heardDie := if dieOfCluster e.core = dieOfCluster cl then insertNat e.core y.heardDie else y.heardDie
          heardPkg := if dieOfCluster e.core = dieOfCluster cl then y.heardPkg else insertNat e.core y.heardPkg })) t cl k)
    ∧ (e.flag = false → ∃ t : State, exec .barrierReleaseMessage s = .next t ∧ ((t.clusterAt cl).barrier k).gen = x.gen + 1
      ∧ ((t.clusterAt cl).barrier k).arrived = [] ∧ ((t.clusterAt cl).barrier k).waiters = []
      ∧ ∀ w ∈ x.waiters, (s.ctxAt (16 * cl + w.pos) w.ctx).euWait ≠ none → (t.ctxAt (16 * cl + w.pos) w.ctx).wait = none))
  ∧ (∀ (s : State) (m : DomMasks),
    let e := s.ev
    let k := e.unit
    s.fabricSaved (fieldOf e.val 32 16) = none → s.fabricMasks (fieldOf e.val 32 16) = some m → k < 16 →
    let cl := m.pkgRoot
    let x := (s.clusterAt cl).barrier k
    (e.aux ≠ 0 → e.aux < fieldOf m.fab 36 12 → fieldOf e.val 0 32 = x.gen.toNat → fieldOf m.fab 24 12 = 0 →
      exec .fabricBarrierEvent s = .next ((s.onBarrier cl k (fun y => { y with heardFab := insertNat e.aux y.heardFab })).barrierProgress cl k))
    ∧ (∃ t : State, exec .fabricBarrierRelease s = .next t ∧ ((t.clusterAt cl).barrier k).gen = x.gen + 1
      ∧ ((t.clusterAt cl).barrier k).arrived = [] ∧ ((t.clusterAt cl).barrier k).waiters = []))
  ∧ (∀ (s : State) (part : Nat) (row : Instr), row = .fabricBarrierEvent ∨ row = .fabricBarrierRelease →
    s.fabricSaved (fieldOf s.ev.val 32 16) = some part →
    exec row s = .next (s.onPart part (fun p => { p with held := p.held ++ [.event row s.ev] })))

namespace Spec

/-- The request that a scheduling instruction makes of the dispenser of its launch, with the bits of the instruction; its context waits
for the answer (R346, R348). -/
def asksDispenser (s : State) (row : Instr) (part : Nat) (v : Word) : Out :=
  .next ((s.post row { Ev.ofCtx s.focus s.curCtx with unit := part, val := v, data := [s.ir.setWidth 64] }).wait .dispenser)

/-- The dispenser of a launch begins a request (R350). -/
def takes (s : State) (part : Nat) (l : Launch) (r : Instr × Nat × Nat) : State :=
  s.onPart part (fun p => { p with launch := some { l with serving := some r } })

/-- It has done with it: the requests that reached it meanwhile come next, in their order (R350). -/
def doneWith (s : State) (part : Nat) : State :=
  match (s.partAt part).launch with
  | none => s
  | some l => { s.onPart part (fun p => { p with launch := some { l with serving := none, held := [] } }) with
      agenda := l.held.map (fun r => Move.event r.1 r.2) ++ s.agenda }

/-- Candidate `k` is still to be had by core `n`: it is the core's, and the map has an uncovered cell of it (R349). -/
def openCand (l : Launch) (set : List Nat) (n m k : Nat) : Prop :=
  l.mine set n k = true ∧ ∃ c ∈ l.cells (l.cand k), m.testBit (l.cellBit c) = false

/-- NextTile stops at candidate `k`, the first from the cursor on that is still to be had (R349). -/
def stopsAt (l : Launch) (set : List Nat) (n m cur k : Nat) : Prop :=
  cur ≤ k ∧ k < l.candCount ∧ openCand l set n m k ∧ ∀ j, cur ≤ j → j < k → ¬ openCand l set n m j

/-- The box, the bits and the next cursor that a stop at `k` gives (R349): the whole candidate where no cell of it is covered, else its
first uncovered cell. -/
def tileAt (l : Launch) (m k : Nat) (b : Box) (bits : List Nat) (cur : Nat) : Prop :=
  let cs := l.cells (l.cand k)
  (∀ c ∈ cs, m.testBit (l.cellBit c) = false) ∧ b = l.cand k ∧ bits = cs.map (fun c => l.cellBit c) ∧ cur = k + 1
  ∨ (∃ c ∈ cs, m.testBit (l.cellBit c) = true)
    ∧ ∃ c, cs.find? (fun c => !m.testBit (l.cellBit c)) = some c ∧ b = l.cellBox c ∧ bits = [l.cellBit c] ∧ cur = k

/-- The bytes of a launch's coverage map as the dispatch unit finds them at their homes (R349). -/
def mapRead (ag : Agent) (s : State) (l : Launch) (m : Nat) (u : State) : Prop :=
  let a := ptrAddr (recW l.record 8)
  let n := mapBytes l.record
  isTranslated a = true ∧ isTranslated (a + n - 1) = true ∧ ∃ bs, runReads ag.core ag.die s [(a, n)] [bs] u ∧ m = fromBytesLE bs

/-- Runs of the coverage map written there: every run lies in translated memory, every line is reached (R349). -/
def mapWritten (ag : Agent) (s : State) (rs : List (Nat × List Byte)) (u : State) : Prop :=
  (∀ r ∈ rs, isTranslated r.1 = true ∧ isTranslated (r.1 + r.2.length - 1) = true) ∧ runWrites ag s rs u

end Spec

/-- R344 to R350: the rows of the dispenser.
The model's choices of logs 44, 53, 54 stand behind it. -/
def Obligations.scheduling_results : Prop :=
  (∀ (s : State) (d a : Reg) (n : BitVec 12), s.core.task = none →
    ∀ i ∈ [Instr.tnext d, .tdone a, .schrd d n, .schstage a n, .schcommit d], exec i s = Spec.illegal s 2)
  ∧ (∀ (s : State) (d a : Reg) (n : BitVec 12) (t : Task) (l : Launch),
    s.core.task = some t → (s.partAt t.part).launch = some l →
    let v := s.g a
    let c := recCtl l.record
    let tuner := c.getLsbD 30 = true ∧ fieldOf c 32 12 = s.focus ∧ fieldOf c 44 4 = s.ctx.cidx
    (s.ctx.cidx = 0 ∧ d ≠ 0 ∧ d.toNat ≤ 27 ∧ t.tile = none → exec (.tnext d) s = Spec.asksDispenser s .dispenserTnext t.part 0)
    ∧ (¬ (s.ctx.cidx = 0 ∧ d ≠ 0 ∧ d.toNat ≤ 27 ∧ t.tile = none) → exec (.tnext d) s = Spec.illegal s 2)
    ∧ (s.ctx.cidx ≠ 0 → exec (.tdone a) s = Spec.illegal s 2)
    ∧ (s.ctx.cidx = 0 → v = 0 → exec (.tdone a) s = .next (((s.finish 4).mapCore (fun c => { c with task := some { t with ending := true } })).post
        .taskEnd { Ev.empty with core := s.focus }))
    ∧ (∀ x, s.ctx.cidx = 0 → v ≠ 0 → t.tile = some x → BitVec.ofNat 64 x.token = v → Spec.releasedOk s .rel .system →
        exec (.tdone a) s = .next ((((s.release s.focus .system).mapCore (fun c => { c with task := some { t with tile := none } })).post
          .dispenserTdone { Ev.ofCtx s.focus s.curCtx with unit := t.part, val := v }).finish 4))
    ∧ (s.ctx.cidx = 0 → v ≠ 0 → (∀ x, t.tile = some x → BitVec.ofNat 64 x.token ≠ v) → exec (.tdone a) s = Spec.illegal s 2)
    ∧ (n.toNat ≤ 8 → exec (.schrd d n) s = Spec.asksDispenser s .dispenserSchrd t.part (n.setWidth 64))
    ∧ (8 < n.toNat → exec (.schrd d n) s = Spec.illegal s 2)
    ∧ (n.toNat ∈ [0, 1, 2, 7] → tuner → s.reachOneWay (dieOfCore s.focus) (s.leadDie t.part) false = none →
        ∃ g : Schedule, exec (.schstage a n) s = .next ((s.onPart t.part (fun p => { p with launch := some { l with staged := g } })).finish 4)
          ∧ (if n = 0 then g = { l.staged with order := v.toNat % 256 }
             else if n = 7 then g.place % 8 = v.toNat % 8 ∧ g.place / 16 = v.toNat / 16 % 16 ∧ g.order = l.staged.order ∧ g.tile = l.staged.tile
             else (∀ k, k < 4 → g.tile.getD k 1 =
                 if k / 2 + 1 = n.toNat then v.toNat / 2 ^ (32 * (k % 2)) % 2 ^ 32 else l.staged.tile.getD k 1)
               ∧ g.order = l.staged.order ∧ g.place = l.staged.place))
    ∧ (¬ (n.toNat ∈ [0, 1, 2, 7] ∧ tuner) → exec (.schstage a n) s = Spec.illegal s 2)
    ∧ (tuner → Spec.releasedOk s .rel .package →
        exec (.schcommit d) s = Spec.asksDispenser (s.release s.focus .package) .dispenserCommit t.part 0)
    ∧ (¬ tuner → exec (.schcommit d) s = Spec.illegal s 2))
  ∧ (∀ (s : State) (l : Launch),
    let n := s.ev.core
    let i := s.ev.ctx
    let part := s.ev.unit
    let r := l.record
    (s.partAt part).launch = some l →
    (∀ x row, l.serving = some x → row ∈ [Instr.dispenserSchrd, .dispenserCommit, .dispenserTnext] → x ≠ (row, n, i) →
      exec row s = .next (s.onPart part (fun p => { p with launch := some { l with held := l.held ++ [(row, s.ev)] } })))
    ∧ ((∃ ir, (s.ctxAt n i).wait = some { why := .dispenser, ir := ir } ∧ s.ev.data = [ir.setWidth 64]) →
    (∃ t, (s.coreAt n).task = some t ∧ t.part = part) → l.serving = none → s.reach (dieOfCore n) (s.leadDie part) false = none →
    (∃ v : Word, exec .dispenserSchrd s = .next (s.answer n i (some v))
      ∧ (s.ev.val = 0 → v.toNat = l.sched.order % 2 ^ 64) ∧ (s.ev.val = 8 → v = l.gen.setWidth 64)
      ∧ (∀ k, k < 2 → (s.ev.val.toNat = 1 + k → v.toNat = (l.sched.tileExt (2 * k + 1) * 2 ^ 32 + l.sched.tileExt (2 * k)) % 2 ^ 64)
        ∧ (s.ev.val.toNat = 3 + k → v = recW r (4 + k)) ∧ (s.ev.val.toNat = 5 + k → v = recW r (2 + k)))
      ∧ (s.ev.val = 7 → v.toNat = l.sched.place % 2 ^ 64))
    ∧ (let ok := (∀ k, k < 4 → l.staged.tileExt k ≠ 0 ∧ recQuad r 4 k ∣ l.staged.tileExt k)
          ∧ (∀ k, k < 4 → ∃ j, j < 4 ∧ l.staged.order / 4 ^ j % 4 = k)
          ∧ l.staged.place / 16 % 4 ≠ 3 ∧ s.partSet part (l.staged.place % 8) ≠ 0
      (ok → exec .dispenserCommit s = .next ((s.onPart part (fun p => { p with launch := some { l with
          sched := l.staged, gen := l.gen + 1, cursors := [] } })).answer n i (some ((l.gen + 1).setWidth 64))))
      ∧ (¬ ok → exec .dispenserCommit s = .next ((s.onPart part (fun p => { p with launch := some { l with staged := l.sched } })).answer n i
          (some (BitVec.ofNat 64 (2 ^ 63 + l.gen.toNat))))))
    ∧ (0 < s.unpromised part (clusterOfCore n) → exec .dispenserTnext s =
        .next (Spec.doneWith ((s.onCore n (fun c => { c with task := c.task.map (fun t => { t with handed := true }) })).answerTile n i
          [BitVec.ofNat 64 (2 ^ 63 + 2 ^ 61), 0, 0, 0, 0]) part))
    ∧ (s.unpromised part (clusterOfCore n) = 0 →
      let ag := s.dispatchAgent (s.leadDie part) part .dispenserTnext s.ev
      ∀ m u, Spec.mapRead ag (Spec.takes s part l (.dispenserTnext, n, i)) l m u →
        let set := u.setCores part l
        let key := l.cursorKey set n
        let cur := tabGet 0 l.cursors key
        ((∀ k, ¬ Spec.stopsAt l set n m cur k) → ∃ c, (cur ≤ l.candCount → c = l.candCount) ∧ exec .dispenserTnext s =
          .next (Spec.doneWith (((u.onLaunch part (fun x => { x with cursors := tabSet 0 l.cursors key c })).dropRemote ag.core).answerTile n i
            [if ∀ j, j < cellCount r → m.testBit j = true then BitVec.ofNat 64 (2 ^ 63) else BitVec.ofNat 64 (2 ^ 62), 0, 0, 0, 0]) part))
        ∧ (∀ k b bits next w, Spec.stopsAt l set n m cur k → Spec.tileAt l m k b bits next →
          Spec.mapWritten ag u (mapRuns (ptrAddr (recW r 8)) m bits) w →
          let gen := l.gen.toNat % 65536
          exec .dispenserTnext s = .next (Spec.doneWith ((((((w.onLaunch part (fun x => { x with
              cursors := tabSet 0 l.cursors key next, nextToken := (l.nextToken + 1) % 2 ^ 32, tokens := x.tokens ++ [(l.nextToken, n)] })).onCore n
              (fun c => { c with task := c.task.map (fun t => { t with tile := some { token := l.nextToken, gen := gen } }) })).acquire n .package)).dropRemote
              ag.core).answerTile n i [BitVec.ofNat 64 (gen * 2 ^ 32 + l.nextToken),
                BitVec.ofNat 64 (b.org.getD 1 0 * 2 ^ 32 + b.org.getD 0 0), BitVec.ofNat 64 (b.org.getD 3 0 * 2 ^ 32 + b.org.getD 2 0),
                BitVec.ofNat 64 (b.ext.getD 1 0 * 2 ^ 32 + b.ext.getD 0 0), BitVec.ofNat 64 (b.ext.getD 3 0 * 2 ^ 32 + b.ext.getD 2 0)]) part)))))
  ∧ (∀ (s : State) (l : Launch),
    let part := s.ev.unit
    let l1 := { l with tokens := l.tokens.filter (fun t => t.1 != s.ev.val.toNat) }
    let s1 := s.onPart part (fun p => { p with launch := some l1 })
    let key := (Instr.dispenserTdone, s.ev.core, s.ev.val.toNat)
    s.ev.flag = false → (s.partAt part).halted = false → (s.partAt part).launch = some l →
    (∀ x, l.serving = some x → x ≠ key →
      exec .dispenserTdone s = .next (s.onPart part (fun p => { p with launch := some { l with held := l.held ++ [(.dispenserTdone, s.ev)] } })))
    ∧ (l.serving = none → s.reachOneWay (dieOfCore s.ev.core) (s.leadDie part) false = none →
      (l.complete = true ∨ l1.tokens ≠ [] → exec .dispenserTdone s = .next ((Spec.doneWith s1 part).checkFree part))
      ∧ (l.complete = false → l1.tokens = [] →
        ∀ m u, Spec.mapRead (s1.dispatchAgent (s1.leadDie part) part .dispenserTdone s1.ev) (Spec.takes s1 part l1 key) l1 m u →
        let u1 := u.dropRemote (1008 * u.leadDie part)
        ((∃ j, j < cellCount l.record ∧ m.testBit j = false) → exec .dispenserTdone s = .next ((Spec.doneWith u1 part).checkFree part))
        ∧ ((∀ j, j < cellCount l.record → m.testBit j = true) → exec .dispenserTdone s =
          .next ((Spec.doneWith ((u1.onLaunch part (fun l => { l with complete := true })).post .dispenserTdone
            { Ev.empty with unit := part, flag := true, die := u1.leadDie part, val := recEntry l.record
                            data := [recW l.record 9, BitVec.ofNat 64 l.queue, BitVec.ofNat 64 l.num] }) part).checkFree part)))))
  ∧ (∀ (s : State) slice line leaf u,
    let va := ptrAddr (s.ev.data.getD 0 0)
    let d := s.ev.die
    s.ev.flag = true → s.ev.aux = 0 → isTranslated va = true →
    s.readSegments (s.dispatchAgent d s.ev.unit .dispenserTdone s.ev) [(va, 8)] = s →
    s.agentRefused (s.dispatchAgent d s.ev.unit .dispenserTdone s.ev) (Need.both false) va 8 = none →
    s.homeLine d va none = (.line slice line leaf, u) → line.poisoned (va % 64) 8 = false →
    exec .dispenserTdone s = .next (((u.countAccess slice va d leaf).decrementLine slice va line 1).dropRemote (1008 * d)))

namespace Spec

/-- A record fails the checks of a status (R337). -/
def recordFails (s : State) (r : List Word) (bad : Bool) (status : Nat) : Prop :=
  let c := recCtl r
  let part := recPart r
  match status with
  | 1 => c.toNat / 2 ^ 48 ≠ 0 ∨ c.getLsbD 31 = true ∨ c.getLsbD 11 = true ∨ fieldOf c 6 2 ≠ 0
      ∨ (recEntry r).toNat / 2 ^ 56 ≠ 0 ∨ (recEntry r).getLsbD 0 = true
      ∨ (∃ i ∈ [8, 9], ptrCode (recW r i) ≠ 0 ∨ (recW r i).toNat % 8 ≠ 0) ∨ fieldOf c 23 2 = 3
  | 2 => s.partValid part = false ∨ s.partSet part (fieldOf c 20 3) = 0 ∨ (c.getLsbD 30 = true ∧ fieldOf c 32 12 ∉ s.partCores part)
  | 3 => (∃ d, d < 4 ∧ (recQuad r 2 d = 0 ∨ recQuad r 4 d = 0 ∨ recQuad r 2 d < recQuad r 4 d ∨ recQuad r 6 d = 0 ∨ ¬ recQuad r 4 d ∣ recQuad r 6 d))
      ∨ (∃ k, k < 4 ∧ ∀ j, j < 4 → fieldOf c 12 8 / 4 ^ j % 4 ≠ k) ∨ 2 ^ 32 ≤ cellCount r
  | 4 => ¬ (c.getLsbD 27 = true ↔ recW r 15 ≠ 0)
  | 5 => c.getLsbD 29 = true ∧ (s.partDesc part 4).getLsbD 17 = false
  | 6 => bad = true
  | _ => False

/-- A queue as its head leaves it (R334): the next record, or the oldest of those in the overflow memory, comes up behind the others on chip. -/
def popped (s : State) (q : Nat) : Queue :=
  let x := s.queueAt q
  let y : Queue := { x with
    records := x.records.drop 1, bad := (x.bad.filter (fun i => i != 0)).map (fun i => i - 1), checked := false, age := 0, waited := 0, holds := false }
  let ws := (List.range 16).map (fun i => s.peekWord (dieOfQueue q) (s.overflowPa q x.ovfHead + 8 * i))
  if x.spilled = 0 then y else { y with
    records := y.records ++ [ws.map (fun w => w.1)], bad := if ws.any (fun w => w.2) then y.bad ++ [y.records.length] else y.bad
    ovfHead := (x.ovfHead + 1) % fieldOf (s.queueEntry q 1) 0 16, spilled := x.spilled - 1 }

/-- AGE as an arbitration finds it (R341): 4096 mc are 2560 tk, and it saturates. -/
def ageOf (x : Queue) : Nat := min 255 (x.age + x.waited / 2560)

/-- An arbitration keeps for heads that their waits hold (R339, R341). -/
def noted (s : State) (qs : List Nat) : State := qs.foldl (fun a q => a.onQueue q (fun x => { x with holds := true })) s

/-- The heads that a die can dispatch where no head has a wait (R339, R340): checked, not claimed, their partitions free. -/
def headsOf (s : State) (d : Nat) : List Nat :=
  (s.queues.map Prod.fst).filter (fun q => dieOfQueue q == d && (s.queueAt q).checked && !(s.dieAt d).claims.contains q
    && s.partFree (recPart ((s.queueAt q).records.headD [])))

/-- The queue that priority `p` serves (R340, R341): the promoted head of greatest AGE, the lowest number on a tie; without one, the
lowest number after the queue served last, or else the lowest. -/
def serves (s : State) (d p : Nat) (qs : List Nat) (q : Nat) : Prop :=
  let mine (x : Nat) : Prop := x ∈ qs ∧ recPrio ((s.queueAt x).records.headD []) = p
  let promoted (x : Nat) : Prop := mine x ∧ fieldOf (s.dieReg d 0x100) 0 8 ≤ ageOf (s.queueAt x)
  let after (x : Nat) : Prop := mine x ∧ (s.dieAt d).lastQueue.toList.getD p 8191 < x % 8192
  (promoted q ∧ ∀ x, promoted x → ageOf (s.queueAt x) < ageOf (s.queueAt q) ∨ (ageOf (s.queueAt x) = ageOf (s.queueAt q) ∧ q ≤ x))
  ∨ ((∀ x, ¬ promoted x) ∧ (after q ∧ (∀ x, after x → q ≤ x) ∨ (∀ x, ¬ after x) ∧ mine q ∧ ∀ x, mine x → q ≤ x))

/-- The priority of a slot of the cycle of 36 (R340): round r offers priorities 7 down to 7 − r. -/
def slotPrio (slot p : Nat) : Prop := ∃ r i, r < 8 ∧ i ≤ r ∧ slot = r * (r + 1) / 2 + i ∧ p = 7 - i

/-- The slot that dispatches, and its queue: the first at or after the pointer whose priority has a head (R340). -/
def dispatches (s : State) (d : Nat) (qs : List Nat) (slot q : Nat) : Prop :=
  ∃ k p, k < 36 ∧ slot = ((s.dieAt d).rrPtr + k) % 36 ∧ slotPrio slot p ∧ serves s d p qs q
    ∧ ∀ j p', j < k → slotPrio (((s.dieAt d).rrPtr + j) % 36) p' → ∀ x ∈ qs, recPrio ((s.queueAt x).records.headD []) ≠ p'

/-- Does a die look at its heads again: another head of it stands checked? -/
def looksAgain (d : Nat) (t : State) : State :=
  if ∃ p ∈ t.queues, dieOfQueue p.1 = d ∧ p.2.checked = true then t.kickDispatch d else t

/-- A core runs a task that a launch has just started (R343). -/
def freshTask (c : Core) (part n : Nat) (r : List Word) : Prop :=
  let x := c.ctx 0
  c.released = true ∧ c.task = some { part := part, key := n, tile := none, sent := 0, received := 0, ending := false, handed := false }
  ∧ x.life = .live ∧ x.wait = none ∧ x.pc.toNat = (recEntry r).toNat % 2 ^ 56 ∧ x.getG 1 = recW r 1 ∧ x.getG 2 = BitVec.ofNat 64 n
  ∧ (∀ g : Reg, g ≠ 1 → g ≠ 2 → x.getG g = 0) ∧ (∀ o, x.getOx o = 0) ∧ (∀ v, x.getV v = 0) ∧ x.vl = 0 ∧ x.vcfg = 0 ∧ x.fstat = 0 ∧ x.frm = 0
  ∧ x.priv = (if (recCtl r).getLsbD 29 then 1 else 0) ∧ x.bcte = false ∧ x.uliVec = 0 ∧ x.uliStat = 0 ∧ c.trapVec = 0
  ∧ (∀ i, 0 < i → (c.ctx i).life = .free) ∧ c.mx = Matrix.reset ∧ (∀ z, (c.stream z).state = .free) ∧ c.inbox = []

end Spec

/-- R334 to R343: RECORD_HEAD_CHECK, HEAD_AGEING, LAUNCH_DISPATCH and PARTITION_CLAIM.
The model's choices of logs 1, 37, 42, 43, 49, 93, 110, 112 stand behind it. -/
def Obligations.launch_results : Prop :=
  (∀ (s : State) (r : List Word) (rest : List (List Word)),
    let q := s.ev.unit
    let bad := s.ev.flag || (s.queueAt q).bad.contains 0
    (s.queueAt q).records = r :: rest → (s.queueAt q).checked = false →
    ((∀ k, ¬ Spec.recordFails s r bad k) → exec .recordHeadCheck s =
      .next (((s.onQueue q (fun x => { x with checked := true, age := 0, waited := 0, holds := false })).kickDispatch (dieOfQueue q)).post .headAgeing
        { Ev.empty with unit := q, die := dieOfQueue q }))
    ∧ (∀ k, Spec.recordFails s r bad k → (∀ j, j < k → ¬ Spec.recordFails s r bad j) →
      let u := s.logHearth (dieOfQueue q) 0x09 6 q (BitVec.ofNat 64 k)
      u.queueBad q = false → ∃ t : State, exec .recordHeadCheck s = .next t ∧ t.queueAt q = Spec.popped u q
      ∧ t.sent.getLast? = some { kind := 0x81, endpoint := u.queueOwner q, target := q, reqid := 0, arg := BitVec.ofNat 64 k, payload := [recEntry r] }))
  ∧ (∀ (s : State) (r : List Word) (rest : List (List Word)),
    let q := s.ev.unit
    (s.queueAt q).records = r :: rest → (s.queueAt q).checked = true → ∃ t : State, exec .headAgeing s = .next t
      ∧ t.queueAt q = { s.queueAt q with age := Spec.ageOf (s.queueAt q), waited := (s.queueAt q).waited % 2560 }
      ∧ t.agenda = s.agenda ++ s.cores.map (fun nc => Move.turn nc.1) ++ [.event .headAgeing s.ev])
  ∧ (∀ (s : State) (q : Nat), (∃ x ∈ s.queues, x.1 = q) →
    ∃ k, (State.tick s).time.toNat = s.time.toNat + k
      ∧ (State.tick s).queueAt q = { s.queueAt q with waited := (s.queueAt q).waited + if s.headEligible q then k else 0 })
  ∧ (∀ (s : State) (slot q : Nat),
    let d := s.ev.die
    let qs := Spec.headsOf s d
    s.ev.val = 0 → (s.queues.map Prod.fst).Pairwise (· < ·) →
    (∀ x ∈ qs, recW ((s.queueAt x).records.headD []) 10 = 0 ∧ recW ((s.queueAt x).records.headD []) 12 = 0) →
    (qs = [] → exec .launchDispatch s = .next (Spec.looksAgain d s))
    ∧ (Spec.dispatches s d qs slot q →
      let part := recPart ((s.queueAt q).records.headD [])
      (s.leadDie part = d → exec .launchDispatch s = .next (Spec.looksAgain d ((Spec.noted s qs).dispatchHead d slot q)))
      ∧ (s.leadDie part ≠ d → exec .launchDispatch s = .next (Spec.looksAgain d
          (((Spec.noted s qs).onDie d (fun x => { x with claims := insertNat q x.claims })).post .partitionClaim
            { Ev.empty with die := s.leadDie part, unit := q, aux := slot, core := d })))))
  ∧ (∀ (s : State) (d slot q : Nat) (r : List Word) (rest : List (List Word)), (s.queueAt q).records = r :: rest →
    let t := s.dispatchHead d slot q
    let c := recCtl r
    t.queueAt q = Spec.popped s q ∧ (t.dieAt d).rrPtr = (slot + 1) % 36 ∧ t.dispatched = true
    ∧ ∃ l g, (t.partAt (recPart r)).launch = some l ∧ l.queue = q ∧ l.record = r ∧ l.sched = g ∧ l.staged = g ∧ l.gen = 0 ∧ l.cursors = []
      ∧ l.tokens = [] ∧ l.complete = false ∧ l.serving = none ∧ l.held = [] ∧ l.jobDl = (if c.getLsbD 27 then s.time + recW r 15 else 0) ∧ l.inLaunch = s.partCores (recPart r)
      ∧ g.order = fieldOf c 12 8 ∧ g.pset = fieldOf c 20 3 ∧ g.pmode = fieldOf c 23 2 ∧ g.pdim = fieldOf c 25 2
      ∧ ∀ k, k < 4 → g.tileExt k = recQuad r 6 k)
  ∧ (∀ (s : State) (l : Launch),
    let part := s.ev.unit
    let off := (s.ev.data.getD 0 0).toNat
    let size := mapBytes l.record
    s.ev.val = 1 → (s.partAt part).launch = some l → (s.partAt part).halted = false →
    (off < size →
      let a := ptrAddr (recW l.record 8) + off
      let n := min (size - off) (64 - a % 64)
      ∀ u, Spec.mapWritten (s.dispatchAgent s.ev.die part .launchDispatch s.ev) s [(a, List.replicate n 0)] u →
        exec .launchDispatch s = .next (u.post .launchDispatch { s.ev with data := [BitVec.ofNat 64 (off + n)], aux := 0, addr := 0 }))
    ∧ (size ≤ off → ∃ t : State, exec .launchDispatch s = .next t
      ∧ ∀ n ∈ s.partCores part, Spec.freshTask (t.coreAt n) part n l.record ∧ (t.coreAt n).jobDl = l.jobDl
        ∧ (t.coreAt n).seqOut = [] ∧ (t.coreAt n).expected = []
        ∧ (t.coreAt n).retry = [] ∧ (t.coreAt n).opLerr = 0
        ∧ ((recCtl l.record).getLsbD 28 = false →
            (∀ m ∈ s.partCores part, (s.peekWord (dieOfCore m) (s.domainFmtPa (dieOfCore m) (s.partDomain part))).2 = false) →
            (t.coreAt n).domain = s.partDomain part)))
  ∧ (∀ s : State, s.ev.val = 2 → s.ev.aux = 0 → exec .launchDispatch s = .next (s.kickDispatch s.ev.die))
  ∧ (∀ s : State,
    let q := s.ev.unit
    let d := s.ev.core
    let s1 := s.onDie d (fun x => { x with claims := x.claims.filter (fun y => y != q) })
    ((s.queueAt q).checked = true → s.partFree (recPart ((s.queueAt q).records.headD [])) = true →
      exec .partitionClaim s = .next (s1.dispatchHead d s.ev.aux q))
    ∧ ((s.queueAt q).checked = false ∨ s.partFree (recPart ((s.queueAt q).records.headD [])) = false →
      exec .partitionClaim s = .next (s1.kickDispatch d)))

/-- R268, R269, R351 to R354: TASK_END, STORAGE_WAIT_NOTICE, POWER_GATE and RESIDENCY_REPORT.
The model's choices of logs 6, 45, 46, 47, 48, 50, 51, 52, 53, 56, 60, 93, 109 stand behind it. -/
def Obligations.task_results : Prop :=
  (∀ (s : State) (t : Task) (l : Launch),
    let n := s.ev.core
    let cl := clusterOfCore n
    let left := l.inLaunch.filter (fun m => m != n)
    s.ev.flag = false → (s.coreAt n).task = some t → t.ending = true → (s.coreAt n).mx.queue = [] → (s.coreAt n).ops = [] →
    (s.coreAt n).hostWrites = [] → (s.partAt t.part).launch = some l →
    ((∀ v ∈ (s.partAt t.part).saved, ¬ (v.reason = 0 ∧ v.ready = true ∧ v.cluster = cl)) → ∃ u : State, exec .taskEnd s = .next u
      ∧ (u.coreAt n).task = none ∧ (∀ i, ((u.coreAt n).ctx i).life = .free)
      ∧ (∀ m, m < 16 → ∀ h, ((u.clusterAt cl).mutex m).holder = some h → h.1 ≠ posOfCore n)
      ∧ ((left ≠ [] ∨ l.held ≠ [] ∨ ∃ v ∈ (s.partAt t.part).saved, v.reason = 0) → (u.partAt t.part).launch = some { l with inLaunch := left })
      ∧ (left = [] → l.held = [] → (∀ v ∈ (s.partAt t.part).saved, v.reason ≠ 0) → s.underWay (Move.ofTdone t.part) = false → (u.partAt t.part).launch = none))
    ∧ (∀ v ∈ (s.partAt t.part).saved, v.reason = 0 → v.ready = true → v.cluster = cl →
      (∀ w ∈ (s.partAt t.part).saved, w.reason = 0 → w.ready = true → w.cluster = cl → w = v ∨ v.order < w.order) →
      ∃ u : State, exec .taskEnd s = .next u ∧ (u.coreAt n).task = v.image.task.map (fun x => { x with handed := false, ending := false })
        ∧ (∀ w ∈ (u.partAt t.part).saved, ¬ (w.cluster = cl ∧ w.slot = v.slot))
        ∧ ∀ i, i < 11 → ((u.coreAt n).ctx i).life = (v.image.ctx i).life
          ∧ ((v.image.ctx i).wait = none → ((u.coreAt n).ctx i).pc = (v.image.ctx i).pc ∧ ((u.coreAt n).ctx i).g = (v.image.ctx i).g)))
  ∧ (∀ (s : State) (t : Task) (va : Nat) (ir : BitVec 32) (b : Bool),
    let n := s.ev.core
    let i := s.ev.ctx
    let c := s.coreAt n
    (s.ctxAt n i).wait = some { why := .mem va b, ir := ir } → va = s.ev.addr → s.stillParked n i va = true → c.task = some t → t.ending = false →
    let stays := exec .storageWaitNotice s = .next (s.setCtxAt n i { c.ctx i with wait := some { why := .mem va true, ir := ir } })
    let bound := (∃ k, k < 11 ∧ (c.ctx k).fwd ≠ none) ∨ groupValid c.bcastGrp (posOfCore n) = true
    (bound ∨ (s.partAt t.part).freeSwap (clusterOfCore n) = none → stays)
    ∧ (¬ bound → (s.partAt t.part).freeSwap (clusterOfCore n) ≠ none → s.coreMustWait n = true →
      exec .storageWaitNotice s = .next (s.retryLater .storageWaitNotice s.ev))
    ∧ (∀ j l, ¬ bound → s.coreMustWait n = false → (s.partAt t.part).launch = some l → 16 ≤ j → j < 32 →
      (∀ v ∈ (s.partAt t.part).saved, ¬ (v.cluster = clusterOfCore n ∧ v.slot = j)) →
      (∀ k, 16 ≤ k → k < j → ∃ v ∈ (s.partAt t.part).saved, v.cluster = clusterOfCore n ∧ v.slot = k) →
      ∃ u : State, exec .storageWaitNotice s = .next u ∧ Spec.freshTask (u.coreAt n) t.part n l.record
        ∧ (∀ x, t.tile = some x → (u.partAt t.part).launch = some { l with
            tokens := l.tokens.map (fun y => if y.1 = x.token then (x.token, 4096 + 32 * clusterOfCore n + j) else y) })
        ∧ ∃ v ∈ (u.partAt t.part).saved, v.slot = j ∧ v.cluster = clusterOfCore n ∧ v.pos = posOfCore n ∧ v.reason = 0 ∧ v.addr = va
          ∧ v.ready = false ∧ v.image.task = some t))
  ∧ (∀ s : State,
    let n := s.ev.core
    let pg := fieldOf (s.clusterAt (clusterOfCore n)).waitpol 0 32
    pg ≠ 0 → s.gatedFor n pg = true → exec .powerGate s = .next (s.onCore n (fun c => { c with powerGated := true })))
  ∧ (∀ (s : State) (t : Task) (l : Launch),
    let n := s.ev.core
    let c := s.coreAt n
    let res := fieldOf (s.clusterAt (clusterOfCore n)).waitpol 32 32
    c.task = some t → (s.partAt t.part).launch = some l → (recCtl l.record).getLsbD 27 = false → res ≠ 0 → c.reported = false →
    s.gatedFor n res = true → ∃ t' : State, exec .residencyReport s =
      .next (t'.report 0x8A n s.time (BitVec.ofNat 64 (l.queue * 2 ^ 48 + t.part) :: recEntry l.record :: c.ctxs.toList.flatMap (fun x => x.reportWords)))
      ∧ t' = (s.onCore n (fun c => { c with reported := true })).logCore n 0x0A 0 0)

namespace Spec

/-- A management request of a code from an endpoint that may make it (R388, R412 to R414). -/
def managed (s : State) (code : Nat) : Prop :=
  s.endpointValid s.ev.die = true ∧ s.ev.headerOk 0x02 = true ∧ s.ev.target = code ∧ (s.endpoint s.ev.die).getLsbD 62 = true

/-- The reply to the request in hand (R388, R414). -/
def reply (s : State) (code status : Nat) (payload : List Word) : FabMsg :=
  { kind := 0x82, endpoint := s.ev.die, target := code, reqid := s.ev.reqid, arg := BitVec.ofNat 64 status, payload := payload }

/-- A command that changes nothing but is answered. -/
def answered (s : State) (code status : Nat) : Out := .next (s.sendFabric (reply s code status []))

/-- A partition's saved tasks hold one of a core, as it was saved with a reason (R352). -/
def savedAs (t : State) (part n reason : Nat) (p : Saved → Prop) : Prop :=
  ∃ v ∈ (t.partAt part).saved, v.slot = posOfCore n ∧ v.cluster = clusterOfCore n ∧ v.pos = posOfCore n ∧ v.reason = reason ∧ p v

end Spec

/-- R88, R270, R356 to R359, R433: yield and the partition events.
The model's choices of logs 57, 58, 59, 64, 109 stand behind it. -/
def Obligations.partition_results : Prop :=
  (∀ s : State,
    (s.ctx.cidx ≠ 0 → exec .yield s = Spec.illegal s 2)
    ∧ (s.ctx.cidx = 0 → s.core.task = none ∨ s.core.yieldDl = 0 → exec .yield s = .next (s.finish 4))
    ∧ (∀ t, s.ctx.cidx = 0 → s.core.task = some t → s.core.yieldDl ≠ 0 →
      (s.core.mx.queue ≠ [] → exec .yield s = .next (s.wait .busy))
      ∧ (s.core.mx.queue = [] → s.core.midStore = false → s.coreMustWait s.focus = true → exec .yield s = .next (s.wait .busy))
      ∧ (s.core.mx.queue = [] → s.coreMustWait s.focus = false → ∃ u : State, exec .yield s = .next u ∧ (u.coreAt s.focus).task = none
        ∧ (∀ i, ((u.coreAt s.focus).ctx i).life = .free)
        ∧ Spec.savedAs u t.part s.focus 2 (fun v => v.image.task = some t ∧ (v.image.ctx s.curCtx).pc = s.ctx.pc + 4
            ∧ (v.image.ctx s.curCtx).g = s.ctx.g ∧ (∀ i r, (v.image.ctx i).getV r = 0) ∧ v.image.mx.accs = Matrix.reset.accs)
        ∧ ((∀ n, n ≠ s.focus → (s.coreAt n).runsTask t.part = false) → (u.partAt t.part).switchedOut = true))))
  ∧ (∀ s : State,
    let part := s.ev.unit
    let p := s.partAt part
    Spec.managed s 7 →
    (64 ≤ part ∨ p.launch = none ∨ p.halted = true ∨ p.switchedOut = true → exec .mgmtSwitch s = Spec.answered s 7 2)
    ∧ (part < 64 → p.launch ≠ none → p.halted = false → p.switchedOut = false →
      (p.armed ≠ none → exec .mgmtSwitch s = Spec.answered s 7 1)
      ∧ (p.armed = none → ∃ t : State, exec .mgmtSwitch s = .next (t.post .switchDeadline { Ev.empty with unit := part, val := s.ev.val })
        ∧ t.partAt part = { p with armed := some s.ev.val } ∧ (∀ n ∈ s.partCores part, (t.coreAt n).yieldDl = s.ev.val)
        ∧ (∀ n, n ∉ s.partCores part → t.coreAt n = s.coreAt n) ∧ t.sent = s.sent ++ [Spec.reply s 7 0 []])))
  ∧ (∀ s : State,
    let part := s.ev.unit
    (s.partAt part).armed = some s.ev.val →
    (s.time.toNat < s.ev.val.toNat ∨ s.stopMustWait part = true → exec .switchDeadline s = .next (s.retryLater .switchDeadline s.ev))
    ∧ (s.ev.val.toNat ≤ s.time.toNat → s.stopMustWait part = false → ∃ t : State, exec .switchDeadline s = .next t
      ∧ (t.partAt part).switchedOut = true ∧ (t.partAt part).armed = none ∧ (t.partAt part).launch = (s.partAt part).launch
      ∧ ∀ n ∈ s.taskCores part, (t.coreAt n).task = none ∧ (∀ i, ((t.coreAt n).ctx i).life = .free)
        ∧ Spec.savedAs t part n 1 (fun v => v.image.task = (s.coreAt n).task ∧ ∀ i, (s.ctxAt n i).wait = none →
            (v.image.ctx i).pc = (s.ctxAt n i).pc ∧ (v.image.ctx i).g = (s.ctxAt n i).g ∧ (v.image.ctx i).v = (s.ctxAt n i).v)))
  ∧ (∀ s : State,
    let part := s.ev.unit
    let p := s.partAt part
    let back := p.saved.filter (fun v => decide (v.slot < 16))
    Spec.managed s 8 →
    (64 ≤ part ∨ p.switchedOut = false → exec .mgmtResume s = Spec.answered s 8 2)
    ∧ (part < 64 → p.switchedOut = true →
      (s.heldByReset part = true → exec .mgmtResume s = Spec.answered s 8 1)
      ∧ (s.heldByReset part = false → back.Pairwise (fun a b => 16 * a.cluster + a.pos ≠ 16 * b.cluster + b.pos) →
        p.units.Pairwise (fun a b => a.1 ≠ b.1) → ∃ t : State, exec .mgmtResume s = .next t
        ∧ (t.partAt part).switchedOut = false ∧ t.sent.getLast? = some (Spec.reply s 8 0 [])
        ∧ (∀ v ∈ back, v.image.task ≠ none → (t.coreAt (16 * v.cluster + v.pos)).task = v.image.task
            ∧ (t.coreAt (16 * v.cluster + v.pos)).yieldDl = 0)
        ∧ ∀ u ∈ p.units, (t.clusterAt u.1).barriers = u.2.barriers ∧ (t.clusterAt u.1).mutexes = u.2.mutexes
            ∧ (t.clusterAt u.1).events = u.2.events)))
  ∧ (∀ (s : State) (part cause : Nat), (s.partAt part).halted = false →
    let t := s.haltPart part cause
    (t.partAt part).halted = true ∧ (t.partAt part).switchedOut = false
    ∧ (t.partAt part).launch = (s.partAt part).launch.map (fun l => { l with serving := none, held := [] })
    ∧ t.underWay (Move.ofTdone part) = false ∧ (∀ l, (s.partAt part).launch = some l → t.underWay (Move.ofDone part l.num) = false)
    ∧ ∀ n ∈ s.taskCores part, (t.coreAt n).task = none ∧ (∀ i, ((t.coreAt n).ctx i).life = .free)
      ∧ Spec.savedAs t part n 3 (fun v => v.image.task = (s.coreAt n).task))
  ∧ (∀ s : State,
    let part := fieldOf s.ev.arg 0 6
    let bit63 (v : Bool) : Prop := s.ev.arg.toNat / 2 ^ 6 = (if v then 2 ^ 57 else 0) ∧ s.ev.payload = []
    (s.ev.aux = 0 → Spec.managed s 9 →
      (bit63 false → s.partValid part = true → exec .mgmtHaltPartition s = .next ((s.haltPart part 2).sendFabric (Spec.reply s 9 0 [])))
      ∧ (¬ bit63 false ∨ s.partValid part = false → exec .mgmtHaltPartition s = Spec.answered s 9 2))
    ∧ (s.ev.aux ≠ 0 → exec .mgmtHaltPartition s = .next (s.haltPart s.ev.unit (if s.ev.aux = 4 then 0 else s.ev.aux)))
    ∧ (Spec.managed s 9 →
      (bit63 true → (s.partAt part).halted = true → ∃ t : State, exec .mgmtReleaseHalt s = .next t
        ∧ (t.partAt part).launch = none ∧ (t.partAt part).halted = false ∧ (t.partAt part).saved = []
        ∧ t.sent.getLast? = some (Spec.reply s 9 0 []))
      ∧ (¬ bit63 true ∨ (s.partAt part).halted = false → exec .mgmtReleaseHalt s = Spec.answered s 9 2)))
  ∧ (∀ (s : State) (l : Launch),
    let part := s.ev.unit
    let p := s.partAt part
    let stands (w : Word) : Prop := w ≠ 0 ∧ (if p.switchedOut then ∃ v ∈ p.saved, v.slot < 16 ∧ v.image.jobDl = w
      else ∃ n ∈ s.partCores part, (s.coreAt n).jobDl = w)
    p.launch = some l → l.complete = false → p.halted = false →
    ((∃ w, stands w ∧ w.toNat < s.time.toNat) → exec .jobDeadline s = .next (s.haltPart part 1))
    ∧ ((∃ w, stands w) → (∀ w, stands w → s.time.toNat ≤ w.toNat) → exec .jobDeadline s = .next (s.retryLater .jobDeadline s.ev))
    ∧ ((∀ w, ¬ stands w) → exec .jobDeadline s = .next s))

namespace Spec

/-- A home answers the request of a context with its line: the state `u` after the walk, the slice, the line and the leaf (R306, R308). -/
def served (s : State) (slice : Nat) (line : L2Line) (leaf : Option Leaf) (u : State) : Prop :=
  s.askHome (dieOfCore s.ev.core) s.ev.addr (s.hint s.ev.core s.ev.addr) = (.line slice line leaf, u)

/-- The requests that a slice has parked for a page. -/
def parkedAt (s : State) (slice page : Nat) : List Req := (s.coreAt slice).parked.filter (fun r => pageOf r.va == page)

/-- The request of a context as its home takes it up again. -/
def askedAgain (r : Req) : Move :=
  .event (if r.kind = 6 then .homeQuery else .homeMiss)
    { Ev.ofCtx r.core r.ctx with unit := r.kind, addr := r.va, aux := r.ea, data := r.words.map (fun w => BitVec.ofNat 64 w) }

/-- A walker has walked a page again and found a leaf (R312): the requests that the leaf serves are parked no more and are taken up
again. -/
def walkedAgain (s t : State) (slice page : Nat) (l : Leaf) (u : State) : Prop :=
  (t.coreAt slice).parked = (s.coreAt slice).parked.filter (fun r => !(pageOf r.va == page && u.reqServed slice l r))
  ∧ ∀ r ∈ parkedAt s slice page, u.reqServed slice l r = true → r.again = none → askedAgain r ∈ t.agenda

end Spec

/-- R131, R236, R306 to R309: HOME_MISS, MEMORY_RESPONSE, HOME_QUERY, PLB_REFILL and WRITE_BACK_ARRIVAL.
The model's choices of logs 9, 10, 12, 13, 92, 93, 94, 108 stand behind it. -/
def Obligations.home_service_results : Prop :=
  (∀ (s : State) (ir : BitVec 32) (b : Bool),
    let e := s.ev
    let x := s.ctxAt e.core e.ctx
    x.wait = some { why := .mem e.addr b, ir := ir } →
    (∀ slice line leaf u, Spec.served s slice line leaf u →
      exec .homeMiss s = .next ((u.countAccess slice e.addr (dieOfCore e.core) leaf).post .memoryResponse e)
      ∧ (e.unit ≠ 2 → ∃ t : State, exec .memoryResponse s = .next (t.ready e.core e.ctx)
        ∧ (∀ w ∈ e.data,
            let fresh : L1Word :=
              { val := BitVec.ofNat 32 (fromBytesLE (line.bytes (w.toNat % 16 * 4) 4)), dirty := false, poison := line.poison.getLsbD (w.toNat % 16) }
            tabFind (t.ctxAt e.core e.ctx).got w.toNat = some fresh
            ∧ (w.toNat / 16 = e.addr / 64 → t.l1Word e.core w.toNat = some ((u.l1Word e.core w.toNat).getD fresh))))
      ∧ (e.unit = 2 → ∃ t : State, exec .memoryResponse s = .next (t.ready e.core e.ctx)
        ∧ tabFind (t.coreAt e.core).icache (e.addr / 64) = some { data := line.data, poison := line.poison, valid := BitVec.allOnes 16 })
      ∧ (∀ lf, leaf = some lf → isTranslated e.addr = true → ∃ t : State, exec .memoryResponse s = .next t
        ∧ tabFind (t.coreAt e.core).homeCache (pageOf e.addr) = some lf))
    ∧ (∀ slice leaf u, s.askHome (dieOfCore e.core) e.addr (s.hint e.core e.addr) = (.fault slice leaf, u) →
      exec .homeMiss s = .next (u.park slice e.addr leaf
        { kind := e.unit, core := e.core, ctx := e.ctx, va := e.addr, ea := e.aux, words := e.data.map BitVec.toNat, again := none, stale := false }))
    ∧ (∀ u, s.askHome (dieOfCore e.core) e.addr (s.hint e.core e.addr) = (.refused, u) →
      exec .homeMiss s = .next (u.trapWaiting e.core e.ctx { cause := 4, detail := 0, addr := BitVec.ofNat 64 e.aux })))
  ∧ (∀ (s : State) (ir : BitVec 32) (r : HomeRes) (u : State),
    let e := s.ev
    (s.ctxAt e.core e.ctx).wait = some { why := .probe e.addr, ir := ir } →
    s.askHome (dieOfCore e.core) e.addr (s.hint e.core e.addr) = (r, u) →
    (∀ slice l leaf, r ≠ .line slice l leaf) → (∀ slice pa, r ≠ .remote slice pa) →
    exec .homeMiss s = .next (u.onCtx e.core e.ctx (fun x => { x with wait := none, lost := insertNat (e.addr / 64) x.lost })))
  ∧ (∀ (s : State) (ir : BitVec 32),
    let e := s.ev
    let d := dieOfCore e.core
    (s.ctxAt e.core e.ctx).wait = some { why := .query (pageOf e.addr), ir := ir } →
    ∀ l u, s.queryLeaf d e.addr = (.leaf l, u) →
      (l.hmode ≤ 1 → ∃ t : State, exec .homeQuery s = .next (t.ready e.core e.ctx)
        ∧ tabFind (t.coreAt e.core).homeCache (pageOf e.addr) = some l)
      ∧ (1 < l.hmode → exec .homeQuery s = .next (u.park (u.walkSlice d e.addr) e.addr l
        { kind := 6, core := e.core, ctx := e.ctx, va := e.addr, ea := e.aux, words := e.data.map BitVec.toNat, again := none, stale := false })))
  ∧ (∀ s : State,
    let e := s.ev
    let u := e.addr / 65536
    let c := s.coreAt e.core
    c.plbRights u = none → u < 2 ^ 40 → c.plb.length ≤ 64 →
    ∃ t : State, exec .plbRefill s = .next t
      ∧ (t.coreAt e.core).plbRights u = some (s.domainRights (dieOfCore e.core) c.domain u) ∧ (t.coreAt e.core).plb.length ≤ 64
      ∧ (∀ ir, (s.ctxAt e.core e.ctx).wait = some { why := .plb e.addr, ir := ir } → (t.ctxAt e.core e.ctx).wait = none))
  ∧ (∀ (s : State) slice l leaf u,
    let n := s.ev.core
    let line := s.ev.addr
    let ws := (s.coreAt n).dirtyWords line
    ws ≠ [] → s.lineAt (dieOfCore n) (line * 64) (s.hint n (line * 64)) true = (.line slice l leaf, u) →
    exec .writeBackArrival s = .next (((((u.setSliceLine slice line (mergeWords l ws)).fireWatch slice line).onCore n
      (fun c => c.cleanLine line))).sendPartials n line))

/-- R310 to R313: WAKE, WATCH_REWALK, FAULT_MESSAGE and FREPLY.
The model's choices of logs 9, 11, 92 stand behind it. -/
def Obligations.fault_service_results : Prop :=
  (∀ s : State,
    let slice := s.ev.core
    let page := s.ev.addr
    (Spec.parkedAt s slice page = [] → exec .wake s = .next s ∧ exec .watchRewalk s = .next s)
    ∧ (∀ l u, Spec.parkedAt s slice page ≠ [] → s.walk slice (page * 65536) = (.leaf l, u) →
      ((∀ r ∈ Spec.parkedAt s slice page, u.reqServed slice l r = true) →
        ∃ t : State, exec .wake s = .next t ∧ exec .watchRewalk s = .next t ∧ Spec.walkedAgain s t slice page l u)
      ∧ ((∃ r ∈ Spec.parkedAt s slice page, u.reqServed slice l r = false) → ∃ t : State, Spec.walkedAgain s t slice page l u
        ∧ exec .wake s = .next (t.armWatch slice (page * 65536) l) ∧ exec .watchRewalk s = .next (t.retryLater .watchRewalk s.ev))))
  ∧ (∀ (s : State) (e : Ev) (r : Router) (port : Nat) (rest : List (Router × Nat)),
    let mine := (s.dieAt r.die).combine.filter (fun c => c.router == r.num)
    let opened := s.onDie r.die (fun x => { x with
      combine := x.combine ++ [{ router := r.num, page := e.addr, ports := [port], last := rest.isEmpty }] })
    ((∃ c ∈ mine, c.page = e.addr) → s.sendFault e ((r, port) :: rest) = s.onDie r.die (fun x => { x with combine := x.combine.map (fun c =>
        if c.router = r.num ∧ c.page = e.addr then { c with ports := insertNat port c.ports, last := c.last || rest.isEmpty } else c) }))
    ∧ ((∀ c ∈ mine, c.page ≠ e.addr) →
      (mine.length < 32 → s.sendFault e ((r, port) :: rest) = if rest = [] then opened.toRoot e false else opened.sendFault e rest)
      ∧ (32 ≤ mine.length → s.sendFault e ((r, port) :: rest) = s.toRoot e true)))
  ∧ (∀ s : State,
    let e := s.ev
    let d := dieOfCore e.core
    (faultEngine e.faultLeaf ≠ none ∨ s.nsvc d ≠ 0 → exec .faultMessage s = .next (s.sendFault e (routeOf (routerOfCore e.core) (s.rootRouter e))))
    ∧ ∀ ovf : Bool,
      (faultEngine e.faultLeaf = none → s.toRoot e ovf = s.postService d (s.svcCore d (e.addr % s.nsvc d)) 0
        (e.unit % 16 * 2 ^ 48 + d * 2 ^ 46 + e.aux % 4 * 2 ^ 44 + (if ovf then 2 ^ 43 else 0)) (BitVec.ofNat 64 (e.addr * 65536)))
      ∧ (∀ b r, faultEngine e.faultLeaf = some (b, r) →
          s.toRoot e ovf = s.post (if b then .migrationFault else .sqeFaultMessage) { e with die := r, flag := ovf }))
  ∧ (∀ s : State,
    let v := s.ev.val
    let d := s.ev.die
    let page := fieldOf v 16 40
    let entry (c : Combine) : Prop := s.combineAt (routerOn d c.router) page = some c ∧ c.page = page ∧ c.last = true ∧ c.router < 256
    let reached (n : Nat) : Prop := (tabFind (s.coreAt n).pending page).isSome = true
      ∧ (if v.getLsbD 59 then n ∈ s.cores.map Prod.fst ∧ dieOfCore n = d
        else ∃ c p m, entry c ∧ p ∈ c.ports ∧ 4 ≤ p
          ∧ coreOfPlace d (2 * (c.router / 16) + (p - 4) / 2) (2 * (c.router % 16) + (p - 4) % 2) = some m ∧ n = s.walkerOf m)
    let clears (i : Instr) (t : State) : Prop := exec i s = .next (t.answerReg none)
      ∧ (if v.getLsbD 59 then ∀ x ∈ (t.dieAt d).combine, x.page ≠ page else ∀ c, entry c → t.combineAt (routerOn d c.router) page = none)
      ∧ ∀ n, reached n → tabFind (t.coreAt n).pending page = none
    (∃ t : State, clears .freplyRetry t)
    ∧ (∃ t : State, clears .freplyError t ∧ ∀ n, reached n → Spec.parkedAt t n page = []))

namespace Spec

/-- A die register holds `v` with one field replaced: bits [lo+n−1:lo] are `x`, the others as they were. -/
def withBits (v : Word) (lo n x : Nat) (w : Word) : Prop :=
  fieldOf w lo n = x ∧ ∀ i, i < lo ∨ lo + n ≤ i → w.getLsbD i = v.getLsbD i

/-- The fields of one link's half of LINKSTAT (R379): STATE, RETRAINS, REPLAYS. -/
def linkFields (s : State) (d k : Nat) : Nat × Nat × Nat :=
  let v := s.dieReg d 0x118
  let b := if k = 0 then 32 else 0
  (fieldOf v (b + 30) 2, fieldOf v (b + 16) 8, fieldOf v b 16)

end Spec

/-- R301, R377 to R379, R382, R383: the register rows without a unit of their own, the links, and power.
The model's choices of logs 18, 61, 62, 63 stand behind it. -/
def Obligations.register_event_results : Prop :=
  (∀ s : State,
    let e := s.ev
    let d := e.die
    let v := s.dieReg d e.addr
    let q := s.dieReg d 0x50
    (e.addr ≠ 0x130 → (dieZeroOnly e.addr = true ∧ d ≠ 0) ∨ s.regLocked d e.addr = true → exec .registerWrite s = .next (s.answerReg none))
    ∧ (e.addr ≠ 0x130 → ¬ (dieZeroOnly e.addr = true ∧ d ≠ 0) → s.regLocked d e.addr = false → ∃ w : Word,
      exec .registerWrite s = .next ((s.setDieReg d e.addr w).answerReg none)
      ∧ ∀ i, w.getLsbD i = if (regMask e.addr).getLsbD i then e.val.getLsbD i else v.getLsbD i)
    ∧ (e.addr = 0x130 → d ≠ 0 → exec .registerWrite s = .next (s.answerReg none))
    ∧ (∃ w, exec .nqstatRead s = .next ((s.setDieReg d 0x50 w).answerReg (some q)) ∧ Spec.withBits q 0 32 0 w)
    ∧ (e.val.getLsbD 63 = true → ∃ w, exec .nqstatWrite s = .next ((s.setDieReg d 0x50 w).answerReg none) ∧ Spec.withBits q 63 1 0 w)
    ∧ (e.val.getLsbD 63 = false → exec .nqstatWrite s = .next (s.answerReg none))
    ∧ (∃ w, exec .linkstatRead s = .next ((s.setDieReg d 0x118 w).answerReg (some (s.dieReg d 0x118)))
      ∧ ∀ i, w.getLsbD i = if i % 32 < 24 then false else (s.dieReg d 0x118).getLsbD i))
  ∧ (∀ s : State,
    let d := s.ev.die
    let k := s.ev.unit
    let p := linkPeer d k
    let f := Spec.linkFields s
    d < 4 → k < 2 →
    ((f d k).1 ≠ 2 → exec .linkFlitError s = .next s)
    ∧ ((f d k).1 = 2 → s.ev.flag = false → ∃ t : State, exec .linkFlitError s = .next t
        ∧ Spec.linkFields t d k = (2, (f d k).2.1, min 0xFFFF ((f d k).2.2 + s.ev.aux)) ∧ Spec.linkFields t p k = f p k)
    ∧ ((f d k).1 = 2 → s.ev.flag = true → ∃ t : State, exec .linkFlitError s = .next t
        ∧ Spec.linkFields t d k = (1, (f d k).2) ∧ Spec.linkFields t p k = (1, (f p k).2) ∧ ((t.dieAt d).link k).attempts = 0)
    ∧ ((f d k).1 ≠ 1 → exec .linkRetrainEnd s = .next s)
    ∧ ((f d k).1 = 1 →
      let up (n : Nat) : Nat := min 0xFF (n + 1)
      ∃ t : State, exec .linkRetrainEnd s = .next t
      ∧ (s.ev.flag = true → Spec.linkFields t d k = (2, up (f d k).2.1, min 0xFFFF ((f d k).2.2 + s.ev.aux))
          ∧ Spec.linkFields t p k = (2, up (f p k).2.1, (f p k).2.2))
      ∧ (s.ev.flag = false → ((s.dieAt d).link k).attempts < 2 →
          Spec.linkFields t d k = (1, up (f d k).2.1, (f d k).2.2) ∧ Spec.linkFields t p k = (1, up (f p k).2.1, (f p k).2.2)
          ∧ ((t.dieAt d).link k).attempts = ((s.dieAt d).link k).attempts + 1)
      ∧ (s.ev.flag = false → 2 ≤ ((s.dieAt d).link k).attempts →
          Spec.linkFields t d k = (3, up (f d k).2.1, (f d k).2.2) ∧ Spec.linkFields t p k = (3, up (f p k).2.1, (f p k).2.2))))
  ∧ (∀ s : State,
    let d := s.ev.die
    let v := s.dieReg d 0x128
    let vf := s.ev.val.toNat % 8
    (∃ (w : Word) (t : State), exec .thermalTrip s = .next (t.logHearth d 0x08 6 (regPa d 0x128) 0)
      ∧ t = (s.onDie d (fun x => { x with clockStopped := true })).setDieReg d 0x128 w ∧ Spec.withBits v 62 2 3 w)
    ∧ (∃ w, exec .resumeTemperature s = .next (s.setDieReg d 0x128 w) ∧ Spec.withBits v 62 1 0 w)
    ∧ (s.ev.val.getLsbD 63 = true → ∃ w, exec .pwrctlTripClear s = .next ((s.setDieReg d 0x128 w).answerReg none) ∧ Spec.withBits v 63 1 0 w)
    ∧ (s.ev.val.getLsbD 63 = false → exec .pwrctlTripClear s = .next (s.answerReg none))
    ∧ (5 ≤ vf → exec .pwrctlVf s = .next ((s.logHearth d 0x07 6 (regPa d 0x128) (BitVec.ofNat 64 vf)).answerReg none))
    ∧ (vf < 5 → vf = fieldOf v 0 3 → exec .pwrctlVf s = .next (s.answerReg none))
    ∧ (vf < 5 → vf ≠ fieldOf v 0 3 → ∃ w, exec .pwrctlVf s = .next ((((s.setDieReg d 0x128 w).onDie d (fun x => { x with vfHeld := true })).retryLater
        .vfClockHoldEnd { Ev.empty with die := d }).answerReg none) ∧ Spec.withBits v 0 3 vf w)
    ∧ exec .vfClockHoldEnd s = .next (s.onDie d (fun x => { x with vfHeld := false }))
    ∧ (let on := s.ev.val.getLsbD 8
      (on = v.getLsbD 8 → exec .pwrctlEn s = .next (s.answerReg none))
      ∧ (on = true → v.getLsbD 8 = false → ∃ t : State, exec .pwrctlEn s = .next (t.answerReg none) ∧ (t.dieReg d 0x128).getLsbD 8 = true
          ∧ (d < 4 → t.dst d = if s.dst d = 7 then 0 else s.dst d))
      ∧ (on = false → v.getLsbD 8 = true → s.dieHeld d = true ∨ s.dst d ≠ 0 →
          exec .pwrctlEn s = .next ((s.logHearth d 0x07 6 (regPa d 0x128) 0).answerReg none))
      ∧ (on = false → v.getLsbD 8 = true → s.dieHeld d = false → s.dst d = 0 → d < 4 → ∃ t : State, exec .pwrctlEn s = .next (t.answerReg none)
          ∧ (t.dieReg d 0x128).getLsbD 8 = false ∧ t.dst d = 7)))

/-- R268, R305, R315, R378, R381 to R383, R387, R388, R390, R391, R412, R433: the requests that act on the package's units.
The model's choices of logs 63, 64, 65, 66, 67, 69, 93 stand behind it. -/
def Obligations.management_results : Prop :=
  (∀ s : State, Spec.managed s 1 →
    let n := s.ev.arg.toNat
    let pc := (s.ev.payload.getD 0 0).toNat
    let legal := n < 4032 ∧ s.ev.payload.length = 1 ∧ pc % 2 = 0 ∧ pc < 2 ^ 56
    let quiet := s.underReset (dieOfCore n) = false
    (∀ i, legal → quiet → (s.coreAt n).halted = some i → ∃ t : State, exec .mgmtRestartCore s = .next (t.sendFabric (Spec.reply s 1 0 []))
      ∧ (t.coreAt n).halted = none ∧ (i < 11 → t.ctxAt n i = { s.ctxAt n i with wait := none, fwd := none, pc := BitVec.ofNat 56 pc })
      ∧ (∀ j, j ≠ i → t.ctxAt n j = s.ctxAt n j) ∧ ∀ m, m ≠ n → t.coreAt m = s.coreAt m)
    ∧ (legal → ¬ quiet → exec .mgmtRestartCore s = Spec.answered s 1 1)
    ∧ (¬ legal ∨ (quiet ∧ (s.coreAt n).halted = none) → exec .mgmtRestartCore s = Spec.answered s 1 2))
  ∧ (∀ s : State, Spec.managed s 3 →
    let d := s.ev.unit
    let v := s.dieReg d 0x128
    let vf := s.ev.val.toNat % 8
    let done (t : State) : Out := .next (t.sendFabric (Spec.reply s 3 0 []))
    let quiet := d < 4 ∧ s.ev.aux ≤ 2 ∧ s.underReset d = false
    let legal := (s.ev.aux = 0 → vf < 5) ∧ (s.ev.aux = 1 → s.ev.val.getLsbD 0 = true ∨ s.dieHeld d = false)
    (4 ≤ d ∨ 2 < s.ev.aux → exec .mgmtPower s = Spec.answered s 3 2)
    ∧ (d < 4 → s.ev.aux ≤ 2 → s.underReset d = true → exec .mgmtPower s = Spec.answered s 3 1)
    ∧ (quiet → s.ev.aux = 0 → 5 ≤ vf →
        exec .mgmtPower s = .next ((s.logHearth d 0x07 6 (regPa d 0x128) (BitVec.ofNat 64 vf)).sendFabric (Spec.reply s 3 2 [])))
    ∧ (quiet → s.ev.aux = 1 → s.ev.val.getLsbD 0 = false → s.dieHeld d = true → exec .mgmtPower s = Spec.answered s 3 2)
    ∧ (quiet → s.ev.aux ≠ 2 → legal → (s.dieAt d).clockStopped = true →
        exec .mgmtPower s = done (s.onDie d (fun x => { x with deferredPower := x.deferredPower ++ [(s.ev.aux, s.ev.val)] })))
    ∧ (quiet → s.ev.aux = 0 → legal → (s.dieAt d).clockStopped = false → exec .mgmtPower s = done (s.writeVf d vf))
    ∧ (quiet → s.ev.aux = 1 → legal → (s.dieAt d).clockStopped = false → exec .mgmtPower s = done (s.writeEn d (s.ev.val.getLsbD 0)))
    ∧ (quiet → s.ev.aux = 2 → v.getLsbD 62 = true → exec .mgmtPower s = Spec.answered s 3 2)
    ∧ (quiet → s.ev.aux = 2 → v.getLsbD 62 = false →
        exec .mgmtPower s = done ((s.dieAt d).deferredPower.foldl
          (fun a c => if c.1 = 0 then a.writeVf d (c.2.toNat % 8) else a.writeEn d (c.2.getLsbD 0))
          (s.onDie d (fun x => { x with clockStopped := false, deferredPower := [] })))))
  ∧ (∀ s : State, Spec.managed s 4 →
    let mask := joinChunks 64 (s.ev.payload.map BitVec.toNat)
    let quiet := ∀ c, c < 252 → mask.testBit c = true → s.underReset (dieOfCluster c) = false
    (s.ev.payload.length = 4 → mask < 2 ^ 252 → ¬ quiet → exec .mgmtGating s = Spec.answered s 4 1)
    ∧ (s.ev.payload.length = 4 → mask < 2 ^ 252 → quiet → ∃ t : State, exec .mgmtGating s = .next (t.sendFabric (Spec.reply s 4 0 []))
      ∧ ∀ c, t.clusterAt c = if mask.testBit c then { s.clusterAt c with waitpol := s.ev.val } else s.clusterAt c)
    ∧ (s.ev.payload.length ≠ 4 ∨ 2 ^ 252 ≤ mask → exec .mgmtGating s = Spec.answered s 4 2))
  ∧ (∀ s : State, Spec.managed s 5 →
    let a := s.ev.unit
    let b := s.ev.aux
    let legal := a < 4032 ∧ a ≠ b ∧ clusterOfCore a = clusterOfCore b ∧ (s.coreAt a).retired = false ∧ (s.coreAt b).retired = false
    (¬ legal → exec .mgmtRetireSlice s = Spec.answered s 5 2)
    ∧ (∀ i, legal → s.underReset (dieOfCore a) = false → i < 16 → (∀ d, d < 4 → (s.rmap d i).getLsbD 63 = false) →
      (∀ j, j < i → ∃ d, d < 4 ∧ (s.rmap d j).getLsbD 63 = true) → ∃ t : State, exec .mgmtRetireSlice s = .next (t.sendFabric (Spec.reply s 5 0 []))
      ∧ (∀ d, d < 4 → t.dieReg d (0x60 + 8 * i) = BitVec.ofNat 64 (2 ^ 63 + a * 65536 + b))
      ∧ (t.coreAt a).retired = true ∧ (t.coreAt a).parked = [] ∧ (t.coreAt b).parked = (s.coreAt b).parked ++ (s.coreAt a).parked))
  ∧ (∀ s : State, Spec.managed s 6 →
    let d := s.ev.unit
    let k := s.ev.aux
    (4 ≤ d ∨ 2 ≤ k ∨ (Spec.linkFields s d k).1 ≠ 3 → exec .mgmtRetrainLink s = Spec.answered s 6 2)
    ∧ (d < 4 → k < 2 → (Spec.linkFields s d k).1 = 3 → s.underReset d = false → s.underReset (linkPeer d k) = false →
      ∃ t : State, exec .mgmtRetrainLink s = .next t ∧ (Spec.linkFields t d k).1 = 1 ∧ (Spec.linkFields t (linkPeer d k) k).1 = 1
        ∧ ((t.dieAt d).link k).asked = some (s.ev.die, s.ev.reqid) ∧ t.sent = s.sent))
  ∧ (∀ s : State, Spec.managed s 10 →
    (s.ev.payload.length = 4 → exec .mgmtAttest s = .next (s.sendFabric (Spec.reply s 10 0
      (s.measured.flatten ++ Config.attestSignature s.measured.flatten s.ev.payload))))
    ∧ (s.ev.payload.length ≠ 4 → exec .mgmtAttest s = Spec.answered s 10 2))
  ∧ (∀ s : State, Spec.managed s 11 →
    let cfg := s.dieReg 0 0x140
    let cap := fieldOf cfg 48 16
    let ptr := s.dieReg 0 0x148
    let head := fieldOf ptr 32 32
    let n := min 128 ((fieldOf ptr 0 32 + cap - head) % cap)
    (cap < 2 → exec .mgmtDrainLog s = .next ({ s with logInternal := s.logInternal.drop 128 }.sendFabric (Spec.reply s 11 0
      ((s.logInternal.take 128).flatMap LogEntry.words))))
    ∧ (2 ≤ cap → head < cap → n ≠ 0 → (∃ j, j < 4 ∧ (s.peekWord 0 (fieldOf cfg 0 48 + 32 * head + 8 * j)).2 = true) →
        ∃ w, exec .mgmtDrainLog s =
          .next (((s.setDieReg 0 0x148 w).logHearth 0 0x02 6 (fieldOf cfg 0 48 + 32 * head) 0).sendFabric (Spec.reply s 11 3 []))
        ∧ Spec.withBits ptr 32 32 ((head + 1) % cap) w)
    ∧ (2 ≤ cap → head < cap →
      (∀ i j, i < n → j < 4 → (s.peekWord 0 (fieldOf cfg 0 48 + 32 * ((head + i) % cap) + 8 * j)).2 = false) → ∃ w ws, exec .mgmtDrainLog s = .next ((s.setDieReg 0 0x148 w).sendFabric (Spec.reply s 11 0 ws))
      ∧ Spec.withBits ptr 32 32 ((head + n) % cap) w ∧ ws.length = 4 * n
      ∧ ∀ i j, i < n → j < 4 → ws.getD (4 * i + j) 0 = (s.peekWord 0 (fieldOf cfg 0 48 + 32 * ((head + i) % cap) + 8 * j)).1))
  ∧ (∀ s : State,
    let v := s.ev.val
    let cap := fieldOf v 48 16
    (s.ev.die ≠ 0 → exec .elogbaseWrite s = .next (s.answerReg none))
    ∧ (s.ev.die = 0 → cap < 2 → ∃ t : State, exec .elogbaseWrite s = .next (t.answerReg none) ∧ t.dieReg 0 0x140 = v ∧ t.dieReg 0 0x148 = 0
        ∧ t.logInternal = s.logInternal)
    ∧ (s.ev.die = 0 → 2 ≤ cap → s.logInternal.length < cap → ∃ t : State, exec .elogbaseWrite s = .next (t.answerReg none)
        ∧ t.dieReg 0 0x140 = v ∧ (t.dieReg 0 0x148).toNat = s.logInternal.length ∧ t.logInternal = []))
  ∧ (∀ s : State,
    (s.ev.flag = false → ∃ r : Int, exec .ptpMessage s = .next { s with rate := r } ∧ -200 ≤ r ∧ r ≤ 200
      ∧ (-200 ≤ s.ev.val.toInt → s.ev.val.toInt ≤ 200 → r = s.ev.val.toInt))
    ∧ (s.ev.flag = true → s.dispatched = true → exec .ptpMessage s = .next s)
    ∧ (s.ev.flag = true → s.dispatched = false → exec .ptpMessage s =
        .next { s with time := BitVec.ofNat 64 (min (2 ^ 64 - 1) (s.time.toNat + s.ev.val.toNat)) })
    ∧ (s.ev.aux < 4 → s.ev.unit < 2 → ∃ w, exec .portStateChange s = .next (s.setDieReg s.ev.die (0x300 + 8 * s.ev.unit) w)
      ∧ Spec.withBits (s.dieReg s.ev.die (0x300 + 8 * s.ev.unit)) 61 2 s.ev.aux w))

/-- R372, R381, R385 to R390, R408 to R410: the rows of resets and boots.
The model's choices of logs 5, 66, 67, 68, 85, 114 stand behind it. -/
def Obligations.reset_results : Prop :=
  (∀ (s : State) (step : Nat) (i : Instr),
    (step, i) ∈ [(1, Instr.wrQuiesce), (2, .wrWriteBack), (3, .wrReset), (4, .wrRetrain), (5, .wrDiscover), (0, .wrAdmit)] →
    let v := s.ev.val
    let d := v.toNat % 4
    let clean := fieldOf v 48 16 = 0 ∧ fieldOf v 11 5 = 0 ∧ fieldOf v 2 6 = 0 ∧ (step = 0 ∨ fieldOf v 16 32 = 0)
    let due := fieldOf (s.dieReg 0 0x138) 62 2 ≠ 0 ∧ d ≠ 0
      ∧ (∀ w, s.warm = some w → w.die = d ∧ step = (if w.step = 5 then 0 else w.step + 1))
      ∧ (s.warm = none → step = 1 ∧ s.dst d = 0 ∧ s.dieInUse d = false ∧ s.dieBusy d = false)
    (s.ev.die ≠ 0 → exec i s = .next (s.answerReg none))
    ∧ (s.ev.die = 0 → ¬ (clean ∧ due) → ∃ (w : Word) (t : State), exec i s = .next (t.answerReg none)
        ∧ t = (s.setDieReg 0 0x138 w).logHearth 0 0x07 6 (regPa 0 0x130) 2 ∧ Spec.withBits (s.dieReg 0 0x138) 62 2 2 w)
    ∧ (s.ev.die = 0 → clean → due → s.warm.all (fun w => w.asked.isNone) → ∃ t : State, exec i s = .next (t.answerReg none)
        ∧ t.dieReg 0 0x138 = BitVec.ofNat 64 (step * 256 + d) ∧ t.warm = some { die := d, step := step, asked := none, regs := [] }
        ∧ t.dst d = (if step = 0 then 5 else step)
        ∧ (step = 1 ∨ step = 3 ∨ step = 4 → ∀ k, k < 2 → (Spec.linkFields t (linkPeer d k) k).1 = (if step = 1 then 2 else if step = 3 then 0 else 1))
        ∧ (step = 3 → (t.coreAt (1008 * d)).ctxs = Core.reset.ctxs ∧ (t.coreAt (1008 * d)).released = false ∧ (t.coreAt (1008 * d)).l2 = [])))
  ∧ (∀ (s : State) (w : WarmReset),
    let d := s.ev.die
    let k := s.ev.unit
    s.warm = some w → w.die = d → w.step = k → 1 ≤ d → d < 4 → fieldOf (s.dieReg 0 0x138) 62 2 = 0 → w.asked = none →
    let res (t : State) : Nat := fieldOf (t.dieReg 0 0x138) 62 2
    (k ∈ [1, 2, 3] → ∃ t : State, exec .wrStepDone s = .next t ∧ res t = 1 ∧ t.warm = some w)
    ∧ (k = 4 → s.ev.flag = true → ∃ t : State, exec .wrStepDone s = .next t ∧ res t = 1 ∧ t.warm = some w
        ∧ ∀ l, l < 2 → (Spec.linkFields t d l).1 = 2 ∧ (Spec.linkFields t (linkPeer d l) l).1 = 2)
    ∧ (k = 5 → (s.dieReg d 0x128).getLsbD 62 = true → exec .wrStepDone s = .next (s.retryLater .wrStepDone s.ev))
    ∧ (k = 5 → (s.dieReg d 0x128).getLsbD 62 = false → s.ev.flag = true → ∃ t : State, exec .wrStepDone s = .next t ∧ res t = 1 ∧ t.warm = some w)
    ∧ (k = 4 ∨ (k = 5 ∧ (s.dieReg d 0x128).getLsbD 62 = false) → s.ev.flag = false → ∃ t : State, exec .wrStepDone s = .next t
        ∧ res t = 3 ∧ t.warm = none ∧ t.dst d = 6)
    ∧ (k = 0 → ∃ t : State, exec .wrStepDone s = .next t ∧ res t = 1 ∧ t.warm = none ∧ t.dst d = 0))
  ∧ (∀ s : State, Spec.managed s 2 →
    let d := s.ev.unit
    (4 ≤ d → exec .mgmtWarmReset s = Spec.answered s 2 2)
    ∧ (d < 4 → s.stepAccepted d 1 = false → exec .mgmtWarmReset s = Spec.answered s 2 1)
    ∧ (d = 0 → exec .mgmtWarmReset s = Spec.answered s 2 1)
    ∧ (d < 4 → s.stepAccepted d 1 = true → ∃ t : State, exec .mgmtWarmReset s = .next t ∧ t.dst d = 1 ∧ t.sent = s.sent
        ∧ t.dieReg 0 0x138 = BitVec.ofNat 64 (256 + d) ∧ ∃ w, t.warm = some w ∧ w.die = d ∧ w.step = 1 ∧ w.asked = some (s.ev.die, s.ev.reqid)
        ∧ ∀ o ∈ savedRegs, (o, s.dieReg d o) ∈ w.regs))
  ∧ (∀ s : State, ∃ t : State, exec .coldBoot s = .next t ∧ t.time = s.ev.val ∧ t.boot = .romWaits ∧ t.cores = [] ∧ t.clusters = []
      ∧ t.dies = [] ∧ t.queues = [] ∧ t.parts = [] ∧ t.mem = State.reset.mem ∧ t.dstate = State.reset.dstate ∧ t.measured.length = 3)
  ∧ (∀ s : State,
    (s.boot ≠ .romWaits → exec .puoriImage s = .next s)
    ∧ (s.boot = .romWaits → Config.imageVerifies s.ev.data = false → exec .puoriImage s = .next (s.logHearth 0 0x07 6 0 0))
    ∧ (s.boot = .romWaits → Config.imageVerifies s.ev.data = true → ∃ t : State, exec .puoriImage s = .next t ∧ t.boot = .running
        ∧ t.measured.length = s.measured.length + 2
        ∧ (∀ d, d < 4 → (Spec.linkFields t d 0).1 = 2 ∧ (Spec.linkFields t d 1).1 = 2
          ∧ ∀ n, (cornerPlace d).bind (fun p => coreOfPlace d p.1 p.2) = some n → dieOfCore n = d ∧ (t.coreAt n).released = true
            ∧ ((t.coreAt n).ctx 0).life = .live ∧ ((t.coreAt n).ctx 0).priv = 2)
        ∧ ∀ d, d < 4 → dieComplete d = false → t.dst d = 6))

namespace Spec

/-- An SSD's EN, STATE and ERRC, and what its controller is waited for (R395). -/
def ssdStands (t : State) (d n : Nat) (en : Bool) (st errc step : Nat) : Prop :=
  let v := t.dieReg d (0x200 + 32 * n)
  v.getLsbD 63 = en ∧ fieldOf v 60 3 = st ∧ fieldOf v 48 8 = errc ∧ ((t.dieAt d).ssd n).step = step

/-- A completion entry of SSD `n` is in hand, and it names an outstanding command (R393). -/
def ssdDone (s : State) (d n : Nat) (c : SsdCmd) : Prop :=
  s.ev.die = d ∧ s.ev.unit = n ∧ n < 4 ∧ s.ssdState d n ≠ 1 ∧ ((s.dieAt d).ssd n).cmds.find? (fun x => x.cid == s.ev.aux) = some c

/-- The state in which the command has left its SSD, which has written its completion entry. -/
def ssdFreed (s : State) (d n : Nat) (c : SsdCmd) : State :=
  (s.putCompletion d n 2).onSsd d n (fun y => { y with cmds := y.cmds.filter (fun z => z.cid != c.cid) })

end Spec

/-- R392, R393, R395, R402: SSD_ENABLE, SSD_DISABLE, CSTS_RDY_CHANGE, CAP_TO_EXPIRY, NVME_COMPLETION of a bring-up, the time-out and the
lost link.
The model's choices of logs 71, 72, 73, 74 stand behind it. -/
def Obligations.ssd_results : Prop :=
  (∀ (s : State) (n : Nat),
    let d := s.ev.die
    let v := s.dieReg d (0x200 + 32 * n)
    let x := (s.dieAt d).ssd n
    s.ev.addr = 0x200 + 32 * n → n < 4 →
    (v.getLsbD 63 = true → exec .ssdEnable s = .next (s.answerReg none))
    ∧ (v.getLsbD 63 = false → ∃ t : State, exec .ssdEnable s = .next (t.answerReg none)
      ∧ fieldOf (t.dieReg d (0x200 + 32 * n)) 0 32 = s.ev.val.toNat % 2 ^ 32
      ∧ (fieldOf v 60 3 = 4 → Spec.ssdStands t d n true 4 (fieldOf v 48 8) x.step)
      ∧ (fieldOf v 60 3 ≠ 4 → Config.ssdPresent (4 * d + n) = true → Spec.ssdStands t d n true 1 0 1)
      ∧ (fieldOf v 60 3 ≠ 4 → Config.ssdPresent (4 * d + n) = false → Spec.ssdStands t d n true 3 1 0))
    ∧ (v.getLsbD 63 = false → ∃ w, exec .ssdDisable s = .next ((s.setDieReg d (0x200 + 32 * n) w).answerReg none)
      ∧ Spec.withBits v 0 32 (s.ev.val.toNat % 2 ^ 32) w)
    ∧ (v.getLsbD 63 = true → ∃ t : State, exec .ssdDisable s = .next (t.answerReg none)
      ∧ Spec.ssdStands t d n false 4 (fieldOf v 48 8) (if x.cmds = [] then 7 else x.step)))
  ∧ (∀ (s : State) (en : Bool) (st errc step : Nat),
    let d := s.ev.die
    let n := s.ev.unit
    n < 4 → Spec.ssdStands s d n en st errc step →
    let fails (i : Instr) (e : Nat) : Prop := ∃ t : State, exec i s = .next t ∧ Spec.ssdStands t d n en 3 e 0
    let goes (i : Instr) (st' step' : Nat) : Prop := ∃ t : State, exec i s = .next t ∧ Spec.ssdStands t d n en st' errc step'
    let status := s.ev.val.toNat % 2 ^ 16
    let w (k : Nat) : Nat := (s.ev.data.getD k 0).toNat
    (step = 1 → s.ev.flag = false → goes .cstsRdyChange st 2) ∧ (step = 2 → s.ev.flag = true → goes .cstsRdyChange st 3)
    ∧ (step = 7 → s.ev.flag = false → en = false → ∃ t : State, exec .cstsRdyChange s = .next t ∧ Spec.ssdStands t d n false 0 0 0)
    ∧ (step = 7 → s.ev.flag = false → en = true → Config.ssdPresent (4 * d + n) = true →
        ∃ t : State, exec .cstsRdyChange s = .next t ∧ Spec.ssdStands t d n true 1 0 1)
    ∧ (step = 1 ∨ step = 7 → fails .capToExpiry 2) ∧ (step = 2 → fails .capToExpiry 3)
    ∧ (st = 1 → (step = 3 → (status = 0 → goes .nvmeCompletion 1 4) ∧ (status ≠ 0 → fails .nvmeCompletion 4))
      ∧ (step = 4 → (status = 0 → w 0 ≠ 0 → (w 1 = 9 ∨ w 1 = 12) → w 2 = 0 → ∃ t : State, exec .nvmeCompletion s = .next t
            ∧ Spec.ssdStands t d n en 1 errc 5 ∧ t.nsze d n = w 0 % 2 ^ 48 ∧ t.lbads d n = w 1)
          ∧ (status = 0 → w 0 ≠ 0 → (w 1 ≠ 9 ∧ w 1 ≠ 12) ∨ w 2 ≠ 0 → fails .nvmeCompletion 6))
      ∧ (step = 5 → (status = 0 → goes .nvmeCompletion 1 6) ∧ (status ≠ 0 → fails .nvmeCompletion 7))
      ∧ (step = 6 → (status = 0 → ∃ t : State, exec .nvmeCompletion s = .next t ∧ Spec.ssdStands t d n en 2 0 0)
          ∧ (status ≠ 0 → fails .nvmeCompletion 7))
      ∧ (s.ev.flag = false → (step = 3 ∨ step = 4 → fails .ssdCommandTimeout 4) ∧ (step = 5 ∨ step = 6 → fails .ssdCommandTimeout 7))
      ∧ fails .pcieLinkDown 9)
    ∧ (st = 2 ∨ st = 4 → fails .pcieLinkDown 9)
    ∧ (s.ev.flag = true → let out := ∃ c ∈ ((s.dieAt d).ssd n).cmds, c.cid = s.ev.aux ∧ c.due = s.ev.val
      (out → s.time.toNat < s.ev.val.toNat → exec .ssdCommandTimeout s = .next (s.retryLater .ssdCommandTimeout s.ev))
      ∧ (out → s.ev.val.toNat ≤ s.time.toNat → fails .ssdCommandTimeout 8)
      ∧ (¬ out → exec .ssdCommandTimeout s = .next s)))
  ∧ (∀ (s : State) (d n : Nat) (page : Option Nat) (r : List Word), n < 4 →
    let due : Word := BitVec.ofNat 64 (min (2 ^ 64 - 1) (s.time.toNat + 2000000000))
    let cid := ((s.dieAt d).ssd n).freeCid
    (((s.submit d n page r).dieAt d).ssd n).cmds = ((s.dieAt d).ssd n).cmds ++ [{ cid := cid, page := page, desc := r, due := due }]
    ∧ Move.event .ssdCommandTimeout { Ev.empty with die := d, unit := n, aux := cid, val := due, flag := true } ∈ (s.submit d n page r).agenda)
  ∧ (∀ x : Ssd, x.cmds.length < 256 → x.freeCid < 256 ∧ ∀ c ∈ x.cmds, c.cid ≠ x.freeCid)

/-- R396 to R404: SQE_FAULT_MESSAGE, the free-frame stack, the request ring and NVME_COMPLETION of I/O commands.
The model's choices of logs 72, 73, 74, 79, 93, 96, 105, 114 stand behind it. -/
def Obligations.storage_results : Prop :=
  (∀ s : State,
    let e := s.ev
    let d := e.die
    let a := dieOfCore e.core
    let l0 := e.faultLeaf
    (∀ f, (s.dieAt d).sbFault e.addr = some f → exec .sqeFaultMessage s =
      .next (s.putFault d { f with dies := insertNat a f.dies, ovf := f.ovf || e.flag }))
    ∧ (∀ l, (s.dieAt d).sbFault e.addr = none → (s.dieAt d).sbFaults.length < 4096 → s.leafAt d l0.pa l0.level = some l →
      (l.v = true ∨ l.sb = false ∨ l.ssd / 4 ≠ d → exec .sqeFaultMessage s = .next (s.replyPage d a e.addr e.flag false))
      ∧ (l.v = false → l.sb = true → l.ssd / 4 = d →
        let n := l.ssd % 4
        let x := (s.dieAt d).ssd n
        let b := 2 ^ (16 - s.lbads d n)
        let good := l.level = 0 ∧ s.ssdState d n = 2 ∧ b ∣ l.next ∧ l.next + b ≤ s.nsze d n
        (¬ good → exec .sqeFaultMessage s = .next ((s.logHearth d 0x07 5 l.pa 0).replyPage d a e.addr e.flag true))
        ∧ (good → x.writesOver l.next b = false → x.cmds.length < 256 → 0 < s.ffsTop d → (s.dieAt d).sbQueue = [] →
          (s.peekWord d (fieldOf (s.dieReg d 0x280) 0 48 + 8 * (s.ffsTop d - 1))).2 = false →
          ∃ (t : State) (fr : Nat), exec .sqeFaultMessage s = .next t
          ∧ (t.dieAt d).sbFault e.addr = some { page := e.addr, leaf := l, frame := some fr, dies := [a], ovf := e.flag, submitted := 1 }
          ∧ BitVec.ofNat 64 fr = (s.peekWord d (fieldOf (s.dieReg d 0x280) 0 48 + 8 * (s.ffsTop d - 1))).1 ∧ t.ffsTop d = s.ffsTop d - 1
          ∧ ((t.dieAt d).ssd n).cmds = x.cmds ++ [{ cid := x.freeCid, page := some e.addr, desc := [], due := BitVec.ofNat 64 (min (2 ^ 64 - 1) (s.time.toNat + 2000000000)) }]))))
  ∧ (∀ s : State,
    let d := s.ev.die
    let v := s.ev.val
    let st := s.dieReg d 0x298
    let f := v.toNat / 2 ^ 16 % 2 ^ 32 * 2 ^ 16
    let legal := fieldOf v 48 16 = 0 ∧ fieldOf v 0 16 = 0 ∧ f < 0x8000000000 ∧ s.ffsTop d ≠ fieldOf (s.dieReg d 0x280) 48 16
    (∃ w, exec .ffsbaseWrite s = .next (((s.setDieReg d 0x280 v).setDieReg d 0x288 w).answerReg none) ∧ Spec.withBits (s.dieReg d 0x288) 0 32 0 w)
    ∧ (legal → exec .ffsPush s = .next ((((s.poke d (fieldOf (s.dieReg d 0x280) 0 48 + 8 * s.ffsTop d) (bytesLE 8 f)).setFfsTop d
        (s.ffsTop d + 1)).progressFaults d).answerReg none))
    ∧ (¬ legal → ∃ w, exec .ffsPush s = .next ((((s.setDieReg d 0x298 w).logHearth d 0x0B 5 f 0).progressFaults d).answerReg none)
        ∧ Spec.withBits st 0 32 (min 0xFFFFFFFF (fieldOf st 0 32 + 1)) w)
    ∧ (∃ w, exec .ffsstatRead s = .next ((s.setDieReg d 0x298 w).answerReg (some st)) ∧ Spec.withBits st 0 32 0 w)
    ∧ (v.getLsbD 62 = true → ∃ w, exec .ffsstatWrite s = .next ((s.setDieReg d 0x298 w).answerReg none) ∧ Spec.withBits st 62 1 0 w)
    ∧ (v.getLsbD 62 = false → exec .ffsstatWrite s = .next (s.answerReg none))
    ∧ exec .srqbaseWrite s = .next (((s.setDieReg d 0x2A0 v).setDieReg d 0x2A8 0).answerReg none)
    ∧ (s.srqCap d ≤ fieldOf v 32 32 → exec .srqTailWrite s = .next ((s.logHearth d 0x07 5 (regPa d 0x2A8) 0).answerReg none))
    ∧ (fieldOf v 32 32 < s.srqCap d → ∃ w, exec .srqTailWrite s = .next (((s.setDieReg d 0x2A8 w).kickRing d).answerReg none)
        ∧ Spec.withBits (s.dieReg d 0x2A8) 32 32 (fieldOf v 32 32) w))
  ∧ (∀ (s : State) (i : Instr) (r : List Word), i ∈ [Instr.srqFlush, .srqWrite, .srqRead] →
    let d := s.ev.die
    let n := reqPort r
    let head := s.srqHead d
    0 < s.srqCap d → s.srqCap d < 2 ^ 32 → head ≠ s.srqTail d → s.srqDesc d = (r, false) →
    let lost := paHost (reqBuf r) && (s.badRegion d (reqBuf r)).isSome
    ∃ w, Spec.withBits (s.dieReg d 0x2A8) 0 32 ((head + 1) % s.srqCap d) w
    ∧ (lost = true → exec i s = .next ((((s.logRegion d (reqBuf r)).setDieReg d 0x2A8 w).requestDone d r 0xFFFF).kickRing d))
    ∧ (lost = false → s.requestBad d r = true → exec i s = .next (((s.setDieReg d 0x2A8 w).requestDone d r 0xFFFF).kickRing d))
    ∧ (lost = false → s.requestBad d r = false → 256 ≤ ((s.dieAt d).ssd n).cmds.length → exec i s = .next (s.retryLater i s.ev))
    ∧ (lost = false → s.requestBad d r = false → ((s.dieAt d).ssd n).cmds.length < 256 → reqOpc r ≠ 1 →
        exec i s = .next (((s.setDieReg d 0x2A8 w).submit d n none r).kickRing d))
    ∧ (s.requestBad d r = false → ((s.dieAt d).ssd n).cmds.length < 256 → reqOpc r = 1 → paHost (reqBuf r) = false →
        (paHbm (reqBuf r) = true → (s.setDieReg d 0x2A8 w).bufferBad d (reqBuf r) (reqNlb r * 2 ^ s.lbads d n) = false) →
        exec i s = .next (((s.setDieReg d 0x2A8 w).submit d n none r).kickRing d))
    ∧ (s.requestBad d r = false → ((s.dieAt d).ssd n).cmds.length < 256 → reqOpc r = 1 → paHbm (reqBuf r) = true →
        (s.setDieReg d 0x2A8 w).bufferBad d (reqBuf r) (reqNlb r * 2 ^ s.lbads d n) = true →
        exec i s = .next (((s.setDieReg d 0x2A8 w).requestDone d r 0xA080).kickRing d))
    ∧ (lost = false → s.requestBad d r = false → ((s.dieAt d).ssd n).cmds.length < 256 → reqOpc r = 1 → paHost (reqBuf r) = true →
        let u := s.setDieReg d 0x2A8 w
        exec i s = .next (((u.sendRma d (reqBuf r) false [BitVec.ofNat 64 (reqNlb r * 2 ^ s.lbads d n)]).onDie d (fun x => { x with
          bufReads := x.bufReads ++ [((u.remoteOf d (reqBuf r)).1, r)] })).kickRing d)))
  ∧ (∀ (s : State) (d : Nat) (b : Nat × List Word), s.ev.core = 4032 + d →
    let mine (b : Nat × List Word) : Bool := reqBuf b.2 == s.ev.addr
    (s.dieAt d).bufReads.find? mine = some b →
    let u := s.onDie d (fun x => { x with bufReads := x.bufReads.eraseP mine })
    (s.ev.aux ≠ 0 → exec .remoteReadResponse s = .next ((u.logHearth d 0x06 5 s.ev.addr 5).requestDone d b.2 0xA080))
    ∧ (s.ev.aux = 0 → s.ssdState d (reqPort b.2) = 2 → ((s.dieAt d).ssd (reqPort b.2)).cmds.length < 256 →
        exec .remoteReadResponse s = .next (u.submit d (reqPort b.2) none b.2))
    ∧ (s.ev.aux = 0 → s.ssdState d (reqPort b.2) ≠ 2 →
        exec .remoteReadResponse s = .next (u.requestDone d b.2 0xFFFF)))
  ∧ (∀ (s : State) (d n : Nat) (c : SsdCmd) (r : List Word), Spec.ssdDone s d n c → c.page = none → c.desc = r → reqOpc r ≠ 2 →
    exec .nvmeCompletion s = .next ((((Spec.ssdFreed s d n c).requestDone d r (s.ev.val.toNat % 2 ^ 16)).progressFaults d).stopWhenIdle d n))
  ∧ (∀ (s : State) (d : Nat) (r : List Word), (s.dieAt d).hostWrites = [] →
    let note := BitVec.ofNat 64 (reqSlba r)
    (reqMode r = 1 → reqBoxOk r = true → s.requestDone d r 0 =
      s.postInbox (reqCore r) (reqCtx r) (0x1600 + d) (entry16 0 (reqPort r) (reqTag r) 0) note)
    ∧ (∀ bs, reqMode r = 2 → reqSigOk r = true → paHost (reqSig r) = false → s.peek d (reqSig r) 8 = .ok (bs, false) →
        s.requestDone d r 0 = s.poke d (reqSig r) (bytesLE 8 (BitVec.ofNat 64 (fromBytesLE bs) - 1 : Word).toNat))
    ∧ (reqMode r = 2 ∨ reqMode r = 3 → reqSigOk r = true → paHost (reqSig r) = true → s.badRegion d (reqSig r) = none → ∃ t : State,
        let q := s.remoteOf d (reqSig r)
        s.requestDone d r 0 = t ∧ (t.dieAt d).sigWaits = (s.dieAt d).sigWaits ++ [(r, 0)] ∧ (t.dieAt d).hostWrites = [q.1]
        ∧ t.sent = s.sent ++ [{ kind := 0x03, endpoint := q.1, target := 0, reqid := 0, arg := q.2, payload := [1] }])
    ∧ (reqMode r = 2 → reqSigOk r = true → s.finishRequest d r 0 false = s
        ∧ s.finishRequest d r 0 true = (s.logHearth d 0x0B 5 (reqSlba r) 0xFFFF).postRequest d r 0xFFFF true)
    ∧ (reqMode r = 3 → reqSigOk r = true → reqBoxOk r = true →
        s.finishRequest d r 0 false = s.postInbox (reqCore r) (reqCtx r) (0x1600 + d) (entry16 0 (reqPort r) (reqTag r) 0) note
        ∧ s.finishRequest d r 0 true = ((s.logHearth d 0x0B 5 (reqSlba r) 0xFFFF).postRequest d r 0xFFFF false).postRequest d r 0xFFFF true))
  ∧ (∀ (s : State) (d n page : Nat) (c : SsdCmd) (f : SbFault) (l : Leaf), Spec.ssdDone s d n c → c.page = some page →
    s.ev.val.toNat % 2 ^ 16 = 0 → s.ev.flag = false → s.ev.data.length = 8192 → (Spec.ssdFreed s d n c |>.dieAt d).sbFault page = some f →
    ∀ u, u = Spec.ssdFreed s d n c → ∀ fr, f.frame = some fr → fr < 2 ^ 47 → paHost fr = false →
    (∀ e, u.peekLine d fr = .error e → exec .nvmeCompletion s = .next (((((u.pushFrame d fr true).logHearth d 0x06 5 fr
      (BitVec.ofNat 64 e)).answerFault d f true).progressFaults d).stopWhenIdle d n)) ∧
    (∀ y, u.peekLine d fr = .ok y → ∀ t, t = ({ u with freeCtr := u.freeCtr + 8192 }.poke d fr
      (s.ev.data.flatMap (fun w : Word => bytesLE 8 w.toNat))).writeThrough fr 65536 →
    (t.leafAt d f.leaf.pa f.leaf.level = some l → l.v = false → l.sb = true → l.ssd = f.leaf.ssd → l.next = f.leaf.next → ∃ w,
      exec .nvmeCompletion s = .next ((((t.poke d l.pa (bytesLE 8 w)).answerFault d f false).progressFaults d).stopWhenIdle d n)
      ∧ w / 2 ^ 63 % 2 = 1 ∧ w % 2 ^ 32 = fr / 65536 ∧ w / 2 ^ 32 % 2 ^ 31 = l.w0.toNat / 2 ^ 32 % 2 ^ 31)
    ∧ (t.leafAt d f.leaf.pa f.leaf.level = none →
      exec .nvmeCompletion s = .next (((((t.logUnread d f.leaf.pa).pushFrame d fr true).answerFault d f false).progressFaults d).stopWhenIdle d n))))

namespace Spec

/-- A message of a kind from a valid endpoint with a right header (R412, R413). -/
def fromEndpoint (s : State) (kind : Nat) : Prop := s.endpointValid s.ev.die = true ∧ s.ev.headerOk kind = true

/-- The signal that a message names may be accessed and is at its home: the state with the access counted, the slice and the line (R420). -/
def signalAt (s : State) (row : Instr) (need : Need) (u : State) (slice : Nat) (line : L2Line) : Prop :=
  let va := s.ev.arg.toNat
  va % 8 = 0 ∧ va < 2 ^ 56 ∧ isTranslated va = true ∧ s.ev.aux = 0 ∧ s.readSegments (s.fabricAgent row) [(va, 8)] = s
  ∧ s.agentRefused (s.fabricAgent row) need va 8 = none ∧ ∃ leaf t, s.homeLine 0 va none = (.line slice line leaf, t) ∧ line.poisoned (va % 64) 8 = false ∧ u = t.countAccess slice va 0 leaf

/-- Launch statuses sent to the endpoint of the message in hand, one for each entry (R416). -/
def statuses (s : State) (status : Nat) (entries : List Word) : State :=
  { s with sent := s.sent ++ entries.map (fun w => { kind := 0x81, endpoint := s.ev.die, target := s.ev.target, reqid := s.ev.reqid,
                                                     arg := BitVec.ofNat 64 status, payload := [w] }) }

end Spec

/-- R411 to R416, R420, R421: the rows of messages and RMA operations that arrive from outside.
The model's choices of logs 19, 70, 77, 78, 81, 93, 105, 110, 114 stand behind it. -/
def Obligations.fabric_results : Prop :=
  (∀ s : State,
    let dropped := s.logHearth 0 0x06 6 0 0
    s.endpointValid s.ev.die = false →
    (∀ i ∈ [Instr.fabricEnqueue, .fabricDecrement, .fabricWatch, .fabricReleaseRequest, .fabricGrant, .fabricDecrementFailed, .mgmtPower,
      .rmaRead, .rmaWrite, .uetAtomic], exec i s = .next dropped))
  ∧ (∀ s : State, Spec.fromEndpoint s 1 →
    let q := s.ev.target
    let ws := s.ev.payload
    let n := ws.length / 16
    let recs := (List.range n).map (fun i => (ws.drop (16 * i)).take 16)
    let x := s.queueAt q
    let die := q / 8192
    let bad := q < 32768 ∧ s.queueBad q = true
    let owned := q < 32768 ∧ (s.queueEntry q 0).getLsbD 63 = true
    let full := owned ∧ 64 + fieldOf (s.queueEntry q 1) 0 16 < x.records.length + x.spilled + n
    (¬ bad → ws = [] ∨ ws.length % 16 ≠ 0 → exec .fabricEnqueue s = .next (Spec.statuses s 1 [0]))
    ∧ (bad → ws ≠ [] → ws.length % 16 = 0 →
        exec .fabricEnqueue s = .next (Spec.statuses (s.logHearth die 0x02 6 (s.queuePa q) 0) 8 (recs.map recEntry)))
    ∧ (¬ bad → ws ≠ [] → ws.length % 16 = 0 → full → exec .fabricEnqueue s = .next (Spec.statuses s 7 (recs.map recEntry)))
    ∧ (¬ bad → ws ≠ [] → ws.length % 16 = 0 → ¬ owned ∨ s.queueOwner q ≠ s.ev.die → ¬ full →
        exec .fabricEnqueue s = .next (Spec.statuses s 8 (recs.map recEntry)))
    ∧ (ws ≠ [] → ws.length % 16 = 0 → owned → ¬ full → s.queueOwner q = s.ev.die →
      (x.spilled = 0 → x.records.length + n ≤ 64 → ∃ t : State, exec .fabricEnqueue s = .next t
        ∧ t.queueAt q = { x with records := x.records ++ recs } ∧ t.sent = s.sent
        ∧ (x.records = [] → Move.event .recordHeadCheck { Ev.empty with unit := q, die := die } ∈ t.agenda))
      ∧ (64 ≤ x.records.length → n = 1 → exec .fabricEnqueue s =
          .next ((s.poke die (s.overflowPa q (x.ovfHead + x.spilled)) (ws.flatMap (fun w : Word => bytesLE 8 w.toNat))).onQueue q
            (fun y => { y with spilled := y.spilled + 1 })))))
  ∧ (∀ (s u : State) (slice : Nat) (line : L2Line), Spec.fromEndpoint s 3 → s.ev.payload.length = 1 →
    Spec.signalAt s .fabricDecrement (Need.both false) u slice line →
    exec .fabricDecrement s = .next (u.decrementLine slice s.ev.arg.toNat line (s.ev.payload.getD 0 0)))
  ∧ (∀ (s u : State) (slice : Nat) (line : L2Line), Spec.fromEndpoint s 4 → s.ev.payload.length = 2 →
    Spec.signalAt s .fabricWatch (Need.load false) u slice line →
    let va := s.ev.arg.toNat
    let v := BitVec.ofNat 64 (fromBytesLE (line.bytes (va % 64) 8))
    let thr := s.ev.payload.getD 0 0
    let cookie := s.ev.payload.getD 1 0
    (v.toInt ≤ thr.toInt → exec .fabricWatch s = .next (u.sendFabric
      { kind := 0x84, endpoint := s.ev.die, target := 0, reqid := s.ev.reqid, arg := s.ev.arg, payload := [v, cookie] }))
    ∧ (thr.toInt < v.toInt → (u.dieAt (dieOfCore slice)).hostWatches.length < 4096 → exec .fabricWatch s =
      .next (u.onDie (dieOfCore slice) (fun x => { x with hostWatches := x.hostWatches ++
        [{ va := va, thr := thr, cookie := cookie, endpoint := s.ev.die, reqid := s.ev.reqid }] }))))
  ∧ (∀ (s : State) (r : RemoteDec), Spec.fromEndpoint s 0x83 → s.remoteDecs.find? (fun r => BitVec.ofNat 64 r.addr == s.ev.arg) = some r →
    let s1 : State := { s with remoteDecs := s.remoteDecs.filter (fun x => x != r) }
    let n := r.core
    let answered (v : State) : State := v.onCore n (fun c => { c with hostWrites := c.hostWrites.erase s.ev.die })
    let s2 := s1.logEngine n 0x06 r.addr 5
    let va := r.data.getD 1 0
    let waits := (s1.coreAt n).mx.sig = 1 ∧ ∃ h rest, (s1.coreAt n).mx.queue = h :: rest ∧ h.tag = r.unit
    (r.agent = 4 →
      (∀ o, (s2.coreAt n).findOp r.unit = some o → exec .fabricDecrementFailed s =
        .next ((answered s2).putOp n (if o.err = 0 then { o with err := 5, errDw := BitVec.ofNat 64 o.sig } else o)))
      ∧ ((s2.coreAt n).findOp r.unit = none → exec .fabricDecrementFailed s =
        .next (if r.data.getD 0 0 = 0 then s2.onCore n (fun c => { c with opLerr := 5 }) else s2)))
    ∧ (r.agent = 5 →
      (waits → exec .fabricDecrementFailed s = .next ((answered s1).onCore n (fun c => { c with mx := { c.mx with sig := 2 } })))
      ∧ (¬ waits → exec .fabricDecrementFailed s = .next (((s1.onCore n (fun c => { c with mx := { c.mx with lerr := 8 } })).postInbox n
          (r.data.getD 2 0).toNat 0x1400 (inboxDw0 0x14 1 (8 * 2 ^ 48 + r.unit * 2 ^ 32)) va).logCore n 0x02 (fieldOf va 0 56) 8)))
    ∧ (r.agent = 8 →
      let mine (w : List Word × Nat) : Bool := w.1 == r.data && (s1.remoteOf n (reqSig w.1)).1 == s.ev.die
      (∀ w, (s1.dieAt n).sigWaits.find? mine = some w → exec .fabricDecrementFailed s = .next (((s1.onDie n (fun x => { x with
        sigWaits := x.sigWaits.eraseP mine, hostWrites := x.hostWrites.erase s.ev.die })).finishRequest n w.1 w.2 true).ackStorage n))
      ∧ ((s1.dieAt n).sigWaits.find? mine = none → ∃ entry, exec .fabricDecrementFailed s = .next ((s1.logHearth n 0x0B 5 (reqSlba r.data) 0xFFFF).postInbox
          (if reqMode r.data = 2 then (s1.logHearth n 0x0B 5 (reqSlba r.data) 0xFFFF).svcCore n 0 else reqCore r.data) (if reqMode r.data = 2 then 0 else reqCtx r.data) (0x1600 + n) entry
          (BitVec.ofNat 64 (reqSlba r.data))) ∧ fieldOf entry 16 16 = 0xFFFF
        ∨ (reqMode r.data = 2 ∧ (s1.logHearth n 0x0B 5 (reqSlba r.data) 0xFFFF).nsvc n = 0)))
    ∧ (r.agent = 7 → exec .fabricDecrementFailed s =
      .next ((s1.logHearth (dieOfCore n) 0x06 6 r.addr 10).sendStatus r.unit 10 (r.data.getD 0 0))))
  ∧ (∀ s : State, s.endpointValid s.ev.die = true →
    let va := s.ev.val.toNat % 2 ^ 56
    let answer (u : State) (kind status : Nat) (ws : List Word) : State :=
      u.sendFabric { kind := kind, endpoint := s.ev.die, target := status, reqid := 0, arg := s.ev.val, payload := ws }
    let n := (s.ev.data.getD 0 0).toNat
    let bs := (s.ev.data.flatMap (fun w : Word => bytesLE 8 w.toNat)).take s.ev.unit
    let rd := s.fabricAgent .rmaRead
    let wr := s.fabricAgent .rmaWrite
    let inside (k : Nat) : Prop := k = 0 ∨ (isTranslated va = true ∧ isTranslated (va + k - 1) = true)
    let s1 := s.readSegments rd [(va, n)]
    let s2 := s.readSegments wr [(va, bs.length)]
    (¬ inside n → exec .rmaRead s = .next (answer (s.logHearth 0 0x06 6 va 0) 0x102 1 []))
    ∧ (inside n → ∀ a, s1.agentRefused rd (Need.load false) va n = some a → exec .rmaRead s = .next (answer (s1.logHearth 0 0x06 6 a 0) 0x102 1 []))
    ∧ (inside n → ∀ got u, s1.agentRefused rd (Need.load false) va n = none → Spec.runReads 0 0 s1 [(va, n)] [got] u →
        exec .rmaRead s = .next (answer (u.dropRemote 0) 0x102 0 (wordsLE ((n + 7) / 8) got)))
    ∧ (¬ inside bs.length → exec .rmaWrite s = .next (answer (s.logHearth 0 0x06 6 va 0) 0x103 1 []))
    ∧ (inside bs.length → ∀ a, s2.agentRefused wr (Need.store false) va bs.length = some a →
        exec .rmaWrite s = .next (answer (s2.logHearth 0 0x06 6 a 0) 0x103 1 []))
    ∧ (inside bs.length → ∀ u, s2.agentRefused wr (Need.store false) va bs.length = none →
        Spec.runWrites wr s2 [(va, bs)] u → exec .rmaWrite s = .next (answer u 0x103 0 []))
    ∧ exec .uetAtomic s = .next (answer (s.logHearth 0 0x06 6 0 0) 0x104 1 []))

/-- R411, R418 to R422, R424: the rows of the migration engine, of host memory and of failing connections.
The model's choices of logs 19, 70, 74, 75, 76, 78, 79, 80, 93, 94, 96, 114 stand behind it. -/
def Obligations.migration_results : Prop :=
  (∀ s : State,
    let e := s.ev
    let d := dieOfCore e.core
    let pa := e.faultLeaf.pa
    (∀ m, s.migration e.addr = some m → exec .migrationFault s =
      .next (s.putMigration { m with dies := insertNat d m.dies, ovf := m.ovf || e.flag }))
    ∧ (∀ l, s.migration e.addr = none → s.leafAt 0 pa e.aux = some l →
      (l.migratable = false → exec .migrationFault s = .next ((s.dropMigration e.addr).replyPage 0 d e.addr e.flag false))
      ∧ (l.migratable = true → l.level = 0 → s.badRegion 0 l.frame = none →
        let r := s.remoteOf 0 l.frame
        let m : Migrate := { page := e.addr, leaf := l, frame := none, dies := [d], ovf := e.flag, phase := 1, endpoint := r.1, reqid := 0, host := 0, granted := 0 }
        let s1 : State := { s with migrations := s.migrations ++ [m] }
        exec .migrationFault s = .next ((s1.sendFabric { kind := 0x07, endpoint := r.1, target := 0, reqid := 0, arg := r.2, payload := [] }).post
          .migrationGrantTimeout { Ev.empty with addr := e.addr, val := s.time + 1000000000 }))))
  ∧ (∀ (s : State) (m : Migrate), Spec.fromEndpoint s 0x87 →
    s.migrations.find? (fun m => m.phase == 1 && m.endpoint == s.ev.die && (s.remoteOf 0 m.leaf.frame).2 == s.ev.arg) = some m →
    (s.ev.payload.getD 0 2 ≠ 0 → exec .fabricGrant s = .next (s.refuseMigration m))
    ∧ (s.ev.payload.getD 0 2 = 0 → 0 < s.ffsTop 0 → (s.dieAt 0).sbQueue = [] → s.migrations = [m] →
        (s.peekWord 0 (fieldOf (s.dieReg 0 0x280) 0 48 + 8 * (s.ffsTop 0 - 1))).2 = false → ∃ (t : State) (fr : Nat),
        exec .fabricGrant s = .next (t.sendRma 0 m.leaf.frame false [65536])
        ∧ t.migration m.page = some { m with frame := some fr, phase := 3, granted := s.time } ∧ t.ffsTop 0 = s.ffsTop 0 - 1))
  ∧ (∀ (s : State) (m : Migrate), s.migration s.ev.addr = some m → m.phase = 1 →
    (s.time.toNat < s.ev.val.toNat → exec .migrationGrantTimeout s = .next (s.retryLater .migrationGrantTimeout s.ev))
    ∧ (s.ev.val.toNat ≤ s.time.toNat → exec .migrationGrantTimeout s = .next (s.refuseMigration m)))
  ∧ (∀ (s : State) (m : Migrate) (f : Nat), s.migration s.ev.addr = some m → m.phase = 3 → m.frame = some f → f < 2 ^ 47 →
    (s.ev.aux ≠ 0 → exec .migrationFillDone s = .next (((s.pushFrame 0 f true).refuseMigration m).progressFaults 0))
    ∧ (∀ e, s.ev.aux = 0 → s.peekLine 0 f = .error e → exec .migrationFillDone s =
        .next ((((s.pushFrame 0 f true).logHearth 0 0x06 5 f (BitVec.ofNat 64 e)).refuseMigration m).progressFaults 0))
    ∧ (∀ y, s.ev.aux = 0 → s.peekLine 0 f = .ok y → s.ev.data.length = 8192 →
      let t := ({ s with freeCtr := s.freeCtr + 8192 }.poke 0 f (s.ev.data.flatMap (fun w : Word => bytesLE 8 w.toNat))).writeThrough f 65536
      (t.leafAt 0 m.leaf.pa 0 = none → exec .migrationFillDone s = .next ((((t.logUnread 0 m.leaf.pa).pushFrame 0 f true).answerMigration m false).progressFaults 0))
      ∧ (∀ l, t.leafAt 0 m.leaf.pa 0 = some l → l.w0 = m.leaf.w0 → l.w1 = m.leaf.w1 → ∃ w : Word,
        exec .migrationFillDone s = .next (((t.poke 0 m.leaf.pa (bytesLE 8 w.toNat)).answerMigration m false).progressFaults 0)
        ∧ w.getLsbD 63 = true ∧ w.getLsbD 59 = false ∧ w.getLsbD 58 = false ∧ fieldOf w 0 32 = f / 65536
        ∧ ∀ i, 32 ≤ i → i ≠ 58 → i ≠ 59 → i ≠ 63 → w.getLsbD i = m.leaf.w0.getLsbD i)))
  ∧ (∀ (s u : State) (l : Leaf) (pa : Nat), Spec.fromEndpoint s 8 → s.ev.payload.length = 1 →
    let va := s.ev.arg.toNat % 2 ^ 56
    va % 65536 = 0 → isTranslated va = true → s.readSegments (s.fabricAgent .fabricReleaseRequest) [(va, 1)] = s → s.agentRefused (s.fabricAgent .fabricReleaseRequest) (Need.store false) va 1 = none →
    s.walk (s.walkSlice 0 va) va = (.leaf l, u) →
    let reply (v : State) (status : Nat) : Out := .next (v.sendFabric
      { kind := 0x88, endpoint := s.ev.die, target := 0, reqid := s.ev.reqid, arg := s.ev.arg, payload := [BitVec.ofNat 64 status] })
    (l.v = false ∨ l.ho = true → exec .fabricReleaseRequest s = reply u 2)
    ∧ (l.v = true → l.ho = false → l.level = 0 → u.migration (pageOf va) = none → u.remotePa s.ev.die (s.ev.payload.getD 0 0) = some pa →
      ∃ w : Word, w.getLsbD 63 = false ∧ w.getLsbD 59 = true ∧ w.getLsbD 58 = false ∧ fieldOf w 0 32 = pa / 65536 % 2 ^ 32
      ∧ (∀ i, 32 ≤ i → i ≠ 58 → i ≠ 59 → i ≠ 63 → w.getLsbD i = l.w0.getLsbD i)
      ∧ ∀ v : State, v = ((u.purgePage 0 .system va false).poke 0 l.pa (bytesLE 8 w.toNat)).tinvalPage 0 .system va →
        (v.frameBad l.frame = none → ∃ t : State, t = v.sendRma 0 pa true (v.frameWords l.frame) ∧ exec .fabricReleaseRequest s =
          .next { t with migrations := t.migrations ++ [{ page := pageOf va, leaf := { l with w0 := w }, frame := some l.frame, dies := []
                                                          ovf := false, phase := 4, endpoint := s.ev.die, reqid := s.ev.reqid, host := s.ev.arg, granted := 0 }] })
        ∧ (∀ a, v.frameBad l.frame = some a → exec .fabricReleaseRequest s =
            reply ((v.poke 0 l.pa (bytesLE 8 l.w0.toNat)).logHearth 0 0x02 5 a 0) 2)))
  ∧ (∀ (s : State) (m : Migrate) (f : Nat), s.migration s.ev.addr = some m → m.phase = 4 → m.frame = some f → m.dies = [] →
    let reply (u : State) (status : Nat) : Out := .next (u.sendFabric
      { kind := 0x88, endpoint := m.endpoint, target := 0, reqid := m.reqid, arg := m.host, payload := [BitVec.ofNat 64 status] })
    (s.ev.aux = 0 → ∃ w, exec .releaseWriteDone s = reply (((((s.dropMigration m.page).poke 0 m.leaf.pa (bytesLE 8 w)).pushFrame (paDie f) f true)).progressFaults
        (paDie f)) 0 ∧ w = m.leaf.w0.toNat % 2 ^ 63 + 2 ^ 63)
    ∧ (s.ev.aux ≠ 0 → ∃ (t : State), exec .releaseWriteDone s = reply t 2))
  ∧ (∀ (s : State) (rq : Req) (e : Nat), (s.coreAt s.ev.core).remoteWaits.filter (fun r => r.2.va / 64 == s.ev.addr / 64) = [(e, rq)] →
    s.ev.core < 4032 → rq.again = none → rq.kind < 2 → s.ev.aux = 0 → (s.ctxAt s.ev.core rq.ctx).waitsMem rq.va = true → ∃ t : State,
      exec .remoteReadResponse s =
        .next (((t.deliver s.ev.core rq.ctx (rq.va / 64) rq.words (hostLine s.ev.data) (!rq.stale)).ready s.ev.core rq.ctx).wakeAll)
      ∧ t = s.onCore s.ev.core (fun c => { c with remoteWaits := c.remoteWaits.filter (fun r => r.2.va / 64 != s.ev.addr / 64) }))
  ∧ (∀ (s : State),
    let n := s.ev.core
    let e := s.ev.die
    s.ev.aux = 0 → (n < 4032 → exec .rmaWriteAcknowledgement s =
      .next ((s.onCore n (fun c => { c with hostWrites := c.hostWrites.erase e })).wakeAll))
    ∧ (4032 ≤ n → exec .rmaWriteAcknowledgement s =
      .next ((s.onDie (n - 4032) (fun x => { x with hostWrites := x.hostWrites.erase e })).ackStorage (n - 4032))))
  ∧ (∀ s : State,
    let e := s.ev.die
    (256 ≤ e → exec .connectionFail s = .next s.breakFabricBarriers)
    ∧ (e < 256 → ∃ t : State, exec .connectionFail s = .next t
      ∧ (∀ nc ∈ s.cores, (∀ r ∈ (t.coreAt nc.1).remoteWaits, r.1 ≠ e) ∧ e ∉ (t.coreAt nc.1).hostWrites)
      ∧ (∀ d, d < 4 → e ∉ (t.dieAt d).hostWrites)
      ∧ (∀ m ∈ s.migrations, m.endpoint = e → m.phase = 4 → (∀ k ∈ s.migrations, k.endpoint = e → k.phase = 4) →
          Move.event .releaseWriteDone { Ev.empty with addr := m.page, aux := 5 } ∈ t.agenda)))
  ∧ (∀ (s : State) (m : Migrate), m.phase = 3 → s.failMigration m =
      if m.granted = s.time then s.sendRma 0 m.leaf.frame false [65536] else s.post .migrationFillDone { Ev.empty with addr := m.page, aux := 5 })

/-- Decode and encode agree (R52, R54 to R69): no operand of any of the instructions that have a word loses a bit,
and the length that framing reads is the length of the encoding, whatever bytes follow. -/
def Obligations.decode_encode : Prop :=
  ∀ (i : Instr) (rest : List Byte), i.wf = true → i.hasWord = true →
    decode (encode i ++ rest) = (.ok i, (encode i).length)

/-- The other direction (R52, R61): what decodes is well formed, and its bytes are the encoder's; so every reserved bit, code and
operand kind is rejected, and no instruction has two words. -/
def Obligations.decode_unique : Prop :=
  ∀ (bs : List Byte) (i : Instr) (n : Nat), decode bs = (.ok i, n) →
    i.wf = true ∧ i.hasWord = true ∧ encode i = bs.take n

/-- Words from the grids of R54 and R63 to R69, and every halfword under R59: bit 0 of a halfword is the length bit, op stands in
bits [5:1] and d in bits [10:6]. -/
def Obligations.decoded_words : Prop :=
  decode32 0x00308089#32 = .ok (.add 1 8 3) ∧
  decode32 0xFFF08087#32 = .ok (.addi 1 8 0xFFF) ∧
  decode32 0xFF868083#32 = .ok (.ldd 1 8 0xFF8) ∧
  decode32 0xFE368C05#32 = .ok (.std 3 8 0xFF8) ∧
  decode32 0x7E308F91#32 = .ok (.beq 8 3 0x7FF) ∧
  decode32 0x80001093#32 = .ok (.jal 1 0x80001) ∧
  decode32 0x003080A1#32 = .ok (.hstart 1 8 3) ∧
  decode32 0x007062B1#32 = .ok (.setvl 5 6 7) ∧
  decode32 0x023080B7#32 = .ok (.vadd true .vv 1 8 3) ∧
  ∀ (h : BitVec 16) (rest : List Byte), h.getLsbD 0 = false →
    if h.extractLsb' 1 5 = 0 ∧ h.extractLsb' 6 5 = 0 then
      decode (halfBytes h ++ rest) = (.error .unassigned, 2) ∧ Reject.unassigned.detail = 0
    else ∃ i, decode (halfBytes h ++ rest) = (.ok i, 2) ∧ encode i = halfBytes h

/-- A core about to issue from context j: the issue pointer moves behind it (R43), and the core is not clock-gated. -/
def Spec.issuing (s : State) (n : Nat) (j : Fin 11) : State :=
  { s.onCore n (fun c => { c with issuePtr := (j + 1) % 11, gatedAt := none, powerGated := false, reported := false })
    with focus := n, curCtx := j, ir := 0 }

/-- The bytes at the PC of the executing context can be fetched (R52, R53): two, or four when bit 0 of the first halfword is 1. A store that
has placed elements goes on with the bits that it was fetched with (R166). -/
def Spec.fetches (s : State) (bs : List Byte) : Prop :=
  if s.ctx.placed ≠ 0 then bs = bytesLE (irLen s.ctx.hand) s.ctx.hand.toNat else
  ∃ h, s.fetchHalf s.ctx.pc.toNat = .bits h ∧
    ((h.getLsbD 0 = false ∧ bs = halfBytes h) ∨
     (h.getLsbD 0 = true ∧ ∃ h2, s.fetchHalf ((s.ctx.pc.toNat + 2) % 2 ^ 56) = .bits h2 ∧ bs = halfBytes h ++ halfBytes h2))

/-- A step runs the decoded instruction (R43, R49, R52, R53): `step` is `exec` of what the bytes at the PC decode to, or of the
event at the head of the agenda; around it time passes, and the bits of the instruction are kept for TRAP.WORD (R45);
a stalled context is passed over (R43), an event of a unit whose clock stands still waits (R383), and so does a message of a connection on
which an earlier one waits for a page (R423).
The model's choices of logs 1, 2, 6, 15, 63, 113 stand behind it. -/
def Obligations.step_runs_decoded : Prop :=
  (∀ (s u : State) (n : Nat) (j : Fin 11) (bs : List Byte) (i : Instr) (len : Nat),
    (s.agenda = [] ∧ u = s.tick ∧ n = u.turn ∨
      ∃ rest, s.agenda = .turn n :: rest ∧ u = ({ s with agenda := rest } : State).tick) →
    u.runs n = true → (u.coreAt n).next = some j → (u.coreAt n).uliDue j = false →
    Spec.fetches (Spec.issuing u n j) bs → decode bs = (.ok i, len) →
    ((Spec.issuing u n j).ctx.bkptHere = false ∨ (Spec.issuing u n j).ctx.bskip = true) →
    ∀ t, exec i { Spec.issuing u n j with ir := irOf bs } = .next t →
      step s = .next (if (t.ctxAt n j).stalled = true then t.onCore n (fun c => { c with issuePtr := (u.coreAt n).issuePtr }) else t)) ∧
  (∀ (s : State) (i : Instr) (e : Ev) (rest : List Move), s.agenda = .event i e :: rest →
    let u := ({ s with agenda := rest } : State).tick
    step s = if u.clockHeld i e = true then .next (u.retryLater i e)
      else if u.mustWait (.event i e) = true then .next (u.holdBack (.event i e)) else exec i { u with ev := e }) ∧
  (∀ (s : State) (i : Instr) (e : Ev),
    (e.ctx = 0 → s.mustWait (.event i e) = false)
    ∧ (s.connWaits (e.die, e.ctx) = false → s.mustWait (.event i e) = false)
    ∧ (∀ (f : Ev) (j : Instr), i ∈ [Instr.fabricEnqueue, .fabricDecrement, .fabricWatch, .fabricReleaseRequest, .rmaWrite] →
        j ∈ [Instr.fabricDecrement, .fabricWatch, .rmaWrite] → e.ctx ≠ 0 → e.core = 0 → f.core = 1 → f.die = e.die → f.ctx = e.ctx →
        (Move.event j f ∈ s.agenda ∨ ∃ nc ∈ s.cores, ∃ r ∈ nc.2.parked, r.again = some (j, f)) → s.mustWait (.event i e) = true))

/-- Reset (R39, R169, R254, R256, R271, R338, R341, R365, R382, R408): the values that the manual states, and the invariant that
every step keeps. The zeros of the other registers are the model's choice (log 3) and no part of this statement. -/
def Obligations.reset_state : Prop :=
  Sys2Proof.Inv State.reset ∧
  (∀ n, let c := State.reset.coreAt n
    c.released = false ∧ (∀ i, (c.ctx i).life = .free) ∧ c.domCl = 0 ∧ c.domDie = 0 ∧ c.domPkg = 0 ∧ c.domFab = 0 ∧
      c.bcastGrp = 0 ∧ ∀ k : Fin 16, c.streams[k].state = .free) ∧
  (∀ n (k : Fin 16), let b := (State.reset.clusterAt n).barriers[k]
    b.en = false ∧ b.brk = false ∧ b.gen = 0) ∧
  (∀ d, State.reset.dieReg d 0x100 = 16 ∧ State.reset.dieReg d 0x110 = 0x0000400000111222 ∧
    State.reset.dieReg d 0x128 = 0x102 ∧ State.reset.dieReg d 0x138 = 0x4000000000000000) ∧
  ∀ p, (State.reset.partAt p).launch = none

/-- The manual lets nothing stop the package: an illegal encoding, a refused access and an undefined operand are traps, replies or
values (R44, R61, R384), so a step always answers a next state.
The model's choices of logs 1, 2, 88 stand behind it. -/
def Obligations.step_answers : Prop := ∀ s, Safe s

/-- The canonical form of the memories (device memory, the scratchpads, and those that a saved task of R352 carries) over every instruction and every event: equal memories stay equal data.
The model's choices of logs 1, 2, 4, 88 stand behind it. -/
def Obligations.step_invariant : Prop := ∀ s t, Sys2Proof.Inv s → step s = .next t → Sys2Proof.Inv t
end

