-- ==== Sys2Proof/Laws/Bits.lean ====
section
/-!
SUPPORT. The laws of bit fields and of byte order.
-/

namespace Sys2Proof.Machine

open Sys2Proof

theorem bitsOf_lt (x lo n : Nat) : bitsOf x lo n < 2 ^ n := Nat.mod_lt _ (Nat.two_pow_pos n)

theorem testBit_bitsOf (x lo n i : Nat) : (bitsOf x lo n).testBit i = (decide (i < n) && x.testBit (lo + i)) := by
  simp [bitsOf, Nat.testBit_mod_two_pow, Nat.testBit_shiftRight]

/-- A number is its part above a field, the field, and its part below. -/
theorem eq_split (x lo n : Nat) : x = 2 ^ lo * (2 ^ n * (x / 2 ^ (lo + n)) + bitsOf x lo n) + x % 2 ^ lo := by
  have h : 2 ^ n * (x / 2 ^ (lo + n)) + bitsOf x lo n = x / 2 ^ lo := by
    rw [Nat.pow_add, ← Nat.div_div_eq_div_mul, bitsOf, Nat.shiftRight_eq_div_pow]
    exact Nat.div_add_mod _ _
  rw [h]
  exact (Nat.div_add_mod x (2 ^ lo)).symm

theorem setBits_eq (x lo n v : Nat) : setBits x lo n v = 2 ^ lo * (2 ^ n * (x / 2 ^ (lo + n)) + v % 2 ^ n) + x % 2 ^ lo := by
  have h := eq_split x lo n
  have e : x - bitsOf x lo n * 2 ^ lo = 2 ^ lo * (2 ^ n * (x / 2 ^ (lo + n))) + x % 2 ^ lo := by
    have h2 : x = 2 ^ lo * (2 ^ n * (x / 2 ^ (lo + n))) + bitsOf x lo n * 2 ^ lo + x % 2 ^ lo := by
      conv_lhs => rw [h]
      ring
    omega
  unfold setBits
  rw [Nat.shiftLeft_eq, Nat.shiftLeft_eq, e]
  ring

/-- The bits of a number after a field is replaced. -/
theorem testBit_setBits (x lo n v i : Nat) :
    (setBits x lo n v).testBit i = if lo ≤ i ∧ i < lo + n then v.testBit (i - lo) else x.testBit i := by
  rw [setBits_eq, Nat.testBit_two_pow_mul_add _ (Nat.mod_lt _ (Nat.two_pow_pos lo)),
    Nat.testBit_two_pow_mul_add _ (Nat.mod_lt _ (Nat.two_pow_pos n))]
  by_cases h1 : i < lo
  · rw [if_pos h1, if_neg (by omega)]; simp [Nat.testBit_mod_two_pow, h1]
  · rw [if_neg h1]
    by_cases h2 : i - lo < n
    · rw [if_pos h2, if_pos (by omega)]; simp [Nat.testBit_mod_two_pow, h2]
    · rw [if_neg h2, if_neg (by omega), Nat.testBit_div_two_pow]
      congr 1; omega

/-- The bits of a register after a field is replaced. -/
theorem getLsbD_setField {w : Nat} (x : BitVec w) (lo n v i : Nat) :
    (setField x lo n v).getLsbD i = if lo ≤ i ∧ i < lo + n then decide (i < w) && v.testBit (i - lo) else x.getLsbD i := by
  simp only [setField, BitVec.getLsbD_ofNat, testBit_setBits]
  split_ifs with h
  · rfl
  · rw [← BitVec.getLsbD.eq_1]
    by_cases hi : i < w
    · simp [hi]
    · simp [hi, BitVec.getLsbD_of_ge _ _ (Nat.le_of_not_lt hi)]

/-- A field read back after it is replaced. -/
theorem fieldOf_setField_self {w : Nat} (x : BitVec w) (lo n v : Nat) (h : lo + n ≤ w) : fieldOf (setField x lo n v) lo n = v % 2 ^ n := by
  apply Nat.eq_of_testBit_eq
  intro i
  rw [fieldOf, testBit_bitsOf, Nat.testBit_mod_two_pow]
  by_cases hi : i < n
  · have : (setField x lo n v).toNat.testBit (lo + i) = v.testBit i := by
      rw [← BitVec.getLsbD.eq_1, getLsbD_setField, if_pos (by omega)]
      simp; omega
    simp [hi, this]
  · simp [hi]

/-- A field apart from the one replaced reads as before. -/
theorem fieldOf_setField_ne {w : Nat} (x : BitVec w) (lo n v lo' n' : Nat) (h : lo' + n' ≤ lo ∨ lo + n ≤ lo') :
    fieldOf (setField x lo n v) lo' n' = fieldOf x lo' n' := by
  apply Nat.eq_of_testBit_eq
  intro i
  rw [fieldOf, fieldOf, testBit_bitsOf, testBit_bitsOf]
  by_cases hi : i < n'
  · have : (setField x lo n v).toNat.testBit (lo' + i) = x.toNat.testBit (lo' + i) := by
      rw [← BitVec.getLsbD.eq_1, getLsbD_setField, if_neg (by omega), BitVec.getLsbD.eq_1]
    rw [this]
  · simp [hi]

theorem length_bytesLE (n v : Nat) : (bytesLE n v).length = n := by
  induction n generalizing v with
  | zero => rfl
  | succ n ih => simp [bytesLE, ih]

/-- The value of the bytes of a value (R21). -/
theorem fromBytesLE_bytesLE (n v : Nat) : fromBytesLE (bytesLE n v) = v % 256 ^ n := by
  induction n generalizing v with
  | zero => simp [bytesLE, fromBytesLE, Nat.mod_one]
  | succ n ih =>
    simp only [bytesLE, fromBytesLE, ih, BitVec.toNat_ofNat]
    rw [show 256 ^ (n + 1) = 256 * 256 ^ n by ring, Nat.mod_mul]

end Sys2Proof.Machine
end

