-- ==== Sys2Proof/Laws/Tables.lean ====
section
/-!
SUPPORT. The laws of tables and of byte memory: what a read finds after a write, and that every write keeps the canonical form.
-/

namespace Sys2Proof.Machine

open Sys2Proof

section
variable {α : Type}

@[simp] theorem tabFind_tabPut_self (l : List (Nat × α)) (i : Nat) (x : α) : tabFind (tabPut l i x) i = some x := by
  induction l with
  | nil => simp [tabPut, tabFind]
  | cons p l ih =>
    unfold tabPut
    split_ifs with h1 h2
    · simp [tabFind]
    · simp [tabFind]
    · simp only [tabFind]; rw [if_neg (Ne.symm h2)]; exact ih

theorem tabFind_tabPut_ne (l : List (Nat × α)) {i j : Nat} (x : α) (h : j ≠ i) : tabFind (tabPut l i x) j = tabFind l j := by
  induction l with
  | nil => simp [tabPut, tabFind, h.symm]
  | cons p l ih =>
    unfold tabPut
    split_ifs with h1 h2
    · simp [tabFind, h.symm]
    · subst h2; simp [tabFind, h.symm]
    · simp [tabFind, ih]

theorem tabFind_tabPut (l : List (Nat × α)) (i j : Nat) (x : α) :
    tabFind (tabPut l i x) j = if j = i then some x else tabFind l j := by
  split_ifs with h
  · rw [h, tabFind_tabPut_self]
  · exact tabFind_tabPut_ne l x h

theorem tabFind_tabDel (l : List (Nat × α)) (i j : Nat) : tabFind (tabDel l i) j = if j = i then none else tabFind l j := by
  induction l with
  | nil => simp [tabDel, tabFind]
  | cons p l ih =>
    simp only [tabDel, List.filter_cons] at ih ⊢
    by_cases hp : p.1 = i <;> by_cases hj : p.1 = j <;> simp_all [tabFind]

variable [DecidableEq α] (d : α)

theorem tabWfFrom_le {l : List (Nat × α)} {lo lo' : Nat} (h : tabWfFrom d lo l = true) (hle : lo' ≤ lo) : tabWfFrom d lo' l = true := by
  cases l with
  | nil => rfl
  | cons p l => simp [tabWfFrom] at h ⊢; exact ⟨⟨by omega, h.1.2⟩, h.2⟩

/-- In a canonical table every listed key is at least the bound. -/
theorem tabGet_below {l : List (Nat × α)} {lo i : Nat} (h : tabWfFrom d lo l = true) (hi : i < lo) : tabGet d l i = d := by
  induction l generalizing lo with
  | nil => rfl
  | cons p l ih =>
    simp [tabWfFrom] at h
    simp only [tabGet]
    rw [if_neg (by omega), ih h.2 (by omega)]

theorem tabGet_tabSet_self {l : List (Nat × α)} {lo i : Nat} (x : α) (h : tabWfFrom d lo l = true) :
    tabGet d (tabSet d l i x) i = x := by
  induction l generalizing lo with
  | nil => unfold tabSet; split_ifs with hx <;> simp_all [tabGet]
  | cons p l ih =>
    simp [tabWfFrom] at h
    unfold tabSet
    split_ifs with h1 h2 h3 h4
    · rw [h2]; exact tabGet_below d (lo := p.1) (by simp [tabWfFrom, h.1.2, h.2]) h1
    · simp [tabGet]
    · rw [h4]; exact tabGet_below d h.2 (by omega)
    · simp [tabGet]
    · simp only [tabGet]; rw [if_neg (by omega)]; exact ih h.2

theorem tabGet_tabSet_ne (l : List (Nat × α)) {i j : Nat} (x : α) (h : j ≠ i) : tabGet d (tabSet d l i x) j = tabGet d l j := by
  induction l with
  | nil => unfold tabSet; split_ifs <;> simp [tabGet, h.symm]
  | cons p l ih =>
    unfold tabSet
    split_ifs with h1 h2 h3 h4
    · rfl
    · simp [tabGet, h.symm]
    · simp only [tabGet]; rw [if_neg (by omega)]
    · subst h3; simp [tabGet, h.symm]
    · simp [tabGet, ih]

theorem tabWfFrom_tabSet {l : List (Nat × α)} {lo i : Nat} (x : α) (hi : lo ≤ i) (h : tabWfFrom d lo l = true) :
    tabWfFrom d lo (tabSet d l i x) = true := by
  induction l generalizing lo with
  | nil => unfold tabSet; split_ifs <;> simp_all [tabWfFrom]
  | cons p l ih =>
    have h0 := h
    simp [tabWfFrom] at h
    unfold tabSet
    split_ifs with h1 h2 h3 h4
    · exact h0
    · simp [tabWfFrom, h2, h.1.2, h.2, hi]; omega
    · exact tabWfFrom_le d h.2 (by omega)
    · simp [tabWfFrom, h4, hi]; rw [h3]; exact h.2
    · simp [tabWfFrom, h.1.2, h.1.1]; exact ih (by omega) h.2

theorem tabWf_tabSet {l : List (Nat × α)} (i : Nat) (x : α) (h : tabWf d l = true) : tabWf d (tabSet d l i x) = true :=
  tabWfFrom_tabSet d x (Nat.zero_le i) h

/-- Two canonical tables that read alike are equal. -/
theorem tabWfFrom_ext {l m : List (Nat × α)} {lo : Nat} (hl : tabWfFrom d lo l = true) (hm : tabWfFrom d lo m = true)
    (h : ∀ i, tabGet d l i = tabGet d m i) : l = m := by
  induction l generalizing lo m with
  | nil =>
    cases m with
    | nil => rfl
    | cons q m =>
      simp [tabWfFrom] at hm
      have := h q.1
      simp [tabGet] at this
      exact absurd this.symm hm.1.2
  | cons p l ih =>
    simp [tabWfFrom] at hl
    cases m with
    | nil =>
      have := h p.1
      simp [tabGet] at this
      exact absurd this hl.1.2
    | cons q m =>
      simp [tabWfFrom] at hm
      have hp := h p.1
      have hq := h q.1
      simp only [tabGet, if_true] at hp hq
      have hk : p.1 = q.1 := by
        by_contra hne
        rcases Nat.lt_or_ge p.1 q.1 with hlt | hge
        · rw [if_neg (by omega), tabGet_below d hm.2 (by omega)] at hp; exact hl.1.2 hp
        · rw [if_neg hne, tabGet_below d hl.2 (by omega)] at hq; exact hm.1.2 hq.symm
      rw [if_pos hk.symm] at hp
      have hpq : p = q := Prod.ext hk hp
      subst hpq
      rw [ih (lo := p.1 + 1) hl.2 hm.2]
      intro i
      have hi := h i
      simp only [tabGet] at hi
      split_ifs at hi with he
      · rw [tabGet_below d hl.2 (by omega), tabGet_below d hm.2 (by omega)]
      · exact hi

end

/-- A byte read back after it is written. -/
theorem memByte_memSet_self {m : List Host.Cell} (a : Nat) (b : Byte) (h : Memory.wf m = true) : memByte (memSet m a b) a = b :=
  tabGet_tabSet_self 0 b h

/-- A byte written leaves every other byte alone. -/
theorem memByte_memSet_ne (m : List Host.Cell) {a c : Nat} (b : Byte) (h : c ≠ a) : memByte (memSet m a b) c = memByte m c :=
  tabGet_tabSet_ne 0 m b h

theorem wf_memSet {m : List Host.Cell} (a : Nat) (b : Byte) (h : Memory.wf m = true) : Memory.wf (memSet m a b) = true :=
  tabWf_tabSet 0 a b h

theorem wf_memWrite {m : List Host.Cell} (a : Nat) (bs : List Byte) (h : Memory.wf m = true) : Memory.wf (memWrite m a bs) = true := by
  induction bs generalizing m a with
  | nil => exact h
  | cons b bs ih => exact ih (a + 1) (wf_memSet a b h)

theorem memByte_memWrite_out (m : List Host.Cell) (a : Nat) (bs : List Byte) {c : Nat} (h : c < a ∨ a + bs.length ≤ c) :
    memByte (memWrite m a bs) c = memByte m c := by
  induction bs generalizing m a with
  | nil => rfl
  | cons b bs ih =>
    simp only [List.length_cons] at h
    rw [show memWrite m a (b :: bs) = memWrite (memSet m a b) (a + 1) bs from rfl, ih _ _ (by omega), memByte_memSet_ne _ _ (by omega)]

theorem memByte_memWrite_in {m : List Host.Cell} (a : Nat) (bs : List Byte) {i : Nat} (h : Memory.wf m = true) (hi : i < bs.length) :
    memByte (memWrite m a bs) (a + i) = bs[i] := by
  induction bs generalizing m a i with
  | nil => simp at hi
  | cons b bs ih =>
    rw [show memWrite m a (b :: bs) = memWrite (memSet m a b) (a + 1) bs from rfl]
    cases i with
    | zero => rw [memByte_memWrite_out _ _ _ (by omega)]; simpa using memByte_memSet_self a b h
    | succ i => rw [show a + (i + 1) = a + 1 + i by omega]; simpa using ih (a + 1) (wf_memSet a b h) (by simpa using hi)

/-- Two canonical memories that read alike are equal. -/
theorem memory_ext {m n : List Host.Cell} (hm : Memory.wf m = true) (hn : Memory.wf n = true) (h : ∀ a, memByte m a = memByte n a) :
    m = n := tabWfFrom_ext 0 hm hn h

end Sys2Proof.Machine
end

