-- ==== Sys2Proof/Laws/Inv.lean ====
section
/-!
SUPPORT. The memory invariant: how to show it of a state that lists its units.
-/

namespace Sys2Proof

open Sys2Proof.Machine

/-- What a table finds stands in the table. -/
theorem tabFind_mem {α : Type} {l : List (Nat × α)} {i : Nat} {x : α} (h : tabFind l i = some x) : (i, x) ∈ l := by
  induction l with
  | nil => simp [tabFind] at h
  | cons p l ih =>
    simp only [tabFind] at h
    split_ifs at h with hp
    · cases h; exact List.mem_cons.2 (.inl (by rw [← hp]))
    · exact List.mem_cons.2 (.inr (ih h))

/-- The invariant holds when every listed core and every saved task of a listed partition has a canonical scratchpad. -/
theorem inv_of_listed {s : State} (hm : Memory.wf s.mem = true) (hc : s.cores.all (fun p => Memory.wf p.2.spad) = true)
    (hp : s.parts.all (fun p => p.2.saved.all (fun v => Memory.wf v.image.spad)) = true) : Inv s := by
  refine ⟨hm, fun n => ?_, fun p v hv => ?_⟩
  · unfold State.coreAt
    cases h : tabFind s.cores n with
    | none => rfl
    | some c => exact List.all_eq_true.1 hc _ (tabFind_mem h)
  · unfold State.partAt at hv
    cases h : tabFind s.parts p with
    | none => rw [h] at hv; simp [Part.reset] at hv
    | some x =>
      rw [h] at hv
      exact List.all_eq_true.1 (List.all_eq_true.1 hp _ (tabFind_mem h)) v hv

end Sys2Proof
end

