-- ==== Sys2Proof/Laws/State.lean ====
section
/-!
SUPPORT. One lemma per field per update of the state, of a core and of a context: what an update leaves as it was.
The lemmas of tables and units (what an update changes) stand in Laws/Units.lean.
-/

namespace Sys2Proof.Machine

open Sys2Proof

@[simp] theorem State.clusters_setCore (s : State) (n : Nat) (c : Core) : (s.setCore n c).clusters = s.clusters := rfl
@[simp] theorem State.dies_setCore (s : State) (n : Nat) (c : Core) : (s.setCore n c).dies = s.dies := rfl
@[simp] theorem State.queues_setCore (s : State) (n : Nat) (c : Core) : (s.setCore n c).queues = s.queues := rfl
@[simp] theorem State.parts_setCore (s : State) (n : Nat) (c : Core) : (s.setCore n c).parts = s.parts := rfl
@[simp] theorem State.mem_setCore (s : State) (n : Nat) (c : Core) : (s.setCore n c).mem = s.mem := rfl
@[simp] theorem State.poison_setCore (s : State) (n : Nat) (c : Core) : (s.setCore n c).poison = s.poison := rfl
@[simp] theorem State.vers_setCore (s : State) (n : Nat) (c : Core) : (s.setCore n c).vers = s.vers := rfl
@[simp] theorem State.time_setCore (s : State) (n : Nat) (c : Core) : (s.setCore n c).time = s.time := rfl
@[simp] theorem State.rate_setCore (s : State) (n : Nat) (c : Core) : (s.setCore n c).rate = s.rate := rfl
@[simp] theorem State.dispatched_setCore (s : State) (n : Nat) (c : Core) : (s.setCore n c).dispatched = s.dispatched := rfl
@[simp] theorem State.monitors_setCore (s : State) (n : Nat) (c : Core) : (s.setCore n c).monitors = s.monitors := rfl
@[simp] theorem State.migrations_setCore (s : State) (n : Nat) (c : Core) : (s.setCore n c).migrations = s.migrations := rfl
@[simp] theorem State.remoteDecs_setCore (s : State) (n : Nat) (c : Core) : (s.setCore n c).remoteDecs = s.remoteDecs := rfl
@[simp] theorem State.dstate_setCore (s : State) (n : Nat) (c : Core) : (s.setCore n c).dstate = s.dstate := rfl
@[simp] theorem State.warm_setCore (s : State) (n : Nat) (c : Core) : (s.setCore n c).warm = s.warm := rfl
@[simp] theorem State.boot_setCore (s : State) (n : Nat) (c : Core) : (s.setCore n c).boot = s.boot := rfl
@[simp] theorem State.measured_setCore (s : State) (n : Nat) (c : Core) : (s.setCore n c).measured = s.measured := rfl
@[simp] theorem State.logLast_setCore (s : State) (n : Nat) (c : Core) : (s.setCore n c).logLast = s.logLast := rfl
@[simp] theorem State.logInternal_setCore (s : State) (n : Nat) (c : Core) : (s.setCore n c).logInternal = s.logInternal := rfl
@[simp] theorem State.logTail_setCore (s : State) (n : Nat) (c : Core) : (s.setCore n c).logTail = s.logTail := rfl
@[simp] theorem State.errors_setCore (s : State) (n : Nat) (c : Core) : (s.setCore n c).errors = s.errors := rfl
@[simp] theorem State.sent_setCore (s : State) (n : Nat) (c : Core) : (s.setCore n c).sent = s.sent := rfl
@[simp] theorem State.trapMsgs_setCore (s : State) (n : Nat) (c : Core) : (s.setCore n c).trapMsgs = s.trapMsgs := rfl
@[simp] theorem State.focus_setCore (s : State) (n : Nat) (c : Core) : (s.setCore n c).focus = s.focus := rfl
@[simp] theorem State.curCtx_setCore (s : State) (n : Nat) (c : Core) : (s.setCore n c).curCtx = s.curCtx := rfl
@[simp] theorem State.ir_setCore (s : State) (n : Nat) (c : Core) : (s.setCore n c).ir = s.ir := rfl
@[simp] theorem State.ev_setCore (s : State) (n : Nat) (c : Core) : (s.setCore n c).ev = s.ev := rfl
@[simp] theorem State.agenda_setCore (s : State) (n : Nat) (c : Core) : (s.setCore n c).agenda = s.agenda := rfl
@[simp] theorem State.freeCtr_setCore (s : State) (n : Nat) (c : Core) : (s.setCore n c).freeCtr = s.freeCtr := rfl

@[simp] theorem State.clusters_onCore (s : State) (n : Nat) (f : Core → Core) : (s.onCore n f).clusters = s.clusters := rfl
@[simp] theorem State.dies_onCore (s : State) (n : Nat) (f : Core → Core) : (s.onCore n f).dies = s.dies := rfl
@[simp] theorem State.queues_onCore (s : State) (n : Nat) (f : Core → Core) : (s.onCore n f).queues = s.queues := rfl
@[simp] theorem State.parts_onCore (s : State) (n : Nat) (f : Core → Core) : (s.onCore n f).parts = s.parts := rfl
@[simp] theorem State.mem_onCore (s : State) (n : Nat) (f : Core → Core) : (s.onCore n f).mem = s.mem := rfl
@[simp] theorem State.poison_onCore (s : State) (n : Nat) (f : Core → Core) : (s.onCore n f).poison = s.poison := rfl
@[simp] theorem State.vers_onCore (s : State) (n : Nat) (f : Core → Core) : (s.onCore n f).vers = s.vers := rfl
@[simp] theorem State.time_onCore (s : State) (n : Nat) (f : Core → Core) : (s.onCore n f).time = s.time := rfl
@[simp] theorem State.rate_onCore (s : State) (n : Nat) (f : Core → Core) : (s.onCore n f).rate = s.rate := rfl
@[simp] theorem State.dispatched_onCore (s : State) (n : Nat) (f : Core → Core) : (s.onCore n f).dispatched = s.dispatched := rfl
@[simp] theorem State.monitors_onCore (s : State) (n : Nat) (f : Core → Core) : (s.onCore n f).monitors = s.monitors := rfl
@[simp] theorem State.migrations_onCore (s : State) (n : Nat) (f : Core → Core) : (s.onCore n f).migrations = s.migrations := rfl
@[simp] theorem State.remoteDecs_onCore (s : State) (n : Nat) (f : Core → Core) : (s.onCore n f).remoteDecs = s.remoteDecs := rfl
@[simp] theorem State.dstate_onCore (s : State) (n : Nat) (f : Core → Core) : (s.onCore n f).dstate = s.dstate := rfl
@[simp] theorem State.warm_onCore (s : State) (n : Nat) (f : Core → Core) : (s.onCore n f).warm = s.warm := rfl
@[simp] theorem State.boot_onCore (s : State) (n : Nat) (f : Core → Core) : (s.onCore n f).boot = s.boot := rfl
@[simp] theorem State.measured_onCore (s : State) (n : Nat) (f : Core → Core) : (s.onCore n f).measured = s.measured := rfl
@[simp] theorem State.logLast_onCore (s : State) (n : Nat) (f : Core → Core) : (s.onCore n f).logLast = s.logLast := rfl
@[simp] theorem State.logInternal_onCore (s : State) (n : Nat) (f : Core → Core) : (s.onCore n f).logInternal = s.logInternal := rfl
@[simp] theorem State.logTail_onCore (s : State) (n : Nat) (f : Core → Core) : (s.onCore n f).logTail = s.logTail := rfl
@[simp] theorem State.errors_onCore (s : State) (n : Nat) (f : Core → Core) : (s.onCore n f).errors = s.errors := rfl
@[simp] theorem State.sent_onCore (s : State) (n : Nat) (f : Core → Core) : (s.onCore n f).sent = s.sent := rfl
@[simp] theorem State.trapMsgs_onCore (s : State) (n : Nat) (f : Core → Core) : (s.onCore n f).trapMsgs = s.trapMsgs := rfl
@[simp] theorem State.focus_onCore (s : State) (n : Nat) (f : Core → Core) : (s.onCore n f).focus = s.focus := rfl
@[simp] theorem State.curCtx_onCore (s : State) (n : Nat) (f : Core → Core) : (s.onCore n f).curCtx = s.curCtx := rfl
@[simp] theorem State.ir_onCore (s : State) (n : Nat) (f : Core → Core) : (s.onCore n f).ir = s.ir := rfl
@[simp] theorem State.ev_onCore (s : State) (n : Nat) (f : Core → Core) : (s.onCore n f).ev = s.ev := rfl
@[simp] theorem State.agenda_onCore (s : State) (n : Nat) (f : Core → Core) : (s.onCore n f).agenda = s.agenda := rfl
@[simp] theorem State.freeCtr_onCore (s : State) (n : Nat) (f : Core → Core) : (s.onCore n f).freeCtr = s.freeCtr := rfl

@[simp] theorem State.clusters_setCtxAt (s : State) (n i : Nat) (x : Ctx) : (s.setCtxAt n i x).clusters = s.clusters := rfl
@[simp] theorem State.dies_setCtxAt (s : State) (n i : Nat) (x : Ctx) : (s.setCtxAt n i x).dies = s.dies := rfl
@[simp] theorem State.queues_setCtxAt (s : State) (n i : Nat) (x : Ctx) : (s.setCtxAt n i x).queues = s.queues := rfl
@[simp] theorem State.parts_setCtxAt (s : State) (n i : Nat) (x : Ctx) : (s.setCtxAt n i x).parts = s.parts := rfl
@[simp] theorem State.mem_setCtxAt (s : State) (n i : Nat) (x : Ctx) : (s.setCtxAt n i x).mem = s.mem := rfl
@[simp] theorem State.poison_setCtxAt (s : State) (n i : Nat) (x : Ctx) : (s.setCtxAt n i x).poison = s.poison := rfl
@[simp] theorem State.vers_setCtxAt (s : State) (n i : Nat) (x : Ctx) : (s.setCtxAt n i x).vers = s.vers := rfl
@[simp] theorem State.time_setCtxAt (s : State) (n i : Nat) (x : Ctx) : (s.setCtxAt n i x).time = s.time := rfl
@[simp] theorem State.rate_setCtxAt (s : State) (n i : Nat) (x : Ctx) : (s.setCtxAt n i x).rate = s.rate := rfl
@[simp] theorem State.dispatched_setCtxAt (s : State) (n i : Nat) (x : Ctx) : (s.setCtxAt n i x).dispatched = s.dispatched := rfl
@[simp] theorem State.monitors_setCtxAt (s : State) (n i : Nat) (x : Ctx) : (s.setCtxAt n i x).monitors = s.monitors := rfl
@[simp] theorem State.migrations_setCtxAt (s : State) (n i : Nat) (x : Ctx) : (s.setCtxAt n i x).migrations = s.migrations := rfl
@[simp] theorem State.remoteDecs_setCtxAt (s : State) (n i : Nat) (x : Ctx) : (s.setCtxAt n i x).remoteDecs = s.remoteDecs := rfl
@[simp] theorem State.dstate_setCtxAt (s : State) (n i : Nat) (x : Ctx) : (s.setCtxAt n i x).dstate = s.dstate := rfl
@[simp] theorem State.warm_setCtxAt (s : State) (n i : Nat) (x : Ctx) : (s.setCtxAt n i x).warm = s.warm := rfl
@[simp] theorem State.boot_setCtxAt (s : State) (n i : Nat) (x : Ctx) : (s.setCtxAt n i x).boot = s.boot := rfl
@[simp] theorem State.measured_setCtxAt (s : State) (n i : Nat) (x : Ctx) : (s.setCtxAt n i x).measured = s.measured := rfl
@[simp] theorem State.logLast_setCtxAt (s : State) (n i : Nat) (x : Ctx) : (s.setCtxAt n i x).logLast = s.logLast := rfl
@[simp] theorem State.logInternal_setCtxAt (s : State) (n i : Nat) (x : Ctx) : (s.setCtxAt n i x).logInternal = s.logInternal := rfl
@[simp] theorem State.logTail_setCtxAt (s : State) (n i : Nat) (x : Ctx) : (s.setCtxAt n i x).logTail = s.logTail := rfl
@[simp] theorem State.errors_setCtxAt (s : State) (n i : Nat) (x : Ctx) : (s.setCtxAt n i x).errors = s.errors := rfl
@[simp] theorem State.sent_setCtxAt (s : State) (n i : Nat) (x : Ctx) : (s.setCtxAt n i x).sent = s.sent := rfl
@[simp] theorem State.trapMsgs_setCtxAt (s : State) (n i : Nat) (x : Ctx) : (s.setCtxAt n i x).trapMsgs = s.trapMsgs := rfl
@[simp] theorem State.focus_setCtxAt (s : State) (n i : Nat) (x : Ctx) : (s.setCtxAt n i x).focus = s.focus := rfl
@[simp] theorem State.curCtx_setCtxAt (s : State) (n i : Nat) (x : Ctx) : (s.setCtxAt n i x).curCtx = s.curCtx := rfl
@[simp] theorem State.ir_setCtxAt (s : State) (n i : Nat) (x : Ctx) : (s.setCtxAt n i x).ir = s.ir := rfl
@[simp] theorem State.ev_setCtxAt (s : State) (n i : Nat) (x : Ctx) : (s.setCtxAt n i x).ev = s.ev := rfl
@[simp] theorem State.agenda_setCtxAt (s : State) (n i : Nat) (x : Ctx) : (s.setCtxAt n i x).agenda = s.agenda := rfl
@[simp] theorem State.freeCtr_setCtxAt (s : State) (n i : Nat) (x : Ctx) : (s.setCtxAt n i x).freeCtr = s.freeCtr := rfl

@[simp] theorem State.clusters_onCtx (s : State) (n i : Nat) (f : Ctx → Ctx) : (s.onCtx n i f).clusters = s.clusters := rfl
@[simp] theorem State.dies_onCtx (s : State) (n i : Nat) (f : Ctx → Ctx) : (s.onCtx n i f).dies = s.dies := rfl
@[simp] theorem State.queues_onCtx (s : State) (n i : Nat) (f : Ctx → Ctx) : (s.onCtx n i f).queues = s.queues := rfl
@[simp] theorem State.parts_onCtx (s : State) (n i : Nat) (f : Ctx → Ctx) : (s.onCtx n i f).parts = s.parts := rfl
@[simp] theorem State.mem_onCtx (s : State) (n i : Nat) (f : Ctx → Ctx) : (s.onCtx n i f).mem = s.mem := rfl
@[simp] theorem State.poison_onCtx (s : State) (n i : Nat) (f : Ctx → Ctx) : (s.onCtx n i f).poison = s.poison := rfl
@[simp] theorem State.vers_onCtx (s : State) (n i : Nat) (f : Ctx → Ctx) : (s.onCtx n i f).vers = s.vers := rfl
@[simp] theorem State.time_onCtx (s : State) (n i : Nat) (f : Ctx → Ctx) : (s.onCtx n i f).time = s.time := rfl
@[simp] theorem State.rate_onCtx (s : State) (n i : Nat) (f : Ctx → Ctx) : (s.onCtx n i f).rate = s.rate := rfl
@[simp] theorem State.dispatched_onCtx (s : State) (n i : Nat) (f : Ctx → Ctx) : (s.onCtx n i f).dispatched = s.dispatched := rfl
@[simp] theorem State.monitors_onCtx (s : State) (n i : Nat) (f : Ctx → Ctx) : (s.onCtx n i f).monitors = s.monitors := rfl
@[simp] theorem State.migrations_onCtx (s : State) (n i : Nat) (f : Ctx → Ctx) : (s.onCtx n i f).migrations = s.migrations := rfl
@[simp] theorem State.remoteDecs_onCtx (s : State) (n i : Nat) (f : Ctx → Ctx) : (s.onCtx n i f).remoteDecs = s.remoteDecs := rfl
@[simp] theorem State.dstate_onCtx (s : State) (n i : Nat) (f : Ctx → Ctx) : (s.onCtx n i f).dstate = s.dstate := rfl
@[simp] theorem State.warm_onCtx (s : State) (n i : Nat) (f : Ctx → Ctx) : (s.onCtx n i f).warm = s.warm := rfl
@[simp] theorem State.boot_onCtx (s : State) (n i : Nat) (f : Ctx → Ctx) : (s.onCtx n i f).boot = s.boot := rfl
@[simp] theorem State.measured_onCtx (s : State) (n i : Nat) (f : Ctx → Ctx) : (s.onCtx n i f).measured = s.measured := rfl
@[simp] theorem State.logLast_onCtx (s : State) (n i : Nat) (f : Ctx → Ctx) : (s.onCtx n i f).logLast = s.logLast := rfl
@[simp] theorem State.logInternal_onCtx (s : State) (n i : Nat) (f : Ctx → Ctx) : (s.onCtx n i f).logInternal = s.logInternal := rfl
@[simp] theorem State.logTail_onCtx (s : State) (n i : Nat) (f : Ctx → Ctx) : (s.onCtx n i f).logTail = s.logTail := rfl
@[simp] theorem State.errors_onCtx (s : State) (n i : Nat) (f : Ctx → Ctx) : (s.onCtx n i f).errors = s.errors := rfl
@[simp] theorem State.sent_onCtx (s : State) (n i : Nat) (f : Ctx → Ctx) : (s.onCtx n i f).sent = s.sent := rfl
@[simp] theorem State.trapMsgs_onCtx (s : State) (n i : Nat) (f : Ctx → Ctx) : (s.onCtx n i f).trapMsgs = s.trapMsgs := rfl
@[simp] theorem State.focus_onCtx (s : State) (n i : Nat) (f : Ctx → Ctx) : (s.onCtx n i f).focus = s.focus := rfl
@[simp] theorem State.curCtx_onCtx (s : State) (n i : Nat) (f : Ctx → Ctx) : (s.onCtx n i f).curCtx = s.curCtx := rfl
@[simp] theorem State.ir_onCtx (s : State) (n i : Nat) (f : Ctx → Ctx) : (s.onCtx n i f).ir = s.ir := rfl
@[simp] theorem State.ev_onCtx (s : State) (n i : Nat) (f : Ctx → Ctx) : (s.onCtx n i f).ev = s.ev := rfl
@[simp] theorem State.agenda_onCtx (s : State) (n i : Nat) (f : Ctx → Ctx) : (s.onCtx n i f).agenda = s.agenda := rfl
@[simp] theorem State.freeCtr_onCtx (s : State) (n i : Nat) (f : Ctx → Ctx) : (s.onCtx n i f).freeCtr = s.freeCtr := rfl

@[simp] theorem State.clusters_mapCore (s : State) (f : Core → Core) : (s.mapCore f).clusters = s.clusters := rfl
@[simp] theorem State.dies_mapCore (s : State) (f : Core → Core) : (s.mapCore f).dies = s.dies := rfl
@[simp] theorem State.queues_mapCore (s : State) (f : Core → Core) : (s.mapCore f).queues = s.queues := rfl
@[simp] theorem State.parts_mapCore (s : State) (f : Core → Core) : (s.mapCore f).parts = s.parts := rfl
@[simp] theorem State.mem_mapCore (s : State) (f : Core → Core) : (s.mapCore f).mem = s.mem := rfl
@[simp] theorem State.poison_mapCore (s : State) (f : Core → Core) : (s.mapCore f).poison = s.poison := rfl
@[simp] theorem State.vers_mapCore (s : State) (f : Core → Core) : (s.mapCore f).vers = s.vers := rfl
@[simp] theorem State.time_mapCore (s : State) (f : Core → Core) : (s.mapCore f).time = s.time := rfl
@[simp] theorem State.rate_mapCore (s : State) (f : Core → Core) : (s.mapCore f).rate = s.rate := rfl
@[simp] theorem State.dispatched_mapCore (s : State) (f : Core → Core) : (s.mapCore f).dispatched = s.dispatched := rfl
@[simp] theorem State.monitors_mapCore (s : State) (f : Core → Core) : (s.mapCore f).monitors = s.monitors := rfl
@[simp] theorem State.migrations_mapCore (s : State) (f : Core → Core) : (s.mapCore f).migrations = s.migrations := rfl
@[simp] theorem State.remoteDecs_mapCore (s : State) (f : Core → Core) : (s.mapCore f).remoteDecs = s.remoteDecs := rfl
@[simp] theorem State.dstate_mapCore (s : State) (f : Core → Core) : (s.mapCore f).dstate = s.dstate := rfl
@[simp] theorem State.warm_mapCore (s : State) (f : Core → Core) : (s.mapCore f).warm = s.warm := rfl
@[simp] theorem State.boot_mapCore (s : State) (f : Core → Core) : (s.mapCore f).boot = s.boot := rfl
@[simp] theorem State.measured_mapCore (s : State) (f : Core → Core) : (s.mapCore f).measured = s.measured := rfl
@[simp] theorem State.logLast_mapCore (s : State) (f : Core → Core) : (s.mapCore f).logLast = s.logLast := rfl
@[simp] theorem State.logInternal_mapCore (s : State) (f : Core → Core) : (s.mapCore f).logInternal = s.logInternal := rfl
@[simp] theorem State.logTail_mapCore (s : State) (f : Core → Core) : (s.mapCore f).logTail = s.logTail := rfl
@[simp] theorem State.errors_mapCore (s : State) (f : Core → Core) : (s.mapCore f).errors = s.errors := rfl
@[simp] theorem State.sent_mapCore (s : State) (f : Core → Core) : (s.mapCore f).sent = s.sent := rfl
@[simp] theorem State.trapMsgs_mapCore (s : State) (f : Core → Core) : (s.mapCore f).trapMsgs = s.trapMsgs := rfl
@[simp] theorem State.focus_mapCore (s : State) (f : Core → Core) : (s.mapCore f).focus = s.focus := rfl
@[simp] theorem State.curCtx_mapCore (s : State) (f : Core → Core) : (s.mapCore f).curCtx = s.curCtx := rfl
@[simp] theorem State.ir_mapCore (s : State) (f : Core → Core) : (s.mapCore f).ir = s.ir := rfl
@[simp] theorem State.ev_mapCore (s : State) (f : Core → Core) : (s.mapCore f).ev = s.ev := rfl
@[simp] theorem State.agenda_mapCore (s : State) (f : Core → Core) : (s.mapCore f).agenda = s.agenda := rfl
@[simp] theorem State.freeCtr_mapCore (s : State) (f : Core → Core) : (s.mapCore f).freeCtr = s.freeCtr := rfl

@[simp] theorem State.clusters_mapCtx (s : State) (f : Ctx → Ctx) : (s.mapCtx f).clusters = s.clusters := rfl
@[simp] theorem State.dies_mapCtx (s : State) (f : Ctx → Ctx) : (s.mapCtx f).dies = s.dies := rfl
@[simp] theorem State.queues_mapCtx (s : State) (f : Ctx → Ctx) : (s.mapCtx f).queues = s.queues := rfl
@[simp] theorem State.parts_mapCtx (s : State) (f : Ctx → Ctx) : (s.mapCtx f).parts = s.parts := rfl
@[simp] theorem State.mem_mapCtx (s : State) (f : Ctx → Ctx) : (s.mapCtx f).mem = s.mem := rfl
@[simp] theorem State.poison_mapCtx (s : State) (f : Ctx → Ctx) : (s.mapCtx f).poison = s.poison := rfl
@[simp] theorem State.vers_mapCtx (s : State) (f : Ctx → Ctx) : (s.mapCtx f).vers = s.vers := rfl
@[simp] theorem State.time_mapCtx (s : State) (f : Ctx → Ctx) : (s.mapCtx f).time = s.time := rfl
@[simp] theorem State.rate_mapCtx (s : State) (f : Ctx → Ctx) : (s.mapCtx f).rate = s.rate := rfl
@[simp] theorem State.dispatched_mapCtx (s : State) (f : Ctx → Ctx) : (s.mapCtx f).dispatched = s.dispatched := rfl
@[simp] theorem State.monitors_mapCtx (s : State) (f : Ctx → Ctx) : (s.mapCtx f).monitors = s.monitors := rfl
@[simp] theorem State.migrations_mapCtx (s : State) (f : Ctx → Ctx) : (s.mapCtx f).migrations = s.migrations := rfl
@[simp] theorem State.remoteDecs_mapCtx (s : State) (f : Ctx → Ctx) : (s.mapCtx f).remoteDecs = s.remoteDecs := rfl
@[simp] theorem State.dstate_mapCtx (s : State) (f : Ctx → Ctx) : (s.mapCtx f).dstate = s.dstate := rfl
@[simp] theorem State.warm_mapCtx (s : State) (f : Ctx → Ctx) : (s.mapCtx f).warm = s.warm := rfl
@[simp] theorem State.boot_mapCtx (s : State) (f : Ctx → Ctx) : (s.mapCtx f).boot = s.boot := rfl
@[simp] theorem State.measured_mapCtx (s : State) (f : Ctx → Ctx) : (s.mapCtx f).measured = s.measured := rfl
@[simp] theorem State.logLast_mapCtx (s : State) (f : Ctx → Ctx) : (s.mapCtx f).logLast = s.logLast := rfl
@[simp] theorem State.logInternal_mapCtx (s : State) (f : Ctx → Ctx) : (s.mapCtx f).logInternal = s.logInternal := rfl
@[simp] theorem State.logTail_mapCtx (s : State) (f : Ctx → Ctx) : (s.mapCtx f).logTail = s.logTail := rfl
@[simp] theorem State.errors_mapCtx (s : State) (f : Ctx → Ctx) : (s.mapCtx f).errors = s.errors := rfl
@[simp] theorem State.sent_mapCtx (s : State) (f : Ctx → Ctx) : (s.mapCtx f).sent = s.sent := rfl
@[simp] theorem State.trapMsgs_mapCtx (s : State) (f : Ctx → Ctx) : (s.mapCtx f).trapMsgs = s.trapMsgs := rfl
@[simp] theorem State.focus_mapCtx (s : State) (f : Ctx → Ctx) : (s.mapCtx f).focus = s.focus := rfl
@[simp] theorem State.curCtx_mapCtx (s : State) (f : Ctx → Ctx) : (s.mapCtx f).curCtx = s.curCtx := rfl
@[simp] theorem State.ir_mapCtx (s : State) (f : Ctx → Ctx) : (s.mapCtx f).ir = s.ir := rfl
@[simp] theorem State.ev_mapCtx (s : State) (f : Ctx → Ctx) : (s.mapCtx f).ev = s.ev := rfl
@[simp] theorem State.agenda_mapCtx (s : State) (f : Ctx → Ctx) : (s.mapCtx f).agenda = s.agenda := rfl
@[simp] theorem State.freeCtr_mapCtx (s : State) (f : Ctx → Ctx) : (s.mapCtx f).freeCtr = s.freeCtr := rfl

@[simp] theorem State.clusters_setG (s : State) (r : Reg) (v : Word) : (s.setG r v).clusters = s.clusters := rfl
@[simp] theorem State.dies_setG (s : State) (r : Reg) (v : Word) : (s.setG r v).dies = s.dies := rfl
@[simp] theorem State.queues_setG (s : State) (r : Reg) (v : Word) : (s.setG r v).queues = s.queues := rfl
@[simp] theorem State.parts_setG (s : State) (r : Reg) (v : Word) : (s.setG r v).parts = s.parts := rfl
@[simp] theorem State.mem_setG (s : State) (r : Reg) (v : Word) : (s.setG r v).mem = s.mem := rfl
@[simp] theorem State.poison_setG (s : State) (r : Reg) (v : Word) : (s.setG r v).poison = s.poison := rfl
@[simp] theorem State.vers_setG (s : State) (r : Reg) (v : Word) : (s.setG r v).vers = s.vers := rfl
@[simp] theorem State.time_setG (s : State) (r : Reg) (v : Word) : (s.setG r v).time = s.time := rfl
@[simp] theorem State.rate_setG (s : State) (r : Reg) (v : Word) : (s.setG r v).rate = s.rate := rfl
@[simp] theorem State.dispatched_setG (s : State) (r : Reg) (v : Word) : (s.setG r v).dispatched = s.dispatched := rfl
@[simp] theorem State.monitors_setG (s : State) (r : Reg) (v : Word) : (s.setG r v).monitors = s.monitors := rfl
@[simp] theorem State.migrations_setG (s : State) (r : Reg) (v : Word) : (s.setG r v).migrations = s.migrations := rfl
@[simp] theorem State.remoteDecs_setG (s : State) (r : Reg) (v : Word) : (s.setG r v).remoteDecs = s.remoteDecs := rfl
@[simp] theorem State.dstate_setG (s : State) (r : Reg) (v : Word) : (s.setG r v).dstate = s.dstate := rfl
@[simp] theorem State.warm_setG (s : State) (r : Reg) (v : Word) : (s.setG r v).warm = s.warm := rfl
@[simp] theorem State.boot_setG (s : State) (r : Reg) (v : Word) : (s.setG r v).boot = s.boot := rfl
@[simp] theorem State.measured_setG (s : State) (r : Reg) (v : Word) : (s.setG r v).measured = s.measured := rfl
@[simp] theorem State.logLast_setG (s : State) (r : Reg) (v : Word) : (s.setG r v).logLast = s.logLast := rfl
@[simp] theorem State.logInternal_setG (s : State) (r : Reg) (v : Word) : (s.setG r v).logInternal = s.logInternal := rfl
@[simp] theorem State.logTail_setG (s : State) (r : Reg) (v : Word) : (s.setG r v).logTail = s.logTail := rfl
@[simp] theorem State.errors_setG (s : State) (r : Reg) (v : Word) : (s.setG r v).errors = s.errors := rfl
@[simp] theorem State.sent_setG (s : State) (r : Reg) (v : Word) : (s.setG r v).sent = s.sent := rfl
@[simp] theorem State.trapMsgs_setG (s : State) (r : Reg) (v : Word) : (s.setG r v).trapMsgs = s.trapMsgs := rfl
@[simp] theorem State.focus_setG (s : State) (r : Reg) (v : Word) : (s.setG r v).focus = s.focus := rfl
@[simp] theorem State.curCtx_setG (s : State) (r : Reg) (v : Word) : (s.setG r v).curCtx = s.curCtx := rfl
@[simp] theorem State.ir_setG (s : State) (r : Reg) (v : Word) : (s.setG r v).ir = s.ir := rfl
@[simp] theorem State.ev_setG (s : State) (r : Reg) (v : Word) : (s.setG r v).ev = s.ev := rfl
@[simp] theorem State.agenda_setG (s : State) (r : Reg) (v : Word) : (s.setG r v).agenda = s.agenda := rfl
@[simp] theorem State.freeCtr_setG (s : State) (r : Reg) (v : Word) : (s.setG r v).freeCtr = s.freeCtr := rfl

@[simp] theorem State.clusters_finish (s : State) (len : Nat) : (s.finish len).clusters = s.clusters := rfl
@[simp] theorem State.dies_finish (s : State) (len : Nat) : (s.finish len).dies = s.dies := rfl
@[simp] theorem State.queues_finish (s : State) (len : Nat) : (s.finish len).queues = s.queues := rfl
@[simp] theorem State.parts_finish (s : State) (len : Nat) : (s.finish len).parts = s.parts := rfl
@[simp] theorem State.mem_finish (s : State) (len : Nat) : (s.finish len).mem = s.mem := rfl
@[simp] theorem State.poison_finish (s : State) (len : Nat) : (s.finish len).poison = s.poison := rfl
@[simp] theorem State.vers_finish (s : State) (len : Nat) : (s.finish len).vers = s.vers := rfl
@[simp] theorem State.time_finish (s : State) (len : Nat) : (s.finish len).time = s.time := rfl
@[simp] theorem State.rate_finish (s : State) (len : Nat) : (s.finish len).rate = s.rate := rfl
@[simp] theorem State.dispatched_finish (s : State) (len : Nat) : (s.finish len).dispatched = s.dispatched := rfl
@[simp] theorem State.monitors_finish (s : State) (len : Nat) : (s.finish len).monitors = s.monitors := rfl
@[simp] theorem State.migrations_finish (s : State) (len : Nat) : (s.finish len).migrations = s.migrations := rfl
@[simp] theorem State.remoteDecs_finish (s : State) (len : Nat) : (s.finish len).remoteDecs = s.remoteDecs := rfl
@[simp] theorem State.dstate_finish (s : State) (len : Nat) : (s.finish len).dstate = s.dstate := rfl
@[simp] theorem State.warm_finish (s : State) (len : Nat) : (s.finish len).warm = s.warm := rfl
@[simp] theorem State.boot_finish (s : State) (len : Nat) : (s.finish len).boot = s.boot := rfl
@[simp] theorem State.measured_finish (s : State) (len : Nat) : (s.finish len).measured = s.measured := rfl
@[simp] theorem State.logLast_finish (s : State) (len : Nat) : (s.finish len).logLast = s.logLast := rfl
@[simp] theorem State.logInternal_finish (s : State) (len : Nat) : (s.finish len).logInternal = s.logInternal := rfl
@[simp] theorem State.logTail_finish (s : State) (len : Nat) : (s.finish len).logTail = s.logTail := rfl
@[simp] theorem State.errors_finish (s : State) (len : Nat) : (s.finish len).errors = s.errors := rfl
@[simp] theorem State.sent_finish (s : State) (len : Nat) : (s.finish len).sent = s.sent := rfl
@[simp] theorem State.trapMsgs_finish (s : State) (len : Nat) : (s.finish len).trapMsgs = s.trapMsgs := rfl
@[simp] theorem State.focus_finish (s : State) (len : Nat) : (s.finish len).focus = s.focus := rfl
@[simp] theorem State.curCtx_finish (s : State) (len : Nat) : (s.finish len).curCtx = s.curCtx := rfl
@[simp] theorem State.ir_finish (s : State) (len : Nat) : (s.finish len).ir = s.ir := rfl
@[simp] theorem State.ev_finish (s : State) (len : Nat) : (s.finish len).ev = s.ev := rfl
@[simp] theorem State.agenda_finish (s : State) (len : Nat) : (s.finish len).agenda = s.agenda := rfl
@[simp] theorem State.freeCtr_finish (s : State) (len : Nat) : (s.finish len).freeCtr = s.freeCtr := rfl

@[simp] theorem State.clusters_jump (s : State) (t : VAddr) : (s.jump t).clusters = s.clusters := rfl
@[simp] theorem State.dies_jump (s : State) (t : VAddr) : (s.jump t).dies = s.dies := rfl
@[simp] theorem State.queues_jump (s : State) (t : VAddr) : (s.jump t).queues = s.queues := rfl
@[simp] theorem State.parts_jump (s : State) (t : VAddr) : (s.jump t).parts = s.parts := rfl
@[simp] theorem State.mem_jump (s : State) (t : VAddr) : (s.jump t).mem = s.mem := rfl
@[simp] theorem State.poison_jump (s : State) (t : VAddr) : (s.jump t).poison = s.poison := rfl
@[simp] theorem State.vers_jump (s : State) (t : VAddr) : (s.jump t).vers = s.vers := rfl
@[simp] theorem State.time_jump (s : State) (t : VAddr) : (s.jump t).time = s.time := rfl
@[simp] theorem State.rate_jump (s : State) (t : VAddr) : (s.jump t).rate = s.rate := rfl
@[simp] theorem State.dispatched_jump (s : State) (t : VAddr) : (s.jump t).dispatched = s.dispatched := rfl
@[simp] theorem State.monitors_jump (s : State) (t : VAddr) : (s.jump t).monitors = s.monitors := rfl
@[simp] theorem State.migrations_jump (s : State) (t : VAddr) : (s.jump t).migrations = s.migrations := rfl
@[simp] theorem State.remoteDecs_jump (s : State) (t : VAddr) : (s.jump t).remoteDecs = s.remoteDecs := rfl
@[simp] theorem State.dstate_jump (s : State) (t : VAddr) : (s.jump t).dstate = s.dstate := rfl
@[simp] theorem State.warm_jump (s : State) (t : VAddr) : (s.jump t).warm = s.warm := rfl
@[simp] theorem State.boot_jump (s : State) (t : VAddr) : (s.jump t).boot = s.boot := rfl
@[simp] theorem State.measured_jump (s : State) (t : VAddr) : (s.jump t).measured = s.measured := rfl
@[simp] theorem State.logLast_jump (s : State) (t : VAddr) : (s.jump t).logLast = s.logLast := rfl
@[simp] theorem State.logInternal_jump (s : State) (t : VAddr) : (s.jump t).logInternal = s.logInternal := rfl
@[simp] theorem State.logTail_jump (s : State) (t : VAddr) : (s.jump t).logTail = s.logTail := rfl
@[simp] theorem State.errors_jump (s : State) (t : VAddr) : (s.jump t).errors = s.errors := rfl
@[simp] theorem State.sent_jump (s : State) (t : VAddr) : (s.jump t).sent = s.sent := rfl
@[simp] theorem State.trapMsgs_jump (s : State) (t : VAddr) : (s.jump t).trapMsgs = s.trapMsgs := rfl
@[simp] theorem State.focus_jump (s : State) (t : VAddr) : (s.jump t).focus = s.focus := rfl
@[simp] theorem State.curCtx_jump (s : State) (t : VAddr) : (s.jump t).curCtx = s.curCtx := rfl
@[simp] theorem State.ir_jump (s : State) (t : VAddr) : (s.jump t).ir = s.ir := rfl
@[simp] theorem State.ev_jump (s : State) (t : VAddr) : (s.jump t).ev = s.ev := rfl
@[simp] theorem State.agenda_jump (s : State) (t : VAddr) : (s.jump t).agenda = s.agenda := rfl
@[simp] theorem State.freeCtr_jump (s : State) (t : VAddr) : (s.jump t).freeCtr = s.freeCtr := rfl

@[simp] theorem State.clusters_wait (s : State) (w : Why) : (s.wait w).clusters = s.clusters := rfl
@[simp] theorem State.dies_wait (s : State) (w : Why) : (s.wait w).dies = s.dies := rfl
@[simp] theorem State.queues_wait (s : State) (w : Why) : (s.wait w).queues = s.queues := rfl
@[simp] theorem State.parts_wait (s : State) (w : Why) : (s.wait w).parts = s.parts := rfl
@[simp] theorem State.mem_wait (s : State) (w : Why) : (s.wait w).mem = s.mem := rfl
@[simp] theorem State.poison_wait (s : State) (w : Why) : (s.wait w).poison = s.poison := rfl
@[simp] theorem State.vers_wait (s : State) (w : Why) : (s.wait w).vers = s.vers := rfl
@[simp] theorem State.time_wait (s : State) (w : Why) : (s.wait w).time = s.time := rfl
@[simp] theorem State.rate_wait (s : State) (w : Why) : (s.wait w).rate = s.rate := rfl
@[simp] theorem State.dispatched_wait (s : State) (w : Why) : (s.wait w).dispatched = s.dispatched := rfl
@[simp] theorem State.monitors_wait (s : State) (w : Why) : (s.wait w).monitors = s.monitors := rfl
@[simp] theorem State.migrations_wait (s : State) (w : Why) : (s.wait w).migrations = s.migrations := rfl
@[simp] theorem State.remoteDecs_wait (s : State) (w : Why) : (s.wait w).remoteDecs = s.remoteDecs := rfl
@[simp] theorem State.dstate_wait (s : State) (w : Why) : (s.wait w).dstate = s.dstate := rfl
@[simp] theorem State.warm_wait (s : State) (w : Why) : (s.wait w).warm = s.warm := rfl
@[simp] theorem State.boot_wait (s : State) (w : Why) : (s.wait w).boot = s.boot := rfl
@[simp] theorem State.measured_wait (s : State) (w : Why) : (s.wait w).measured = s.measured := rfl
@[simp] theorem State.logLast_wait (s : State) (w : Why) : (s.wait w).logLast = s.logLast := rfl
@[simp] theorem State.logInternal_wait (s : State) (w : Why) : (s.wait w).logInternal = s.logInternal := rfl
@[simp] theorem State.logTail_wait (s : State) (w : Why) : (s.wait w).logTail = s.logTail := rfl
@[simp] theorem State.errors_wait (s : State) (w : Why) : (s.wait w).errors = s.errors := rfl
@[simp] theorem State.sent_wait (s : State) (w : Why) : (s.wait w).sent = s.sent := rfl
@[simp] theorem State.trapMsgs_wait (s : State) (w : Why) : (s.wait w).trapMsgs = s.trapMsgs := rfl
@[simp] theorem State.focus_wait (s : State) (w : Why) : (s.wait w).focus = s.focus := rfl
@[simp] theorem State.curCtx_wait (s : State) (w : Why) : (s.wait w).curCtx = s.curCtx := rfl
@[simp] theorem State.ir_wait (s : State) (w : Why) : (s.wait w).ir = s.ir := rfl
@[simp] theorem State.ev_wait (s : State) (w : Why) : (s.wait w).ev = s.ev := rfl
@[simp] theorem State.agenda_wait (s : State) (w : Why) : (s.wait w).agenda = s.agenda := rfl
@[simp] theorem State.freeCtr_wait (s : State) (w : Why) : (s.wait w).freeCtr = s.freeCtr := rfl

@[simp] theorem State.clusters_ready (s : State) (n i : Nat) : (s.ready n i).clusters = s.clusters := rfl
@[simp] theorem State.dies_ready (s : State) (n i : Nat) : (s.ready n i).dies = s.dies := rfl
@[simp] theorem State.queues_ready (s : State) (n i : Nat) : (s.ready n i).queues = s.queues := rfl
@[simp] theorem State.parts_ready (s : State) (n i : Nat) : (s.ready n i).parts = s.parts := rfl
@[simp] theorem State.mem_ready (s : State) (n i : Nat) : (s.ready n i).mem = s.mem := rfl
@[simp] theorem State.poison_ready (s : State) (n i : Nat) : (s.ready n i).poison = s.poison := rfl
@[simp] theorem State.vers_ready (s : State) (n i : Nat) : (s.ready n i).vers = s.vers := rfl
@[simp] theorem State.time_ready (s : State) (n i : Nat) : (s.ready n i).time = s.time := rfl
@[simp] theorem State.rate_ready (s : State) (n i : Nat) : (s.ready n i).rate = s.rate := rfl
@[simp] theorem State.dispatched_ready (s : State) (n i : Nat) : (s.ready n i).dispatched = s.dispatched := rfl
@[simp] theorem State.monitors_ready (s : State) (n i : Nat) : (s.ready n i).monitors = s.monitors := rfl
@[simp] theorem State.migrations_ready (s : State) (n i : Nat) : (s.ready n i).migrations = s.migrations := rfl
@[simp] theorem State.remoteDecs_ready (s : State) (n i : Nat) : (s.ready n i).remoteDecs = s.remoteDecs := rfl
@[simp] theorem State.dstate_ready (s : State) (n i : Nat) : (s.ready n i).dstate = s.dstate := rfl
@[simp] theorem State.warm_ready (s : State) (n i : Nat) : (s.ready n i).warm = s.warm := rfl
@[simp] theorem State.boot_ready (s : State) (n i : Nat) : (s.ready n i).boot = s.boot := rfl
@[simp] theorem State.measured_ready (s : State) (n i : Nat) : (s.ready n i).measured = s.measured := rfl
@[simp] theorem State.logLast_ready (s : State) (n i : Nat) : (s.ready n i).logLast = s.logLast := rfl
@[simp] theorem State.logInternal_ready (s : State) (n i : Nat) : (s.ready n i).logInternal = s.logInternal := rfl
@[simp] theorem State.logTail_ready (s : State) (n i : Nat) : (s.ready n i).logTail = s.logTail := rfl
@[simp] theorem State.errors_ready (s : State) (n i : Nat) : (s.ready n i).errors = s.errors := rfl
@[simp] theorem State.sent_ready (s : State) (n i : Nat) : (s.ready n i).sent = s.sent := rfl
@[simp] theorem State.trapMsgs_ready (s : State) (n i : Nat) : (s.ready n i).trapMsgs = s.trapMsgs := rfl
@[simp] theorem State.focus_ready (s : State) (n i : Nat) : (s.ready n i).focus = s.focus := rfl
@[simp] theorem State.curCtx_ready (s : State) (n i : Nat) : (s.ready n i).curCtx = s.curCtx := rfl
@[simp] theorem State.ir_ready (s : State) (n i : Nat) : (s.ready n i).ir = s.ir := rfl
@[simp] theorem State.ev_ready (s : State) (n i : Nat) : (s.ready n i).ev = s.ev := rfl
@[simp] theorem State.agenda_ready (s : State) (n i : Nat) : (s.ready n i).agenda = s.agenda := rfl
@[simp] theorem State.freeCtr_ready (s : State) (n i : Nat) : (s.ready n i).freeCtr = s.freeCtr := rfl

@[simp] theorem State.clusters_wakeBusy (s : State) (n : Nat) : (s.wakeBusy n).clusters = s.clusters := rfl
@[simp] theorem State.dies_wakeBusy (s : State) (n : Nat) : (s.wakeBusy n).dies = s.dies := rfl
@[simp] theorem State.queues_wakeBusy (s : State) (n : Nat) : (s.wakeBusy n).queues = s.queues := rfl
@[simp] theorem State.parts_wakeBusy (s : State) (n : Nat) : (s.wakeBusy n).parts = s.parts := rfl
@[simp] theorem State.mem_wakeBusy (s : State) (n : Nat) : (s.wakeBusy n).mem = s.mem := rfl
@[simp] theorem State.poison_wakeBusy (s : State) (n : Nat) : (s.wakeBusy n).poison = s.poison := rfl
@[simp] theorem State.vers_wakeBusy (s : State) (n : Nat) : (s.wakeBusy n).vers = s.vers := rfl
@[simp] theorem State.time_wakeBusy (s : State) (n : Nat) : (s.wakeBusy n).time = s.time := rfl
@[simp] theorem State.rate_wakeBusy (s : State) (n : Nat) : (s.wakeBusy n).rate = s.rate := rfl
@[simp] theorem State.dispatched_wakeBusy (s : State) (n : Nat) : (s.wakeBusy n).dispatched = s.dispatched := rfl
@[simp] theorem State.monitors_wakeBusy (s : State) (n : Nat) : (s.wakeBusy n).monitors = s.monitors := rfl
@[simp] theorem State.migrations_wakeBusy (s : State) (n : Nat) : (s.wakeBusy n).migrations = s.migrations := rfl
@[simp] theorem State.remoteDecs_wakeBusy (s : State) (n : Nat) : (s.wakeBusy n).remoteDecs = s.remoteDecs := rfl
@[simp] theorem State.dstate_wakeBusy (s : State) (n : Nat) : (s.wakeBusy n).dstate = s.dstate := rfl
@[simp] theorem State.warm_wakeBusy (s : State) (n : Nat) : (s.wakeBusy n).warm = s.warm := rfl
@[simp] theorem State.boot_wakeBusy (s : State) (n : Nat) : (s.wakeBusy n).boot = s.boot := rfl
@[simp] theorem State.measured_wakeBusy (s : State) (n : Nat) : (s.wakeBusy n).measured = s.measured := rfl
@[simp] theorem State.logLast_wakeBusy (s : State) (n : Nat) : (s.wakeBusy n).logLast = s.logLast := rfl
@[simp] theorem State.logInternal_wakeBusy (s : State) (n : Nat) : (s.wakeBusy n).logInternal = s.logInternal := rfl
@[simp] theorem State.logTail_wakeBusy (s : State) (n : Nat) : (s.wakeBusy n).logTail = s.logTail := rfl
@[simp] theorem State.errors_wakeBusy (s : State) (n : Nat) : (s.wakeBusy n).errors = s.errors := rfl
@[simp] theorem State.sent_wakeBusy (s : State) (n : Nat) : (s.wakeBusy n).sent = s.sent := rfl
@[simp] theorem State.trapMsgs_wakeBusy (s : State) (n : Nat) : (s.wakeBusy n).trapMsgs = s.trapMsgs := rfl
@[simp] theorem State.focus_wakeBusy (s : State) (n : Nat) : (s.wakeBusy n).focus = s.focus := rfl
@[simp] theorem State.curCtx_wakeBusy (s : State) (n : Nat) : (s.wakeBusy n).curCtx = s.curCtx := rfl
@[simp] theorem State.ir_wakeBusy (s : State) (n : Nat) : (s.wakeBusy n).ir = s.ir := rfl
@[simp] theorem State.ev_wakeBusy (s : State) (n : Nat) : (s.wakeBusy n).ev = s.ev := rfl
@[simp] theorem State.agenda_wakeBusy (s : State) (n : Nat) : (s.wakeBusy n).agenda = s.agenda := rfl
@[simp] theorem State.freeCtr_wakeBusy (s : State) (n : Nat) : (s.wakeBusy n).freeCtr = s.freeCtr := rfl

@[simp] theorem State.clusters_answer (s : State) (n i : Nat) (v : Option Word) : (s.answer n i v).clusters = s.clusters := rfl
@[simp] theorem State.dies_answer (s : State) (n i : Nat) (v : Option Word) : (s.answer n i v).dies = s.dies := rfl
@[simp] theorem State.queues_answer (s : State) (n i : Nat) (v : Option Word) : (s.answer n i v).queues = s.queues := rfl
@[simp] theorem State.parts_answer (s : State) (n i : Nat) (v : Option Word) : (s.answer n i v).parts = s.parts := rfl
@[simp] theorem State.mem_answer (s : State) (n i : Nat) (v : Option Word) : (s.answer n i v).mem = s.mem := rfl
@[simp] theorem State.poison_answer (s : State) (n i : Nat) (v : Option Word) : (s.answer n i v).poison = s.poison := rfl
@[simp] theorem State.vers_answer (s : State) (n i : Nat) (v : Option Word) : (s.answer n i v).vers = s.vers := rfl
@[simp] theorem State.time_answer (s : State) (n i : Nat) (v : Option Word) : (s.answer n i v).time = s.time := rfl
@[simp] theorem State.rate_answer (s : State) (n i : Nat) (v : Option Word) : (s.answer n i v).rate = s.rate := rfl
@[simp] theorem State.dispatched_answer (s : State) (n i : Nat) (v : Option Word) : (s.answer n i v).dispatched = s.dispatched := rfl
@[simp] theorem State.monitors_answer (s : State) (n i : Nat) (v : Option Word) : (s.answer n i v).monitors = s.monitors := rfl
@[simp] theorem State.migrations_answer (s : State) (n i : Nat) (v : Option Word) : (s.answer n i v).migrations = s.migrations := rfl
@[simp] theorem State.remoteDecs_answer (s : State) (n i : Nat) (v : Option Word) : (s.answer n i v).remoteDecs = s.remoteDecs := rfl
@[simp] theorem State.dstate_answer (s : State) (n i : Nat) (v : Option Word) : (s.answer n i v).dstate = s.dstate := rfl
@[simp] theorem State.warm_answer (s : State) (n i : Nat) (v : Option Word) : (s.answer n i v).warm = s.warm := rfl
@[simp] theorem State.boot_answer (s : State) (n i : Nat) (v : Option Word) : (s.answer n i v).boot = s.boot := rfl
@[simp] theorem State.measured_answer (s : State) (n i : Nat) (v : Option Word) : (s.answer n i v).measured = s.measured := rfl
@[simp] theorem State.logLast_answer (s : State) (n i : Nat) (v : Option Word) : (s.answer n i v).logLast = s.logLast := rfl
@[simp] theorem State.logInternal_answer (s : State) (n i : Nat) (v : Option Word) : (s.answer n i v).logInternal = s.logInternal := rfl
@[simp] theorem State.logTail_answer (s : State) (n i : Nat) (v : Option Word) : (s.answer n i v).logTail = s.logTail := rfl
@[simp] theorem State.errors_answer (s : State) (n i : Nat) (v : Option Word) : (s.answer n i v).errors = s.errors := rfl
@[simp] theorem State.sent_answer (s : State) (n i : Nat) (v : Option Word) : (s.answer n i v).sent = s.sent := rfl
@[simp] theorem State.trapMsgs_answer (s : State) (n i : Nat) (v : Option Word) : (s.answer n i v).trapMsgs = s.trapMsgs := rfl
@[simp] theorem State.focus_answer (s : State) (n i : Nat) (v : Option Word) : (s.answer n i v).focus = s.focus := rfl
@[simp] theorem State.curCtx_answer (s : State) (n i : Nat) (v : Option Word) : (s.answer n i v).curCtx = s.curCtx := rfl
@[simp] theorem State.ir_answer (s : State) (n i : Nat) (v : Option Word) : (s.answer n i v).ir = s.ir := rfl
@[simp] theorem State.ev_answer (s : State) (n i : Nat) (v : Option Word) : (s.answer n i v).ev = s.ev := rfl
@[simp] theorem State.agenda_answer (s : State) (n i : Nat) (v : Option Word) : (s.answer n i v).agenda = s.agenda := rfl
@[simp] theorem State.freeCtr_answer (s : State) (n i : Nat) (v : Option Word) : (s.answer n i v).freeCtr = s.freeCtr := rfl

@[simp] theorem State.cores_onCluster (s : State) (n : Nat) (f : Cluster → Cluster) : (s.onCluster n f).cores = s.cores := rfl
@[simp] theorem State.dies_onCluster (s : State) (n : Nat) (f : Cluster → Cluster) : (s.onCluster n f).dies = s.dies := rfl
@[simp] theorem State.queues_onCluster (s : State) (n : Nat) (f : Cluster → Cluster) : (s.onCluster n f).queues = s.queues := rfl
@[simp] theorem State.parts_onCluster (s : State) (n : Nat) (f : Cluster → Cluster) : (s.onCluster n f).parts = s.parts := rfl
@[simp] theorem State.mem_onCluster (s : State) (n : Nat) (f : Cluster → Cluster) : (s.onCluster n f).mem = s.mem := rfl
@[simp] theorem State.poison_onCluster (s : State) (n : Nat) (f : Cluster → Cluster) : (s.onCluster n f).poison = s.poison := rfl
@[simp] theorem State.vers_onCluster (s : State) (n : Nat) (f : Cluster → Cluster) : (s.onCluster n f).vers = s.vers := rfl
@[simp] theorem State.time_onCluster (s : State) (n : Nat) (f : Cluster → Cluster) : (s.onCluster n f).time = s.time := rfl
@[simp] theorem State.rate_onCluster (s : State) (n : Nat) (f : Cluster → Cluster) : (s.onCluster n f).rate = s.rate := rfl
@[simp] theorem State.dispatched_onCluster (s : State) (n : Nat) (f : Cluster → Cluster) : (s.onCluster n f).dispatched = s.dispatched := rfl
@[simp] theorem State.monitors_onCluster (s : State) (n : Nat) (f : Cluster → Cluster) : (s.onCluster n f).monitors = s.monitors := rfl
@[simp] theorem State.migrations_onCluster (s : State) (n : Nat) (f : Cluster → Cluster) : (s.onCluster n f).migrations = s.migrations := rfl
@[simp] theorem State.remoteDecs_onCluster (s : State) (n : Nat) (f : Cluster → Cluster) : (s.onCluster n f).remoteDecs = s.remoteDecs := rfl
@[simp] theorem State.dstate_onCluster (s : State) (n : Nat) (f : Cluster → Cluster) : (s.onCluster n f).dstate = s.dstate := rfl
@[simp] theorem State.warm_onCluster (s : State) (n : Nat) (f : Cluster → Cluster) : (s.onCluster n f).warm = s.warm := rfl
@[simp] theorem State.boot_onCluster (s : State) (n : Nat) (f : Cluster → Cluster) : (s.onCluster n f).boot = s.boot := rfl
@[simp] theorem State.measured_onCluster (s : State) (n : Nat) (f : Cluster → Cluster) : (s.onCluster n f).measured = s.measured := rfl
@[simp] theorem State.logLast_onCluster (s : State) (n : Nat) (f : Cluster → Cluster) : (s.onCluster n f).logLast = s.logLast := rfl
@[simp] theorem State.logInternal_onCluster (s : State) (n : Nat) (f : Cluster → Cluster) : (s.onCluster n f).logInternal = s.logInternal := rfl
@[simp] theorem State.logTail_onCluster (s : State) (n : Nat) (f : Cluster → Cluster) : (s.onCluster n f).logTail = s.logTail := rfl
@[simp] theorem State.errors_onCluster (s : State) (n : Nat) (f : Cluster → Cluster) : (s.onCluster n f).errors = s.errors := rfl
@[simp] theorem State.sent_onCluster (s : State) (n : Nat) (f : Cluster → Cluster) : (s.onCluster n f).sent = s.sent := rfl
@[simp] theorem State.trapMsgs_onCluster (s : State) (n : Nat) (f : Cluster → Cluster) : (s.onCluster n f).trapMsgs = s.trapMsgs := rfl
@[simp] theorem State.focus_onCluster (s : State) (n : Nat) (f : Cluster → Cluster) : (s.onCluster n f).focus = s.focus := rfl
@[simp] theorem State.curCtx_onCluster (s : State) (n : Nat) (f : Cluster → Cluster) : (s.onCluster n f).curCtx = s.curCtx := rfl
@[simp] theorem State.ir_onCluster (s : State) (n : Nat) (f : Cluster → Cluster) : (s.onCluster n f).ir = s.ir := rfl
@[simp] theorem State.ev_onCluster (s : State) (n : Nat) (f : Cluster → Cluster) : (s.onCluster n f).ev = s.ev := rfl
@[simp] theorem State.agenda_onCluster (s : State) (n : Nat) (f : Cluster → Cluster) : (s.onCluster n f).agenda = s.agenda := rfl
@[simp] theorem State.freeCtr_onCluster (s : State) (n : Nat) (f : Cluster → Cluster) : (s.onCluster n f).freeCtr = s.freeCtr := rfl

@[simp] theorem State.cores_onDie (s : State) (n : Nat) (f : Die → Die) : (s.onDie n f).cores = s.cores := rfl
@[simp] theorem State.clusters_onDie (s : State) (n : Nat) (f : Die → Die) : (s.onDie n f).clusters = s.clusters := rfl
@[simp] theorem State.queues_onDie (s : State) (n : Nat) (f : Die → Die) : (s.onDie n f).queues = s.queues := rfl
@[simp] theorem State.parts_onDie (s : State) (n : Nat) (f : Die → Die) : (s.onDie n f).parts = s.parts := rfl
@[simp] theorem State.mem_onDie (s : State) (n : Nat) (f : Die → Die) : (s.onDie n f).mem = s.mem := rfl
@[simp] theorem State.poison_onDie (s : State) (n : Nat) (f : Die → Die) : (s.onDie n f).poison = s.poison := rfl
@[simp] theorem State.vers_onDie (s : State) (n : Nat) (f : Die → Die) : (s.onDie n f).vers = s.vers := rfl
@[simp] theorem State.time_onDie (s : State) (n : Nat) (f : Die → Die) : (s.onDie n f).time = s.time := rfl
@[simp] theorem State.rate_onDie (s : State) (n : Nat) (f : Die → Die) : (s.onDie n f).rate = s.rate := rfl
@[simp] theorem State.dispatched_onDie (s : State) (n : Nat) (f : Die → Die) : (s.onDie n f).dispatched = s.dispatched := rfl
@[simp] theorem State.monitors_onDie (s : State) (n : Nat) (f : Die → Die) : (s.onDie n f).monitors = s.monitors := rfl
@[simp] theorem State.migrations_onDie (s : State) (n : Nat) (f : Die → Die) : (s.onDie n f).migrations = s.migrations := rfl
@[simp] theorem State.remoteDecs_onDie (s : State) (n : Nat) (f : Die → Die) : (s.onDie n f).remoteDecs = s.remoteDecs := rfl
@[simp] theorem State.dstate_onDie (s : State) (n : Nat) (f : Die → Die) : (s.onDie n f).dstate = s.dstate := rfl
@[simp] theorem State.warm_onDie (s : State) (n : Nat) (f : Die → Die) : (s.onDie n f).warm = s.warm := rfl
@[simp] theorem State.boot_onDie (s : State) (n : Nat) (f : Die → Die) : (s.onDie n f).boot = s.boot := rfl
@[simp] theorem State.measured_onDie (s : State) (n : Nat) (f : Die → Die) : (s.onDie n f).measured = s.measured := rfl
@[simp] theorem State.logLast_onDie (s : State) (n : Nat) (f : Die → Die) : (s.onDie n f).logLast = s.logLast := rfl
@[simp] theorem State.logInternal_onDie (s : State) (n : Nat) (f : Die → Die) : (s.onDie n f).logInternal = s.logInternal := rfl
@[simp] theorem State.logTail_onDie (s : State) (n : Nat) (f : Die → Die) : (s.onDie n f).logTail = s.logTail := rfl
@[simp] theorem State.errors_onDie (s : State) (n : Nat) (f : Die → Die) : (s.onDie n f).errors = s.errors := rfl
@[simp] theorem State.sent_onDie (s : State) (n : Nat) (f : Die → Die) : (s.onDie n f).sent = s.sent := rfl
@[simp] theorem State.trapMsgs_onDie (s : State) (n : Nat) (f : Die → Die) : (s.onDie n f).trapMsgs = s.trapMsgs := rfl
@[simp] theorem State.focus_onDie (s : State) (n : Nat) (f : Die → Die) : (s.onDie n f).focus = s.focus := rfl
@[simp] theorem State.curCtx_onDie (s : State) (n : Nat) (f : Die → Die) : (s.onDie n f).curCtx = s.curCtx := rfl
@[simp] theorem State.ir_onDie (s : State) (n : Nat) (f : Die → Die) : (s.onDie n f).ir = s.ir := rfl
@[simp] theorem State.ev_onDie (s : State) (n : Nat) (f : Die → Die) : (s.onDie n f).ev = s.ev := rfl
@[simp] theorem State.agenda_onDie (s : State) (n : Nat) (f : Die → Die) : (s.onDie n f).agenda = s.agenda := rfl
@[simp] theorem State.freeCtr_onDie (s : State) (n : Nat) (f : Die → Die) : (s.onDie n f).freeCtr = s.freeCtr := rfl

@[simp] theorem State.cores_setDieReg (s : State) (d off : Nat) (v : Word) : (s.setDieReg d off v).cores = s.cores := rfl
@[simp] theorem State.clusters_setDieReg (s : State) (d off : Nat) (v : Word) : (s.setDieReg d off v).clusters = s.clusters := rfl
@[simp] theorem State.queues_setDieReg (s : State) (d off : Nat) (v : Word) : (s.setDieReg d off v).queues = s.queues := rfl
@[simp] theorem State.parts_setDieReg (s : State) (d off : Nat) (v : Word) : (s.setDieReg d off v).parts = s.parts := rfl
@[simp] theorem State.mem_setDieReg (s : State) (d off : Nat) (v : Word) : (s.setDieReg d off v).mem = s.mem := rfl
@[simp] theorem State.poison_setDieReg (s : State) (d off : Nat) (v : Word) : (s.setDieReg d off v).poison = s.poison := rfl
@[simp] theorem State.vers_setDieReg (s : State) (d off : Nat) (v : Word) : (s.setDieReg d off v).vers = s.vers := rfl
@[simp] theorem State.time_setDieReg (s : State) (d off : Nat) (v : Word) : (s.setDieReg d off v).time = s.time := rfl
@[simp] theorem State.rate_setDieReg (s : State) (d off : Nat) (v : Word) : (s.setDieReg d off v).rate = s.rate := rfl
@[simp] theorem State.dispatched_setDieReg (s : State) (d off : Nat) (v : Word) : (s.setDieReg d off v).dispatched = s.dispatched := rfl
@[simp] theorem State.monitors_setDieReg (s : State) (d off : Nat) (v : Word) : (s.setDieReg d off v).monitors = s.monitors := rfl
@[simp] theorem State.migrations_setDieReg (s : State) (d off : Nat) (v : Word) : (s.setDieReg d off v).migrations = s.migrations := rfl
@[simp] theorem State.remoteDecs_setDieReg (s : State) (d off : Nat) (v : Word) : (s.setDieReg d off v).remoteDecs = s.remoteDecs := rfl
@[simp] theorem State.dstate_setDieReg (s : State) (d off : Nat) (v : Word) : (s.setDieReg d off v).dstate = s.dstate := rfl
@[simp] theorem State.warm_setDieReg (s : State) (d off : Nat) (v : Word) : (s.setDieReg d off v).warm = s.warm := rfl
@[simp] theorem State.boot_setDieReg (s : State) (d off : Nat) (v : Word) : (s.setDieReg d off v).boot = s.boot := rfl
@[simp] theorem State.measured_setDieReg (s : State) (d off : Nat) (v : Word) : (s.setDieReg d off v).measured = s.measured := rfl
@[simp] theorem State.logLast_setDieReg (s : State) (d off : Nat) (v : Word) : (s.setDieReg d off v).logLast = s.logLast := rfl
@[simp] theorem State.logInternal_setDieReg (s : State) (d off : Nat) (v : Word) : (s.setDieReg d off v).logInternal = s.logInternal := rfl
@[simp] theorem State.logTail_setDieReg (s : State) (d off : Nat) (v : Word) : (s.setDieReg d off v).logTail = s.logTail := rfl
@[simp] theorem State.errors_setDieReg (s : State) (d off : Nat) (v : Word) : (s.setDieReg d off v).errors = s.errors := rfl
@[simp] theorem State.sent_setDieReg (s : State) (d off : Nat) (v : Word) : (s.setDieReg d off v).sent = s.sent := rfl
@[simp] theorem State.trapMsgs_setDieReg (s : State) (d off : Nat) (v : Word) : (s.setDieReg d off v).trapMsgs = s.trapMsgs := rfl
@[simp] theorem State.focus_setDieReg (s : State) (d off : Nat) (v : Word) : (s.setDieReg d off v).focus = s.focus := rfl
@[simp] theorem State.curCtx_setDieReg (s : State) (d off : Nat) (v : Word) : (s.setDieReg d off v).curCtx = s.curCtx := rfl
@[simp] theorem State.ir_setDieReg (s : State) (d off : Nat) (v : Word) : (s.setDieReg d off v).ir = s.ir := rfl
@[simp] theorem State.ev_setDieReg (s : State) (d off : Nat) (v : Word) : (s.setDieReg d off v).ev = s.ev := rfl
@[simp] theorem State.agenda_setDieReg (s : State) (d off : Nat) (v : Word) : (s.setDieReg d off v).agenda = s.agenda := rfl
@[simp] theorem State.freeCtr_setDieReg (s : State) (d off : Nat) (v : Word) : (s.setDieReg d off v).freeCtr = s.freeCtr := rfl

@[simp] theorem State.cores_onQueue (s : State) (n : Nat) (f : Queue → Queue) : (s.onQueue n f).cores = s.cores := rfl
@[simp] theorem State.clusters_onQueue (s : State) (n : Nat) (f : Queue → Queue) : (s.onQueue n f).clusters = s.clusters := rfl
@[simp] theorem State.dies_onQueue (s : State) (n : Nat) (f : Queue → Queue) : (s.onQueue n f).dies = s.dies := rfl
@[simp] theorem State.parts_onQueue (s : State) (n : Nat) (f : Queue → Queue) : (s.onQueue n f).parts = s.parts := rfl
@[simp] theorem State.mem_onQueue (s : State) (n : Nat) (f : Queue → Queue) : (s.onQueue n f).mem = s.mem := rfl
@[simp] theorem State.poison_onQueue (s : State) (n : Nat) (f : Queue → Queue) : (s.onQueue n f).poison = s.poison := rfl
@[simp] theorem State.vers_onQueue (s : State) (n : Nat) (f : Queue → Queue) : (s.onQueue n f).vers = s.vers := rfl
@[simp] theorem State.time_onQueue (s : State) (n : Nat) (f : Queue → Queue) : (s.onQueue n f).time = s.time := rfl
@[simp] theorem State.rate_onQueue (s : State) (n : Nat) (f : Queue → Queue) : (s.onQueue n f).rate = s.rate := rfl
@[simp] theorem State.dispatched_onQueue (s : State) (n : Nat) (f : Queue → Queue) : (s.onQueue n f).dispatched = s.dispatched := rfl
@[simp] theorem State.monitors_onQueue (s : State) (n : Nat) (f : Queue → Queue) : (s.onQueue n f).monitors = s.monitors := rfl
@[simp] theorem State.migrations_onQueue (s : State) (n : Nat) (f : Queue → Queue) : (s.onQueue n f).migrations = s.migrations := rfl
@[simp] theorem State.remoteDecs_onQueue (s : State) (n : Nat) (f : Queue → Queue) : (s.onQueue n f).remoteDecs = s.remoteDecs := rfl
@[simp] theorem State.dstate_onQueue (s : State) (n : Nat) (f : Queue → Queue) : (s.onQueue n f).dstate = s.dstate := rfl
@[simp] theorem State.warm_onQueue (s : State) (n : Nat) (f : Queue → Queue) : (s.onQueue n f).warm = s.warm := rfl
@[simp] theorem State.boot_onQueue (s : State) (n : Nat) (f : Queue → Queue) : (s.onQueue n f).boot = s.boot := rfl
@[simp] theorem State.measured_onQueue (s : State) (n : Nat) (f : Queue → Queue) : (s.onQueue n f).measured = s.measured := rfl
@[simp] theorem State.logLast_onQueue (s : State) (n : Nat) (f : Queue → Queue) : (s.onQueue n f).logLast = s.logLast := rfl
@[simp] theorem State.logInternal_onQueue (s : State) (n : Nat) (f : Queue → Queue) : (s.onQueue n f).logInternal = s.logInternal := rfl
@[simp] theorem State.logTail_onQueue (s : State) (n : Nat) (f : Queue → Queue) : (s.onQueue n f).logTail = s.logTail := rfl
@[simp] theorem State.errors_onQueue (s : State) (n : Nat) (f : Queue → Queue) : (s.onQueue n f).errors = s.errors := rfl
@[simp] theorem State.sent_onQueue (s : State) (n : Nat) (f : Queue → Queue) : (s.onQueue n f).sent = s.sent := rfl
@[simp] theorem State.trapMsgs_onQueue (s : State) (n : Nat) (f : Queue → Queue) : (s.onQueue n f).trapMsgs = s.trapMsgs := rfl
@[simp] theorem State.focus_onQueue (s : State) (n : Nat) (f : Queue → Queue) : (s.onQueue n f).focus = s.focus := rfl
@[simp] theorem State.curCtx_onQueue (s : State) (n : Nat) (f : Queue → Queue) : (s.onQueue n f).curCtx = s.curCtx := rfl
@[simp] theorem State.ir_onQueue (s : State) (n : Nat) (f : Queue → Queue) : (s.onQueue n f).ir = s.ir := rfl
@[simp] theorem State.ev_onQueue (s : State) (n : Nat) (f : Queue → Queue) : (s.onQueue n f).ev = s.ev := rfl
@[simp] theorem State.agenda_onQueue (s : State) (n : Nat) (f : Queue → Queue) : (s.onQueue n f).agenda = s.agenda := rfl
@[simp] theorem State.freeCtr_onQueue (s : State) (n : Nat) (f : Queue → Queue) : (s.onQueue n f).freeCtr = s.freeCtr := rfl

@[simp] theorem State.cores_onPart (s : State) (n : Nat) (f : Part → Part) : (s.onPart n f).cores = s.cores := rfl
@[simp] theorem State.clusters_onPart (s : State) (n : Nat) (f : Part → Part) : (s.onPart n f).clusters = s.clusters := rfl
@[simp] theorem State.dies_onPart (s : State) (n : Nat) (f : Part → Part) : (s.onPart n f).dies = s.dies := rfl
@[simp] theorem State.queues_onPart (s : State) (n : Nat) (f : Part → Part) : (s.onPart n f).queues = s.queues := rfl
@[simp] theorem State.mem_onPart (s : State) (n : Nat) (f : Part → Part) : (s.onPart n f).mem = s.mem := rfl
@[simp] theorem State.poison_onPart (s : State) (n : Nat) (f : Part → Part) : (s.onPart n f).poison = s.poison := rfl
@[simp] theorem State.vers_onPart (s : State) (n : Nat) (f : Part → Part) : (s.onPart n f).vers = s.vers := rfl
@[simp] theorem State.time_onPart (s : State) (n : Nat) (f : Part → Part) : (s.onPart n f).time = s.time := rfl
@[simp] theorem State.rate_onPart (s : State) (n : Nat) (f : Part → Part) : (s.onPart n f).rate = s.rate := rfl
@[simp] theorem State.dispatched_onPart (s : State) (n : Nat) (f : Part → Part) : (s.onPart n f).dispatched = s.dispatched := rfl
@[simp] theorem State.monitors_onPart (s : State) (n : Nat) (f : Part → Part) : (s.onPart n f).monitors = s.monitors := rfl
@[simp] theorem State.migrations_onPart (s : State) (n : Nat) (f : Part → Part) : (s.onPart n f).migrations = s.migrations := rfl
@[simp] theorem State.remoteDecs_onPart (s : State) (n : Nat) (f : Part → Part) : (s.onPart n f).remoteDecs = s.remoteDecs := rfl
@[simp] theorem State.dstate_onPart (s : State) (n : Nat) (f : Part → Part) : (s.onPart n f).dstate = s.dstate := rfl
@[simp] theorem State.warm_onPart (s : State) (n : Nat) (f : Part → Part) : (s.onPart n f).warm = s.warm := rfl
@[simp] theorem State.boot_onPart (s : State) (n : Nat) (f : Part → Part) : (s.onPart n f).boot = s.boot := rfl
@[simp] theorem State.measured_onPart (s : State) (n : Nat) (f : Part → Part) : (s.onPart n f).measured = s.measured := rfl
@[simp] theorem State.logLast_onPart (s : State) (n : Nat) (f : Part → Part) : (s.onPart n f).logLast = s.logLast := rfl
@[simp] theorem State.logInternal_onPart (s : State) (n : Nat) (f : Part → Part) : (s.onPart n f).logInternal = s.logInternal := rfl
@[simp] theorem State.logTail_onPart (s : State) (n : Nat) (f : Part → Part) : (s.onPart n f).logTail = s.logTail := rfl
@[simp] theorem State.errors_onPart (s : State) (n : Nat) (f : Part → Part) : (s.onPart n f).errors = s.errors := rfl
@[simp] theorem State.sent_onPart (s : State) (n : Nat) (f : Part → Part) : (s.onPart n f).sent = s.sent := rfl
@[simp] theorem State.trapMsgs_onPart (s : State) (n : Nat) (f : Part → Part) : (s.onPart n f).trapMsgs = s.trapMsgs := rfl
@[simp] theorem State.focus_onPart (s : State) (n : Nat) (f : Part → Part) : (s.onPart n f).focus = s.focus := rfl
@[simp] theorem State.curCtx_onPart (s : State) (n : Nat) (f : Part → Part) : (s.onPart n f).curCtx = s.curCtx := rfl
@[simp] theorem State.ir_onPart (s : State) (n : Nat) (f : Part → Part) : (s.onPart n f).ir = s.ir := rfl
@[simp] theorem State.ev_onPart (s : State) (n : Nat) (f : Part → Part) : (s.onPart n f).ev = s.ev := rfl
@[simp] theorem State.agenda_onPart (s : State) (n : Nat) (f : Part → Part) : (s.onPart n f).agenda = s.agenda := rfl
@[simp] theorem State.freeCtr_onPart (s : State) (n : Nat) (f : Part → Part) : (s.onPart n f).freeCtr = s.freeCtr := rfl

@[simp] theorem State.cores_post (s : State) (i : Instr) (e : Ev) : (s.post i e).cores = s.cores := rfl
@[simp] theorem State.clusters_post (s : State) (i : Instr) (e : Ev) : (s.post i e).clusters = s.clusters := rfl
@[simp] theorem State.dies_post (s : State) (i : Instr) (e : Ev) : (s.post i e).dies = s.dies := rfl
@[simp] theorem State.queues_post (s : State) (i : Instr) (e : Ev) : (s.post i e).queues = s.queues := rfl
@[simp] theorem State.parts_post (s : State) (i : Instr) (e : Ev) : (s.post i e).parts = s.parts := rfl
@[simp] theorem State.mem_post (s : State) (i : Instr) (e : Ev) : (s.post i e).mem = s.mem := rfl
@[simp] theorem State.poison_post (s : State) (i : Instr) (e : Ev) : (s.post i e).poison = s.poison := rfl
@[simp] theorem State.vers_post (s : State) (i : Instr) (e : Ev) : (s.post i e).vers = s.vers := rfl
@[simp] theorem State.time_post (s : State) (i : Instr) (e : Ev) : (s.post i e).time = s.time := rfl
@[simp] theorem State.rate_post (s : State) (i : Instr) (e : Ev) : (s.post i e).rate = s.rate := rfl
@[simp] theorem State.dispatched_post (s : State) (i : Instr) (e : Ev) : (s.post i e).dispatched = s.dispatched := rfl
@[simp] theorem State.monitors_post (s : State) (i : Instr) (e : Ev) : (s.post i e).monitors = s.monitors := rfl
@[simp] theorem State.migrations_post (s : State) (i : Instr) (e : Ev) : (s.post i e).migrations = s.migrations := rfl
@[simp] theorem State.remoteDecs_post (s : State) (i : Instr) (e : Ev) : (s.post i e).remoteDecs = s.remoteDecs := rfl
@[simp] theorem State.dstate_post (s : State) (i : Instr) (e : Ev) : (s.post i e).dstate = s.dstate := rfl
@[simp] theorem State.warm_post (s : State) (i : Instr) (e : Ev) : (s.post i e).warm = s.warm := rfl
@[simp] theorem State.boot_post (s : State) (i : Instr) (e : Ev) : (s.post i e).boot = s.boot := rfl
@[simp] theorem State.measured_post (s : State) (i : Instr) (e : Ev) : (s.post i e).measured = s.measured := rfl
@[simp] theorem State.logLast_post (s : State) (i : Instr) (e : Ev) : (s.post i e).logLast = s.logLast := rfl
@[simp] theorem State.logInternal_post (s : State) (i : Instr) (e : Ev) : (s.post i e).logInternal = s.logInternal := rfl
@[simp] theorem State.logTail_post (s : State) (i : Instr) (e : Ev) : (s.post i e).logTail = s.logTail := rfl
@[simp] theorem State.errors_post (s : State) (i : Instr) (e : Ev) : (s.post i e).errors = s.errors := rfl
@[simp] theorem State.sent_post (s : State) (i : Instr) (e : Ev) : (s.post i e).sent = s.sent := rfl
@[simp] theorem State.trapMsgs_post (s : State) (i : Instr) (e : Ev) : (s.post i e).trapMsgs = s.trapMsgs := rfl
@[simp] theorem State.focus_post (s : State) (i : Instr) (e : Ev) : (s.post i e).focus = s.focus := rfl
@[simp] theorem State.curCtx_post (s : State) (i : Instr) (e : Ev) : (s.post i e).curCtx = s.curCtx := rfl
@[simp] theorem State.ir_post (s : State) (i : Instr) (e : Ev) : (s.post i e).ir = s.ir := rfl
@[simp] theorem State.ev_post (s : State) (i : Instr) (e : Ev) : (s.post i e).ev = s.ev := rfl
@[simp] theorem State.freeCtr_post (s : State) (i : Instr) (e : Ev) : (s.post i e).freeCtr = s.freeCtr := rfl

@[simp] theorem State.cores_retryLater (s : State) (i : Instr) (e : Ev) : (s.retryLater i e).cores = s.cores := rfl
@[simp] theorem State.clusters_retryLater (s : State) (i : Instr) (e : Ev) : (s.retryLater i e).clusters = s.clusters := rfl
@[simp] theorem State.dies_retryLater (s : State) (i : Instr) (e : Ev) : (s.retryLater i e).dies = s.dies := rfl
@[simp] theorem State.queues_retryLater (s : State) (i : Instr) (e : Ev) : (s.retryLater i e).queues = s.queues := rfl
@[simp] theorem State.parts_retryLater (s : State) (i : Instr) (e : Ev) : (s.retryLater i e).parts = s.parts := rfl
@[simp] theorem State.mem_retryLater (s : State) (i : Instr) (e : Ev) : (s.retryLater i e).mem = s.mem := rfl
@[simp] theorem State.poison_retryLater (s : State) (i : Instr) (e : Ev) : (s.retryLater i e).poison = s.poison := rfl
@[simp] theorem State.vers_retryLater (s : State) (i : Instr) (e : Ev) : (s.retryLater i e).vers = s.vers := rfl
@[simp] theorem State.time_retryLater (s : State) (i : Instr) (e : Ev) : (s.retryLater i e).time = s.time := rfl
@[simp] theorem State.rate_retryLater (s : State) (i : Instr) (e : Ev) : (s.retryLater i e).rate = s.rate := rfl
@[simp] theorem State.dispatched_retryLater (s : State) (i : Instr) (e : Ev) : (s.retryLater i e).dispatched = s.dispatched := rfl
@[simp] theorem State.monitors_retryLater (s : State) (i : Instr) (e : Ev) : (s.retryLater i e).monitors = s.monitors := rfl
@[simp] theorem State.migrations_retryLater (s : State) (i : Instr) (e : Ev) : (s.retryLater i e).migrations = s.migrations := rfl
@[simp] theorem State.remoteDecs_retryLater (s : State) (i : Instr) (e : Ev) : (s.retryLater i e).remoteDecs = s.remoteDecs := rfl
@[simp] theorem State.dstate_retryLater (s : State) (i : Instr) (e : Ev) : (s.retryLater i e).dstate = s.dstate := rfl
@[simp] theorem State.warm_retryLater (s : State) (i : Instr) (e : Ev) : (s.retryLater i e).warm = s.warm := rfl
@[simp] theorem State.boot_retryLater (s : State) (i : Instr) (e : Ev) : (s.retryLater i e).boot = s.boot := rfl
@[simp] theorem State.measured_retryLater (s : State) (i : Instr) (e : Ev) : (s.retryLater i e).measured = s.measured := rfl
@[simp] theorem State.logLast_retryLater (s : State) (i : Instr) (e : Ev) : (s.retryLater i e).logLast = s.logLast := rfl
@[simp] theorem State.logInternal_retryLater (s : State) (i : Instr) (e : Ev) : (s.retryLater i e).logInternal = s.logInternal := rfl
@[simp] theorem State.logTail_retryLater (s : State) (i : Instr) (e : Ev) : (s.retryLater i e).logTail = s.logTail := rfl
@[simp] theorem State.errors_retryLater (s : State) (i : Instr) (e : Ev) : (s.retryLater i e).errors = s.errors := rfl
@[simp] theorem State.sent_retryLater (s : State) (i : Instr) (e : Ev) : (s.retryLater i e).sent = s.sent := rfl
@[simp] theorem State.trapMsgs_retryLater (s : State) (i : Instr) (e : Ev) : (s.retryLater i e).trapMsgs = s.trapMsgs := rfl
@[simp] theorem State.focus_retryLater (s : State) (i : Instr) (e : Ev) : (s.retryLater i e).focus = s.focus := rfl
@[simp] theorem State.curCtx_retryLater (s : State) (i : Instr) (e : Ev) : (s.retryLater i e).curCtx = s.curCtx := rfl
@[simp] theorem State.ir_retryLater (s : State) (i : Instr) (e : Ev) : (s.retryLater i e).ir = s.ir := rfl
@[simp] theorem State.ev_retryLater (s : State) (i : Instr) (e : Ev) : (s.retryLater i e).ev = s.ev := rfl
@[simp] theorem State.freeCtr_retryLater (s : State) (i : Instr) (e : Ev) : (s.retryLater i e).freeCtr = s.freeCtr := rfl

@[simp] theorem Core.released_setCtx (c : Core) (i : Nat) (x : Ctx) : (c.setCtx i x).released = c.released := by unfold Core.setCtx; split <;> rfl
@[simp] theorem Core.issuePtr_setCtx (c : Core) (i : Nat) (x : Ctx) : (c.setCtx i x).issuePtr = c.issuePtr := by unfold Core.setCtx; split <;> rfl
@[simp] theorem Core.halted_setCtx (c : Core) (i : Nat) (x : Ctx) : (c.setCtx i x).halted = c.halted := by unfold Core.setCtx; split <;> rfl
@[simp] theorem Core.gatedAt_setCtx (c : Core) (i : Nat) (x : Ctx) : (c.setCtx i x).gatedAt = c.gatedAt := by unfold Core.setCtx; split <;> rfl
@[simp] theorem Core.powerGated_setCtx (c : Core) (i : Nat) (x : Ctx) : (c.setCtx i x).powerGated = c.powerGated := by unfold Core.setCtx; split <;> rfl
@[simp] theorem Core.reported_setCtx (c : Core) (i : Nat) (x : Ctx) : (c.setCtx i x).reported = c.reported := by unfold Core.setCtx; split <;> rfl
@[simp] theorem Core.trapVec_setCtx (c : Core) (i : Nat) (x : Ctx) : (c.setCtx i x).trapVec = c.trapVec := by unfold Core.setCtx; split <;> rfl
@[simp] theorem Core.fmtBase_setCtx (c : Core) (i : Nat) (x : Ctx) : (c.setCtx i x).fmtBase = c.fmtBase := by unfold Core.setCtx; split <;> rfl
@[simp] theorem Core.domCl_setCtx (c : Core) (i : Nat) (x : Ctx) : (c.setCtx i x).domCl = c.domCl := by unfold Core.setCtx; split <;> rfl
@[simp] theorem Core.domDie_setCtx (c : Core) (i : Nat) (x : Ctx) : (c.setCtx i x).domDie = c.domDie := by unfold Core.setCtx; split <;> rfl
@[simp] theorem Core.domPkg_setCtx (c : Core) (i : Nat) (x : Ctx) : (c.setCtx i x).domPkg = c.domPkg := by unfold Core.setCtx; split <;> rfl
@[simp] theorem Core.domFab_setCtx (c : Core) (i : Nat) (x : Ctx) : (c.setCtx i x).domFab = c.domFab := by unfold Core.setCtx; split <;> rfl
@[simp] theorem Core.bcastGrp_setCtx (c : Core) (i : Nat) (x : Ctx) : (c.setCtx i x).bcastGrp = c.bcastGrp := by unfold Core.setCtx; split <;> rfl
@[simp] theorem Core.yieldDl_setCtx (c : Core) (i : Nat) (x : Ctx) : (c.setCtx i x).yieldDl = c.yieldDl := by unfold Core.setCtx; split <;> rfl
@[simp] theorem Core.jobDl_setCtx (c : Core) (i : Nat) (x : Ctx) : (c.setCtx i x).jobDl = c.jobDl := by unfold Core.setCtx; split <;> rfl
@[simp] theorem Core.cyc_setCtx (c : Core) (i : Nat) (x : Ctx) : (c.setCtx i x).cyc = c.cyc := by unfold Core.setCtx; split <;> rfl
@[simp] theorem Core.domain_setCtx (c : Core) (i : Nat) (x : Ctx) : (c.setCtx i x).domain = c.domain := by unfold Core.setCtx; split <;> rfl
@[simp] theorem Core.spad_setCtx (c : Core) (i : Nat) (x : Ctx) : (c.setCtx i x).spad = c.spad := by unfold Core.setCtx; split <;> rfl
@[simp] theorem Core.spadPoison_setCtx (c : Core) (i : Nat) (x : Ctx) : (c.setCtx i x).spadPoison = c.spadPoison := by unfold Core.setCtx; split <;> rfl
@[simp] theorem Core.l1_setCtx (c : Core) (i : Nat) (x : Ctx) : (c.setCtx i x).l1 = c.l1 := by unfold Core.setCtx; split <;> rfl
@[simp] theorem Core.dirtyLines_setCtx (c : Core) (i : Nat) (x : Ctx) : (c.setCtx i x).dirtyLines = c.dirtyLines := by unfold Core.setCtx; split <;> rfl
@[simp] theorem Core.partials_setCtx (c : Core) (i : Nat) (x : Ctx) : (c.setCtx i x).partials = c.partials := by unfold Core.setCtx; split <;> rfl
@[simp] theorem Core.hold_setCtx (c : Core) (i : Nat) (x : Ctx) : (c.setCtx i x).hold = c.hold := by unfold Core.setCtx; split <;> rfl
@[simp] theorem Core.plb_setCtx (c : Core) (i : Nat) (x : Ctx) : (c.setCtx i x).plb = c.plb := by unfold Core.setCtx; split <;> rfl
@[simp] theorem Core.homeCache_setCtx (c : Core) (i : Nat) (x : Ctx) : (c.setCtx i x).homeCache = c.homeCache := by unfold Core.setCtx; split <;> rfl
@[simp] theorem Core.fmtCache_setCtx (c : Core) (i : Nat) (x : Ctx) : (c.setCtx i x).fmtCache = c.fmtCache := by unfold Core.setCtx; split <;> rfl
@[simp] theorem Core.icache_setCtx (c : Core) (i : Nat) (x : Ctx) : (c.setCtx i x).icache = c.icache := by unfold Core.setCtx; split <;> rfl
@[simp] theorem Core.streams_setCtx (c : Core) (i : Nat) (x : Ctx) : (c.setCtx i x).streams = c.streams := by unfold Core.setCtx; split <;> rfl
@[simp] theorem Core.mx_setCtx (c : Core) (i : Nat) (x : Ctx) : (c.setCtx i x).mx = c.mx := by unfold Core.setCtx; split <;> rfl
@[simp] theorem Core.ops_setCtx (c : Core) (i : Nat) (x : Ctx) : (c.setCtx i x).ops = c.ops := by unfold Core.setCtx; split <;> rfl
@[simp] theorem Core.opNext_setCtx (c : Core) (i : Nat) (x : Ctx) : (c.setCtx i x).opNext = c.opNext := by unfold Core.setCtx; split <;> rfl
@[simp] theorem Core.opLerr_setCtx (c : Core) (i : Nat) (x : Ctx) : (c.setCtx i x).opLerr = c.opLerr := by unfold Core.setCtx; split <;> rfl
@[simp] theorem Core.opLv_setCtx (c : Core) (i : Nat) (x : Ctx) : (c.setCtx i x).opLv = c.opLv := by unfold Core.setCtx; split <;> rfl
@[simp] theorem Core.opLtag_setCtx (c : Core) (i : Nat) (x : Ctx) : (c.setCtx i x).opLtag = c.opLtag := by unfold Core.setCtx; split <;> rfl
@[simp] theorem Core.inbox_setCtx (c : Core) (i : Nat) (x : Ctx) : (c.setCtx i x).inbox = c.inbox := by unfold Core.setCtx; split <;> rfl
@[simp] theorem Core.deferred_setCtx (c : Core) (i : Nat) (x : Ctx) : (c.setCtx i x).deferred = c.deferred := by unfold Core.setCtx; split <;> rfl
@[simp] theorem Core.rings_setCtx (c : Core) (i : Nat) (x : Ctx) : (c.setCtx i x).rings = c.rings := by unfold Core.setCtx; split <;> rfl
@[simp] theorem Core.recvQueue_setCtx (c : Core) (i : Nat) (x : Ctx) : (c.setCtx i x).recvQueue = c.recvQueue := by unfold Core.setCtx; split <;> rfl
@[simp] theorem Core.unaccepted_setCtx (c : Core) (i : Nat) (x : Ctx) : (c.setCtx i x).unaccepted = c.unaccepted := by unfold Core.setCtx; split <;> rfl
@[simp] theorem Core.retry_setCtx (c : Core) (i : Nat) (x : Ctx) : (c.setCtx i x).retry = c.retry := by unfold Core.setCtx; split <;> rfl
@[simp] theorem Core.seqOut_setCtx (c : Core) (i : Nat) (x : Ctx) : (c.setCtx i x).seqOut = c.seqOut := by unfold Core.setCtx; split <;> rfl
@[simp] theorem Core.expected_setCtx (c : Core) (i : Nat) (x : Ctx) : (c.setCtx i x).expected = c.expected := by unfold Core.setCtx; split <;> rfl
@[simp] theorem Core.reorder_setCtx (c : Core) (i : Nat) (x : Ctx) : (c.setCtx i x).reorder = c.reorder := by unfold Core.setCtx; split <;> rfl
@[simp] theorem Core.task_setCtx (c : Core) (i : Nat) (x : Ctx) : (c.setCtx i x).task = c.task := by unfold Core.setCtx; split <;> rfl
@[simp] theorem Core.l2_setCtx (c : Core) (i : Nat) (x : Ctx) : (c.setCtx i x).l2 = c.l2 := by unfold Core.setCtx; split <;> rfl
@[simp] theorem Core.tcache_setCtx (c : Core) (i : Nat) (x : Ctx) : (c.setCtx i x).tcache = c.tcache := by unfold Core.setCtx; split <;> rfl
@[simp] theorem Core.pending_setCtx (c : Core) (i : Nat) (x : Ctx) : (c.setCtx i x).pending = c.pending := by unfold Core.setCtx; split <;> rfl
@[simp] theorem Core.parked_setCtx (c : Core) (i : Nat) (x : Ctx) : (c.setCtx i x).parked = c.parked := by unfold Core.setCtx; split <;> rfl
@[simp] theorem Core.router_setCtx (c : Core) (i : Nat) (x : Ctx) : (c.setCtx i x).router = c.router := by unfold Core.setCtx; split <;> rfl
@[simp] theorem Core.remoteWaits_setCtx (c : Core) (i : Nat) (x : Ctx) : (c.setCtx i x).remoteWaits = c.remoteWaits := by unfold Core.setCtx; split <;> rfl
@[simp] theorem Core.remoteData_setCtx (c : Core) (i : Nat) (x : Ctx) : (c.setCtx i x).remoteData = c.remoteData := by unfold Core.setCtx; split <;> rfl
@[simp] theorem Core.hostWrites_setCtx (c : Core) (i : Nat) (x : Ctx) : (c.setCtx i x).hostWrites = c.hostWrites := by unfold Core.setCtx; split <;> rfl
@[simp] theorem Core.retired_setCtx (c : Core) (i : Nat) (x : Ctx) : (c.setCtx i x).retired = c.retired := by unfold Core.setCtx; split <;> rfl
@[simp] theorem Core.acCount_setCtx (c : Core) (i : Nat) (x : Ctx) : (c.setCtx i x).acCount = c.acCount := by unfold Core.setCtx; split <;> rfl

@[simp] theorem Ctx.life_setG (x : Ctx) (r : Reg) (v : Word) : (x.setG r v).life = x.life := by unfold Ctx.setG; split <;> rfl
@[simp] theorem Ctx.placed_setG (x : Ctx) (r : Reg) (v : Word) : (x.setG r v).placed = x.placed := by unfold Ctx.setG; split <;> rfl
@[simp] theorem Ctx.wait_setG (x : Ctx) (r : Reg) (v : Word) : (x.setG r v).wait = x.wait := by unfold Ctx.setG; split <;> rfl
@[simp] theorem Ctx.pc_setG (x : Ctx) (r : Reg) (v : Word) : (x.setG r v).pc = x.pc := by unfold Ctx.setG; split <;> rfl
@[simp] theorem Ctx.ox_setG (x : Ctx) (r : Reg) (v : Word) : (x.setG r v).ox = x.ox := by unfold Ctx.setG; split <;> rfl
@[simp] theorem Ctx.v_setG (x : Ctx) (r : Reg) (v : Word) : (x.setG r v).v = x.v := by unfold Ctx.setG; split <;> rfl
@[simp] theorem Ctx.vl_setG (x : Ctx) (r : Reg) (v : Word) : (x.setG r v).vl = x.vl := by unfold Ctx.setG; split <;> rfl
@[simp] theorem Ctx.vcfg_setG (x : Ctx) (r : Reg) (v : Word) : (x.setG r v).vcfg = x.vcfg := by unfold Ctx.setG; split <;> rfl
@[simp] theorem Ctx.frm_setG (x : Ctx) (r : Reg) (v : Word) : (x.setG r v).frm = x.frm := by unfold Ctx.setG; split <;> rfl
@[simp] theorem Ctx.fstat_setG (x : Ctx) (r : Reg) (v : Word) : (x.setG r v).fstat = x.fstat := by unfold Ctx.setG; split <;> rfl
@[simp] theorem Ctx.stat_setG (x : Ctx) (r : Reg) (v : Word) : (x.setG r v).stat = x.stat := by unfold Ctx.setG; split <;> rfl
@[simp] theorem Ctx.trapPc_setG (x : Ctx) (r : Reg) (v : Word) : (x.setG r v).trapPc = x.trapPc := by unfold Ctx.setG; split <;> rfl
@[simp] theorem Ctx.trapWord_setG (x : Ctx) (r : Reg) (v : Word) : (x.setG r v).trapWord = x.trapWord := by unfold Ctx.setG; split <;> rfl
@[simp] theorem Ctx.trapCause_setG (x : Ctx) (r : Reg) (v : Word) : (x.setG r v).trapCause = x.trapCause := by unfold Ctx.setG; split <;> rfl
@[simp] theorem Ctx.trapAddr_setG (x : Ctx) (r : Reg) (v : Word) : (x.setG r v).trapAddr = x.trapAddr := by unfold Ctx.setG; split <;> rfl
@[simp] theorem Ctx.trapScr0_setG (x : Ctx) (r : Reg) (v : Word) : (x.setG r v).trapScr0 = x.trapScr0 := by unfold Ctx.setG; split <;> rfl
@[simp] theorem Ctx.trapScr1_setG (x : Ctx) (r : Reg) (v : Word) : (x.setG r v).trapScr1 = x.trapScr1 := by unfold Ctx.setG; split <;> rfl
@[simp] theorem Ctx.bkptPc_setG (x : Ctx) (r : Reg) (v : Word) : (x.setG r v).bkptPc = x.bkptPc := by unfold Ctx.setG; split <;> rfl
@[simp] theorem Ctx.uliVec_setG (x : Ctx) (r : Reg) (v : Word) : (x.setG r v).uliVec = x.uliVec := by unfold Ctx.setG; split <;> rfl
@[simp] theorem Ctx.uliStat_setG (x : Ctx) (r : Reg) (v : Word) : (x.setG r v).uliStat = x.uliStat := by unfold Ctx.setG; split <;> rfl
@[simp] theorem Ctx.shadow_setG (x : Ctx) (r : Reg) (v : Word) : (x.setG r v).shadow = x.shadow := by unfold Ctx.setG; split <;> rfl
@[simp] theorem Ctx.fwd_setG (x : Ctx) (r : Reg) (v : Word) : (x.setG r v).fwd = x.fwd := by unfold Ctx.setG; split <;> rfl
@[simp] theorem Ctx.heldReply_setG (x : Ctx) (r : Reg) (v : Word) : (x.setG r v).heldReply = x.heldReply := by unfold Ctx.setG; split <;> rfl
@[simp] theorem Ctx.got_setG (x : Ctx) (r : Reg) (v : Word) : (x.setG r v).got = x.got := by unfold Ctx.setG; split <;> rfl
@[simp] theorem Ctx.unplaced_setG (x : Ctx) (r : Reg) (v : Word) : (x.setG r v).unplaced = x.unplaced := by unfold Ctx.setG; split <;> rfl
@[simp] theorem Ctx.hand_setG (x : Ctx) (r : Reg) (v : Word) : (x.setG r v).hand = x.hand := by unfold Ctx.setG; split <;> rfl
@[simp] theorem Ctx.lost_setG (x : Ctx) (r : Reg) (v : Word) : (x.setG r v).lost = x.lost := by unfold Ctx.setG; split <;> rfl

@[simp] theorem Ctx.life_setOx (x : Ctx) (r : OxReg) (v : Word) : (x.setOx r v).life = x.life := rfl
@[simp] theorem Ctx.placed_setOx (x : Ctx) (r : OxReg) (v : Word) : (x.setOx r v).placed = x.placed := rfl
@[simp] theorem Ctx.wait_setOx (x : Ctx) (r : OxReg) (v : Word) : (x.setOx r v).wait = x.wait := rfl
@[simp] theorem Ctx.pc_setOx (x : Ctx) (r : OxReg) (v : Word) : (x.setOx r v).pc = x.pc := rfl
@[simp] theorem Ctx.g_setOx (x : Ctx) (r : OxReg) (v : Word) : (x.setOx r v).g = x.g := rfl
@[simp] theorem Ctx.v_setOx (x : Ctx) (r : OxReg) (v : Word) : (x.setOx r v).v = x.v := rfl
@[simp] theorem Ctx.vl_setOx (x : Ctx) (r : OxReg) (v : Word) : (x.setOx r v).vl = x.vl := rfl
@[simp] theorem Ctx.vcfg_setOx (x : Ctx) (r : OxReg) (v : Word) : (x.setOx r v).vcfg = x.vcfg := rfl
@[simp] theorem Ctx.frm_setOx (x : Ctx) (r : OxReg) (v : Word) : (x.setOx r v).frm = x.frm := rfl
@[simp] theorem Ctx.fstat_setOx (x : Ctx) (r : OxReg) (v : Word) : (x.setOx r v).fstat = x.fstat := rfl
@[simp] theorem Ctx.stat_setOx (x : Ctx) (r : OxReg) (v : Word) : (x.setOx r v).stat = x.stat := rfl
@[simp] theorem Ctx.trapPc_setOx (x : Ctx) (r : OxReg) (v : Word) : (x.setOx r v).trapPc = x.trapPc := rfl
@[simp] theorem Ctx.trapWord_setOx (x : Ctx) (r : OxReg) (v : Word) : (x.setOx r v).trapWord = x.trapWord := rfl
@[simp] theorem Ctx.trapCause_setOx (x : Ctx) (r : OxReg) (v : Word) : (x.setOx r v).trapCause = x.trapCause := rfl
@[simp] theorem Ctx.trapAddr_setOx (x : Ctx) (r : OxReg) (v : Word) : (x.setOx r v).trapAddr = x.trapAddr := rfl
@[simp] theorem Ctx.trapScr0_setOx (x : Ctx) (r : OxReg) (v : Word) : (x.setOx r v).trapScr0 = x.trapScr0 := rfl
@[simp] theorem Ctx.trapScr1_setOx (x : Ctx) (r : OxReg) (v : Word) : (x.setOx r v).trapScr1 = x.trapScr1 := rfl
@[simp] theorem Ctx.bkptPc_setOx (x : Ctx) (r : OxReg) (v : Word) : (x.setOx r v).bkptPc = x.bkptPc := rfl
@[simp] theorem Ctx.uliVec_setOx (x : Ctx) (r : OxReg) (v : Word) : (x.setOx r v).uliVec = x.uliVec := rfl
@[simp] theorem Ctx.uliStat_setOx (x : Ctx) (r : OxReg) (v : Word) : (x.setOx r v).uliStat = x.uliStat := rfl
@[simp] theorem Ctx.shadow_setOx (x : Ctx) (r : OxReg) (v : Word) : (x.setOx r v).shadow = x.shadow := rfl
@[simp] theorem Ctx.fwd_setOx (x : Ctx) (r : OxReg) (v : Word) : (x.setOx r v).fwd = x.fwd := rfl
@[simp] theorem Ctx.heldReply_setOx (x : Ctx) (r : OxReg) (v : Word) : (x.setOx r v).heldReply = x.heldReply := rfl
@[simp] theorem Ctx.got_setOx (x : Ctx) (r : OxReg) (v : Word) : (x.setOx r v).got = x.got := rfl
@[simp] theorem Ctx.unplaced_setOx (x : Ctx) (r : OxReg) (v : Word) : (x.setOx r v).unplaced = x.unplaced := rfl
@[simp] theorem Ctx.hand_setOx (x : Ctx) (r : OxReg) (v : Word) : (x.setOx r v).hand = x.hand := rfl
@[simp] theorem Ctx.lost_setOx (x : Ctx) (r : OxReg) (v : Word) : (x.setOx r v).lost = x.lost := rfl

@[simp] theorem Ctx.life_setV (x : Ctx) (r : Nat) (v : VReg) : (x.setV r v).life = x.life := by unfold Ctx.setV; split <;> rfl
@[simp] theorem Ctx.placed_setV (x : Ctx) (r : Nat) (v : VReg) : (x.setV r v).placed = x.placed := by unfold Ctx.setV; split <;> rfl
@[simp] theorem Ctx.wait_setV (x : Ctx) (r : Nat) (v : VReg) : (x.setV r v).wait = x.wait := by unfold Ctx.setV; split <;> rfl
@[simp] theorem Ctx.pc_setV (x : Ctx) (r : Nat) (v : VReg) : (x.setV r v).pc = x.pc := by unfold Ctx.setV; split <;> rfl
@[simp] theorem Ctx.g_setV (x : Ctx) (r : Nat) (v : VReg) : (x.setV r v).g = x.g := by unfold Ctx.setV; split <;> rfl
@[simp] theorem Ctx.ox_setV (x : Ctx) (r : Nat) (v : VReg) : (x.setV r v).ox = x.ox := by unfold Ctx.setV; split <;> rfl
@[simp] theorem Ctx.vl_setV (x : Ctx) (r : Nat) (v : VReg) : (x.setV r v).vl = x.vl := by unfold Ctx.setV; split <;> rfl
@[simp] theorem Ctx.vcfg_setV (x : Ctx) (r : Nat) (v : VReg) : (x.setV r v).vcfg = x.vcfg := by unfold Ctx.setV; split <;> rfl
@[simp] theorem Ctx.frm_setV (x : Ctx) (r : Nat) (v : VReg) : (x.setV r v).frm = x.frm := by unfold Ctx.setV; split <;> rfl
@[simp] theorem Ctx.fstat_setV (x : Ctx) (r : Nat) (v : VReg) : (x.setV r v).fstat = x.fstat := by unfold Ctx.setV; split <;> rfl
@[simp] theorem Ctx.stat_setV (x : Ctx) (r : Nat) (v : VReg) : (x.setV r v).stat = x.stat := by unfold Ctx.setV; split <;> rfl
@[simp] theorem Ctx.trapPc_setV (x : Ctx) (r : Nat) (v : VReg) : (x.setV r v).trapPc = x.trapPc := by unfold Ctx.setV; split <;> rfl
@[simp] theorem Ctx.trapWord_setV (x : Ctx) (r : Nat) (v : VReg) : (x.setV r v).trapWord = x.trapWord := by unfold Ctx.setV; split <;> rfl
@[simp] theorem Ctx.trapCause_setV (x : Ctx) (r : Nat) (v : VReg) : (x.setV r v).trapCause = x.trapCause := by unfold Ctx.setV; split <;> rfl
@[simp] theorem Ctx.trapAddr_setV (x : Ctx) (r : Nat) (v : VReg) : (x.setV r v).trapAddr = x.trapAddr := by unfold Ctx.setV; split <;> rfl
@[simp] theorem Ctx.trapScr0_setV (x : Ctx) (r : Nat) (v : VReg) : (x.setV r v).trapScr0 = x.trapScr0 := by unfold Ctx.setV; split <;> rfl
@[simp] theorem Ctx.trapScr1_setV (x : Ctx) (r : Nat) (v : VReg) : (x.setV r v).trapScr1 = x.trapScr1 := by unfold Ctx.setV; split <;> rfl
@[simp] theorem Ctx.bkptPc_setV (x : Ctx) (r : Nat) (v : VReg) : (x.setV r v).bkptPc = x.bkptPc := by unfold Ctx.setV; split <;> rfl
@[simp] theorem Ctx.uliVec_setV (x : Ctx) (r : Nat) (v : VReg) : (x.setV r v).uliVec = x.uliVec := by unfold Ctx.setV; split <;> rfl
@[simp] theorem Ctx.uliStat_setV (x : Ctx) (r : Nat) (v : VReg) : (x.setV r v).uliStat = x.uliStat := by unfold Ctx.setV; split <;> rfl
@[simp] theorem Ctx.shadow_setV (x : Ctx) (r : Nat) (v : VReg) : (x.setV r v).shadow = x.shadow := by unfold Ctx.setV; split <;> rfl
@[simp] theorem Ctx.fwd_setV (x : Ctx) (r : Nat) (v : VReg) : (x.setV r v).fwd = x.fwd := by unfold Ctx.setV; split <;> rfl
@[simp] theorem Ctx.heldReply_setV (x : Ctx) (r : Nat) (v : VReg) : (x.setV r v).heldReply = x.heldReply := by unfold Ctx.setV; split <;> rfl
@[simp] theorem Ctx.got_setV (x : Ctx) (r : Nat) (v : VReg) : (x.setV r v).got = x.got := by unfold Ctx.setV; split <;> rfl
@[simp] theorem Ctx.unplaced_setV (x : Ctx) (r : Nat) (v : VReg) : (x.setV r v).unplaced = x.unplaced := by unfold Ctx.setV; split <;> rfl
@[simp] theorem Ctx.hand_setV (x : Ctx) (r : Nat) (v : VReg) : (x.setV r v).hand = x.hand := by unfold Ctx.setV; split <;> rfl
@[simp] theorem Ctx.lost_setV (x : Ctx) (r : Nat) (v : VReg) : (x.setV r v).lost = x.lost := by unfold Ctx.setV; split <;> rfl

@[simp] theorem Ctx.life_setStat (x : Ctx) (lo n v : Nat) : (x.setStat lo n v).life = x.life := rfl
@[simp] theorem Ctx.placed_setStat (x : Ctx) (lo n v : Nat) : (x.setStat lo n v).placed = x.placed := rfl
@[simp] theorem Ctx.wait_setStat (x : Ctx) (lo n v : Nat) : (x.setStat lo n v).wait = x.wait := rfl
@[simp] theorem Ctx.pc_setStat (x : Ctx) (lo n v : Nat) : (x.setStat lo n v).pc = x.pc := rfl
@[simp] theorem Ctx.g_setStat (x : Ctx) (lo n v : Nat) : (x.setStat lo n v).g = x.g := rfl
@[simp] theorem Ctx.ox_setStat (x : Ctx) (lo n v : Nat) : (x.setStat lo n v).ox = x.ox := rfl
@[simp] theorem Ctx.v_setStat (x : Ctx) (lo n v : Nat) : (x.setStat lo n v).v = x.v := rfl
@[simp] theorem Ctx.vl_setStat (x : Ctx) (lo n v : Nat) : (x.setStat lo n v).vl = x.vl := rfl
@[simp] theorem Ctx.vcfg_setStat (x : Ctx) (lo n v : Nat) : (x.setStat lo n v).vcfg = x.vcfg := rfl
@[simp] theorem Ctx.frm_setStat (x : Ctx) (lo n v : Nat) : (x.setStat lo n v).frm = x.frm := rfl
@[simp] theorem Ctx.fstat_setStat (x : Ctx) (lo n v : Nat) : (x.setStat lo n v).fstat = x.fstat := rfl
@[simp] theorem Ctx.trapPc_setStat (x : Ctx) (lo n v : Nat) : (x.setStat lo n v).trapPc = x.trapPc := rfl
@[simp] theorem Ctx.trapWord_setStat (x : Ctx) (lo n v : Nat) : (x.setStat lo n v).trapWord = x.trapWord := rfl
@[simp] theorem Ctx.trapCause_setStat (x : Ctx) (lo n v : Nat) : (x.setStat lo n v).trapCause = x.trapCause := rfl
@[simp] theorem Ctx.trapAddr_setStat (x : Ctx) (lo n v : Nat) : (x.setStat lo n v).trapAddr = x.trapAddr := rfl
@[simp] theorem Ctx.trapScr0_setStat (x : Ctx) (lo n v : Nat) : (x.setStat lo n v).trapScr0 = x.trapScr0 := rfl
@[simp] theorem Ctx.trapScr1_setStat (x : Ctx) (lo n v : Nat) : (x.setStat lo n v).trapScr1 = x.trapScr1 := rfl
@[simp] theorem Ctx.bkptPc_setStat (x : Ctx) (lo n v : Nat) : (x.setStat lo n v).bkptPc = x.bkptPc := rfl
@[simp] theorem Ctx.uliVec_setStat (x : Ctx) (lo n v : Nat) : (x.setStat lo n v).uliVec = x.uliVec := rfl
@[simp] theorem Ctx.uliStat_setStat (x : Ctx) (lo n v : Nat) : (x.setStat lo n v).uliStat = x.uliStat := rfl
@[simp] theorem Ctx.shadow_setStat (x : Ctx) (lo n v : Nat) : (x.setStat lo n v).shadow = x.shadow := rfl
@[simp] theorem Ctx.fwd_setStat (x : Ctx) (lo n v : Nat) : (x.setStat lo n v).fwd = x.fwd := rfl
@[simp] theorem Ctx.heldReply_setStat (x : Ctx) (lo n v : Nat) : (x.setStat lo n v).heldReply = x.heldReply := rfl
@[simp] theorem Ctx.got_setStat (x : Ctx) (lo n v : Nat) : (x.setStat lo n v).got = x.got := rfl
@[simp] theorem Ctx.unplaced_setStat (x : Ctx) (lo n v : Nat) : (x.setStat lo n v).unplaced = x.unplaced := rfl
@[simp] theorem Ctx.hand_setStat (x : Ctx) (lo n v : Nat) : (x.setStat lo n v).hand = x.hand := rfl
@[simp] theorem Ctx.lost_setStat (x : Ctx) (lo n v : Nat) : (x.setStat lo n v).lost = x.lost := rfl

@[simp] theorem Ctx.life_orFlags (x : Ctx) (f : Sys2Proof.Machine.Flags) : (x.orFlags f).life = x.life := rfl
@[simp] theorem Ctx.placed_orFlags (x : Ctx) (f : Sys2Proof.Machine.Flags) : (x.orFlags f).placed = x.placed := rfl
@[simp] theorem Ctx.wait_orFlags (x : Ctx) (f : Sys2Proof.Machine.Flags) : (x.orFlags f).wait = x.wait := rfl
@[simp] theorem Ctx.pc_orFlags (x : Ctx) (f : Sys2Proof.Machine.Flags) : (x.orFlags f).pc = x.pc := rfl
@[simp] theorem Ctx.g_orFlags (x : Ctx) (f : Sys2Proof.Machine.Flags) : (x.orFlags f).g = x.g := rfl
@[simp] theorem Ctx.ox_orFlags (x : Ctx) (f : Sys2Proof.Machine.Flags) : (x.orFlags f).ox = x.ox := rfl
@[simp] theorem Ctx.v_orFlags (x : Ctx) (f : Sys2Proof.Machine.Flags) : (x.orFlags f).v = x.v := rfl
@[simp] theorem Ctx.vl_orFlags (x : Ctx) (f : Sys2Proof.Machine.Flags) : (x.orFlags f).vl = x.vl := rfl
@[simp] theorem Ctx.vcfg_orFlags (x : Ctx) (f : Sys2Proof.Machine.Flags) : (x.orFlags f).vcfg = x.vcfg := rfl
@[simp] theorem Ctx.frm_orFlags (x : Ctx) (f : Sys2Proof.Machine.Flags) : (x.orFlags f).frm = x.frm := rfl
@[simp] theorem Ctx.stat_orFlags (x : Ctx) (f : Sys2Proof.Machine.Flags) : (x.orFlags f).stat = x.stat := rfl
@[simp] theorem Ctx.trapPc_orFlags (x : Ctx) (f : Sys2Proof.Machine.Flags) : (x.orFlags f).trapPc = x.trapPc := rfl
@[simp] theorem Ctx.trapWord_orFlags (x : Ctx) (f : Sys2Proof.Machine.Flags) : (x.orFlags f).trapWord = x.trapWord := rfl
@[simp] theorem Ctx.trapCause_orFlags (x : Ctx) (f : Sys2Proof.Machine.Flags) : (x.orFlags f).trapCause = x.trapCause := rfl
@[simp] theorem Ctx.trapAddr_orFlags (x : Ctx) (f : Sys2Proof.Machine.Flags) : (x.orFlags f).trapAddr = x.trapAddr := rfl
@[simp] theorem Ctx.trapScr0_orFlags (x : Ctx) (f : Sys2Proof.Machine.Flags) : (x.orFlags f).trapScr0 = x.trapScr0 := rfl
@[simp] theorem Ctx.trapScr1_orFlags (x : Ctx) (f : Sys2Proof.Machine.Flags) : (x.orFlags f).trapScr1 = x.trapScr1 := rfl
@[simp] theorem Ctx.bkptPc_orFlags (x : Ctx) (f : Sys2Proof.Machine.Flags) : (x.orFlags f).bkptPc = x.bkptPc := rfl
@[simp] theorem Ctx.uliVec_orFlags (x : Ctx) (f : Sys2Proof.Machine.Flags) : (x.orFlags f).uliVec = x.uliVec := rfl
@[simp] theorem Ctx.uliStat_orFlags (x : Ctx) (f : Sys2Proof.Machine.Flags) : (x.orFlags f).uliStat = x.uliStat := rfl
@[simp] theorem Ctx.shadow_orFlags (x : Ctx) (f : Sys2Proof.Machine.Flags) : (x.orFlags f).shadow = x.shadow := rfl
@[simp] theorem Ctx.fwd_orFlags (x : Ctx) (f : Sys2Proof.Machine.Flags) : (x.orFlags f).fwd = x.fwd := rfl
@[simp] theorem Ctx.heldReply_orFlags (x : Ctx) (f : Sys2Proof.Machine.Flags) : (x.orFlags f).heldReply = x.heldReply := rfl
@[simp] theorem Ctx.got_orFlags (x : Ctx) (f : Sys2Proof.Machine.Flags) : (x.orFlags f).got = x.got := rfl
@[simp] theorem Ctx.unplaced_orFlags (x : Ctx) (f : Sys2Proof.Machine.Flags) : (x.orFlags f).unplaced = x.unplaced := rfl
@[simp] theorem Ctx.hand_orFlags (x : Ctx) (f : Sys2Proof.Machine.Flags) : (x.orFlags f).hand = x.hand := rfl
@[simp] theorem Ctx.lost_orFlags (x : Ctx) (f : Sys2Proof.Machine.Flags) : (x.orFlags f).lost = x.lost := rfl

@[simp] theorem Ctx.life_unskip (x : Ctx) : (x.unskip).life = x.life := by unfold Ctx.unskip; split <;> rfl
@[simp] theorem Ctx.placed_unskip (x : Ctx) : (x.unskip).placed = x.placed := by unfold Ctx.unskip; split <;> rfl
@[simp] theorem Ctx.wait_unskip (x : Ctx) : (x.unskip).wait = x.wait := by unfold Ctx.unskip; split <;> rfl
@[simp] theorem Ctx.pc_unskip (x : Ctx) : (x.unskip).pc = x.pc := by unfold Ctx.unskip; split <;> rfl
@[simp] theorem Ctx.g_unskip (x : Ctx) : (x.unskip).g = x.g := by unfold Ctx.unskip; split <;> rfl
@[simp] theorem Ctx.ox_unskip (x : Ctx) : (x.unskip).ox = x.ox := by unfold Ctx.unskip; split <;> rfl
@[simp] theorem Ctx.v_unskip (x : Ctx) : (x.unskip).v = x.v := by unfold Ctx.unskip; split <;> rfl
@[simp] theorem Ctx.vl_unskip (x : Ctx) : (x.unskip).vl = x.vl := by unfold Ctx.unskip; split <;> rfl
@[simp] theorem Ctx.vcfg_unskip (x : Ctx) : (x.unskip).vcfg = x.vcfg := by unfold Ctx.unskip; split <;> rfl
@[simp] theorem Ctx.frm_unskip (x : Ctx) : (x.unskip).frm = x.frm := by unfold Ctx.unskip; split <;> rfl
@[simp] theorem Ctx.fstat_unskip (x : Ctx) : (x.unskip).fstat = x.fstat := by unfold Ctx.unskip; split <;> rfl
@[simp] theorem Ctx.trapPc_unskip (x : Ctx) : (x.unskip).trapPc = x.trapPc := by unfold Ctx.unskip; split <;> rfl
@[simp] theorem Ctx.trapWord_unskip (x : Ctx) : (x.unskip).trapWord = x.trapWord := by unfold Ctx.unskip; split <;> rfl
@[simp] theorem Ctx.trapCause_unskip (x : Ctx) : (x.unskip).trapCause = x.trapCause := by unfold Ctx.unskip; split <;> rfl
@[simp] theorem Ctx.trapAddr_unskip (x : Ctx) : (x.unskip).trapAddr = x.trapAddr := by unfold Ctx.unskip; split <;> rfl
@[simp] theorem Ctx.trapScr0_unskip (x : Ctx) : (x.unskip).trapScr0 = x.trapScr0 := by unfold Ctx.unskip; split <;> rfl
@[simp] theorem Ctx.trapScr1_unskip (x : Ctx) : (x.unskip).trapScr1 = x.trapScr1 := by unfold Ctx.unskip; split <;> rfl
@[simp] theorem Ctx.bkptPc_unskip (x : Ctx) : (x.unskip).bkptPc = x.bkptPc := by unfold Ctx.unskip; split <;> rfl
@[simp] theorem Ctx.uliVec_unskip (x : Ctx) : (x.unskip).uliVec = x.uliVec := by unfold Ctx.unskip; split <;> rfl
@[simp] theorem Ctx.uliStat_unskip (x : Ctx) : (x.unskip).uliStat = x.uliStat := by unfold Ctx.unskip; split <;> rfl
@[simp] theorem Ctx.shadow_unskip (x : Ctx) : (x.unskip).shadow = x.shadow := by unfold Ctx.unskip; split <;> rfl
@[simp] theorem Ctx.fwd_unskip (x : Ctx) : (x.unskip).fwd = x.fwd := by unfold Ctx.unskip; split <;> rfl
@[simp] theorem Ctx.heldReply_unskip (x : Ctx) : (x.unskip).heldReply = x.heldReply := by unfold Ctx.unskip; split <;> rfl
@[simp] theorem Ctx.got_unskip (x : Ctx) : (x.unskip).got = x.got := by unfold Ctx.unskip; split <;> rfl
@[simp] theorem Ctx.unplaced_unskip (x : Ctx) : (x.unskip).unplaced = x.unplaced := by unfold Ctx.unskip; split <;> rfl
@[simp] theorem Ctx.hand_unskip (x : Ctx) : (x.unskip).hand = x.hand := by unfold Ctx.unskip; split <;> rfl
@[simp] theorem Ctx.lost_unskip (x : Ctx) : (x.unskip).lost = x.lost := by unfold Ctx.unskip; split <;> rfl

@[simp] theorem Ctx.life_goto (x : Ctx) (t : VAddr) : (x.goto t).life = x.life := by unfold Ctx.goto Ctx.unskip; split <;> rfl
@[simp] theorem Ctx.placed_goto (x : Ctx) (t : VAddr) : (x.goto t).placed = x.placed := by unfold Ctx.goto Ctx.unskip; split <;> rfl
@[simp] theorem Ctx.wait_goto (x : Ctx) (t : VAddr) : (x.goto t).wait = x.wait := by unfold Ctx.goto Ctx.unskip; split <;> rfl
@[simp] theorem Ctx.g_goto (x : Ctx) (t : VAddr) : (x.goto t).g = x.g := by unfold Ctx.goto Ctx.unskip; split <;> rfl
@[simp] theorem Ctx.ox_goto (x : Ctx) (t : VAddr) : (x.goto t).ox = x.ox := by unfold Ctx.goto Ctx.unskip; split <;> rfl
@[simp] theorem Ctx.v_goto (x : Ctx) (t : VAddr) : (x.goto t).v = x.v := by unfold Ctx.goto Ctx.unskip; split <;> rfl
@[simp] theorem Ctx.vl_goto (x : Ctx) (t : VAddr) : (x.goto t).vl = x.vl := by unfold Ctx.goto Ctx.unskip; split <;> rfl
@[simp] theorem Ctx.vcfg_goto (x : Ctx) (t : VAddr) : (x.goto t).vcfg = x.vcfg := by unfold Ctx.goto Ctx.unskip; split <;> rfl
@[simp] theorem Ctx.frm_goto (x : Ctx) (t : VAddr) : (x.goto t).frm = x.frm := by unfold Ctx.goto Ctx.unskip; split <;> rfl
@[simp] theorem Ctx.fstat_goto (x : Ctx) (t : VAddr) : (x.goto t).fstat = x.fstat := by unfold Ctx.goto Ctx.unskip; split <;> rfl
@[simp] theorem Ctx.trapPc_goto (x : Ctx) (t : VAddr) : (x.goto t).trapPc = x.trapPc := by unfold Ctx.goto Ctx.unskip; split <;> rfl
@[simp] theorem Ctx.trapWord_goto (x : Ctx) (t : VAddr) : (x.goto t).trapWord = x.trapWord := by unfold Ctx.goto Ctx.unskip; split <;> rfl
@[simp] theorem Ctx.trapCause_goto (x : Ctx) (t : VAddr) : (x.goto t).trapCause = x.trapCause := by unfold Ctx.goto Ctx.unskip; split <;> rfl
@[simp] theorem Ctx.trapAddr_goto (x : Ctx) (t : VAddr) : (x.goto t).trapAddr = x.trapAddr := by unfold Ctx.goto Ctx.unskip; split <;> rfl
@[simp] theorem Ctx.trapScr0_goto (x : Ctx) (t : VAddr) : (x.goto t).trapScr0 = x.trapScr0 := by unfold Ctx.goto Ctx.unskip; split <;> rfl
@[simp] theorem Ctx.trapScr1_goto (x : Ctx) (t : VAddr) : (x.goto t).trapScr1 = x.trapScr1 := by unfold Ctx.goto Ctx.unskip; split <;> rfl
@[simp] theorem Ctx.bkptPc_goto (x : Ctx) (t : VAddr) : (x.goto t).bkptPc = x.bkptPc := by unfold Ctx.goto Ctx.unskip; split <;> rfl
@[simp] theorem Ctx.uliVec_goto (x : Ctx) (t : VAddr) : (x.goto t).uliVec = x.uliVec := by unfold Ctx.goto Ctx.unskip; split <;> rfl
@[simp] theorem Ctx.uliStat_goto (x : Ctx) (t : VAddr) : (x.goto t).uliStat = x.uliStat := by unfold Ctx.goto Ctx.unskip; split <;> rfl
@[simp] theorem Ctx.shadow_goto (x : Ctx) (t : VAddr) : (x.goto t).shadow = x.shadow := by unfold Ctx.goto Ctx.unskip; split <;> rfl
@[simp] theorem Ctx.fwd_goto (x : Ctx) (t : VAddr) : (x.goto t).fwd = x.fwd := by unfold Ctx.goto Ctx.unskip; split <;> rfl
@[simp] theorem Ctx.heldReply_goto (x : Ctx) (t : VAddr) : (x.goto t).heldReply = x.heldReply := by unfold Ctx.goto Ctx.unskip; split <;> rfl
@[simp] theorem Ctx.unplaced_goto (x : Ctx) (t : VAddr) : (x.goto t).unplaced = x.unplaced := by unfold Ctx.goto Ctx.unskip; split <;> rfl
@[simp] theorem Ctx.hand_goto (x : Ctx) (t : VAddr) : (x.goto t).hand = x.hand := by unfold Ctx.goto Ctx.unskip; split <;> rfl

@[simp] theorem Ctx.pc_goto (x : Ctx) (t : VAddr) : (x.goto t).pc = t := rfl
@[simp] theorem Ctx.got_goto (x : Ctx) (t : VAddr) : (x.goto t).got = [] := rfl
@[simp] theorem Ctx.lost_goto (x : Ctx) (t : VAddr) : (x.goto t).lost = [] := rfl

end Sys2Proof.Machine
end

