-- ==== Sys2Proof/Laws/Units.lean ====
section
/-!
SUPPORT. The laws of cores, contexts and general registers: what a read finds after a unit is replaced, and what the
completion of an instruction leaves alone.
-/

namespace Sys2Proof.Machine

open Sys2Proof

theorem tabPut_tabPut {α : Type} (l : List (Nat × α)) (i : Nat) (x y : α) : tabPut (tabPut l i x) i y = tabPut l i y := by
  induction l with
  | nil => simp [tabPut]
  | cons p l ih =>
    obtain ⟨k, v⟩ := p
    by_cases h1 : i < k
    · simp [tabPut, h1]
    · by_cases h2 : i = k
      · simp [tabPut, h2]
      · simp [tabPut, h1, h2, ih]

@[simp] theorem State.coreAt_setCore_self (s : State) (n : Nat) (c : Core) : (s.setCore n c).coreAt n = c := by
  simp [State.coreAt, State.setCore]

theorem State.coreAt_setCore (s : State) (n m : Nat) (c : Core) : (s.setCore n c).coreAt m = if m = n then c else s.coreAt m := by
  simp only [State.coreAt, State.setCore, tabFind_tabPut]
  split_ifs <;> rfl

@[simp] theorem State.setCore_setCore (s : State) (n : Nat) (c d : Core) : (s.setCore n c).setCore n d = s.setCore n d := by
  simp [State.setCore, tabPut_tabPut]

theorem Core.ctx_setCtx (c : Core) {i : Nat} (x : Ctx) (j : Nat) (h : i < 11) : (c.setCtx i x).ctx j = if j = i then x else c.ctx j := by
  unfold Core.ctx Core.setCtx
  by_cases hj : j < 11
  · simp only [h, hj, dif_pos, Vector.getElem_set]
    by_cases h1 : i = j
    · rw [if_pos h1, if_pos h1.symm]
    · rw [if_neg h1, if_neg (Ne.symm h1)]
  · rw [dif_neg hj, dif_neg hj, if_neg (by omega)]

@[simp] theorem Core.setCtx_setCtx (c : Core) (i : Nat) (x y : Ctx) : (c.setCtx i x).setCtx i y = c.setCtx i y := by
  unfold Core.setCtx
  split_ifs <;> simp

theorem State.ctxAt_setCtxAt (s : State) (n i m j : Nat) (x : Ctx) (h : i < 11) :
    (s.setCtxAt n i x).ctxAt m j = if m = n ∧ j = i then x else s.ctxAt m j := by
  simp only [State.ctxAt, State.setCtxAt, State.coreAt_setCore]
  by_cases hm : m = n
  · subst hm; simp [Core.ctx_setCtx, h]
  · simp [hm]

@[simp] theorem State.setCtxAt_setCtxAt (s : State) (n i : Nat) (x y : Ctx) : (s.setCtxAt n i x).setCtxAt n i y = s.setCtxAt n i y := by
  simp [State.setCtxAt]


/-- The executing context after it is changed. -/
@[simp] theorem State.ctx_mapCtx (s : State) (f : Ctx → Ctx) : (s.mapCtx f).ctx = f s.ctx := by
  have h : (s.mapCtx f).ctx = (s.setCtxAt s.focus s.curCtx (f s.ctx)).ctxAt s.focus s.curCtx := rfl
  rw [h, State.ctxAt_setCtxAt _ _ _ _ _ _ s.curCtx.isLt]
  simp

theorem State.mapCtx_eq (s : State) (f : Ctx → Ctx) : s.mapCtx f = s.setCtxAt s.focus s.curCtx (f s.ctx) := rfl


@[simp] theorem State.mapCtx_mapCtx (s : State) (f g : Ctx → Ctx) : (s.mapCtx f).mapCtx g = s.mapCtx (fun x => g (f x)) := by
  rw [State.mapCtx_eq (s.mapCtx f) g, State.ctx_mapCtx]
  rw [State.mapCtx_eq s f, State.mapCtx_eq s]
  exact State.setCtxAt_setCtxAt _ _ _ _ _

/-- A change of the executing context leaves every other context alone. -/
theorem State.ctxAt_mapCtx_ne (s : State) (f : Ctx → Ctx) {n i : Nat} (h : ¬ (n = s.focus ∧ i = s.curCtx)) :
    (s.mapCtx f).ctxAt n i = s.ctxAt n i := by
  rw [State.mapCtx_eq, State.ctxAt_setCtxAt _ _ _ _ _ _ s.curCtx.isLt, if_neg h]

/-- What a core holds outside its contexts is kept by a change of a context. -/
theorem State.coreAt_mapCtx (s : State) (f : Ctx → Ctx) (n : Nat) :
    (s.mapCtx f).coreAt n = { s.coreAt n with ctxs := ((s.mapCtx f).coreAt n).ctxs } := by
  show (s.setCore s.focus ((s.coreAt s.focus).setCtx s.curCtx (f s.ctx))).coreAt n = _
  rw [State.coreAt_setCore]
  have h : (s.mapCtx f).coreAt n = if n = s.focus then (s.coreAt s.focus).setCtx s.curCtx (f s.ctx) else s.coreAt n :=
    State.coreAt_setCore _ _ _ _
  rw [h]
  split_ifs with hn
  · subst hn; unfold Core.setCtx; split_ifs <;> rfl
  · rfl

/-- R34: `g0` reads zero. -/
@[simp] theorem Ctx.getG_zero (x : Ctx) : x.getG 0 = 0 := rfl
@[simp] theorem State.g_zero (s : State) : s.g 0 = 0 := rfl

/-- A general register after one is written: `g0` discards the write (R34). -/
theorem Ctx.getG_setG (x : Ctx) (d r : Reg) (v : Word) : (x.setG d v).getG r = if r = d ∧ d ≠ 0 then v else x.getG r := by
  unfold Ctx.getG Ctx.setG
  by_cases hd : d = 0
  · simp [hd]
  · simp only [hd, if_false, ne_eq, not_false_eq_true, and_true]
    by_cases hr : r = 0
    · subst hr; rw [if_pos rfl, if_neg (Ne.symm hd), if_pos rfl]
    · simp only [hr, if_false]
      rw [Vector.getElem_set]
      by_cases h : r = d
      · subst h; simp
      · rw [if_neg, if_neg h]
        intro hn; exact h (BitVec.eq_of_toNat_eq hn.symm)

theorem State.g_setG (s : State) (d r : Reg) (v : Word) : (s.setG d v).g r = if r = d ∧ d ≠ 0 then v else s.g r := by
  simp [State.g, State.setG, Ctx.getG_setG]

@[simp] theorem Ctx.bkptHere_setG (x : Ctx) (d : Reg) (v : Word) : (x.setG d v).bkptHere = x.bkptHere := by
  unfold Ctx.setG; split_ifs <;> rfl

/-- A register write changes nothing of a context but the registers. -/
theorem Ctx.setG_eq (x : Ctx) (d : Reg) (v : Word) : x.setG d v = { x with g := (x.setG d v).g } := by
  unfold Ctx.setG; split_ifs <;> rfl

@[simp] theorem Ctx.getG_unskip (x : Ctx) (r : Reg) : x.unskip.getG r = x.getG r := by unfold Ctx.unskip; split_ifs <;> rfl
@[simp] theorem Ctx.getG_goto (x : Ctx) (a : VAddr) (r : Reg) : (x.goto a).getG r = x.getG r := Ctx.getG_unskip x r

/-- Completion changes nothing of a context but its PC and BSKIP (R49). -/
theorem Ctx.goto_eq (x : Ctx) (a : VAddr) : x.goto a = { x with pc := a, stat := (x.goto a).stat, got := [], lost := [] } := by
  unfold Ctx.goto Ctx.unskip; split_ifs <;> rfl

@[simp] theorem State.g_finish (s : State) (len : Nat) (r : Reg) : (s.finish len).g r = s.g r := by simp [State.g, State.finish]
@[simp] theorem State.g_jump (s : State) (a : VAddr) (r : Reg) : (s.jump a).g r = s.g r := by simp [State.g, State.jump]
@[simp] theorem State.pc_finish (s : State) (len : Nat) : (s.finish len).ctx.pc = s.ctx.pc + BitVec.ofNat 56 len := by
  simp [State.finish, Ctx.goto]
@[simp] theorem State.pc_jump (s : State) (a : VAddr) : (s.jump a).ctx.pc = a := by simp [State.jump, Ctx.goto]
@[simp] theorem State.pc_setG (s : State) (d : Reg) (v : Word) : (s.setG d v).ctx.pc = s.ctx.pc := by simp [State.setG]

/-- R34: a write to `g0` changes nothing of the context. -/
@[simp] theorem State.g_setG_zero (s : State) (v : Word) (r : Reg) : (s.setG 0 v).g r = s.g r := by simp [State.g_setG]

/-- A change of the executing context that keeps the words of its own fill changes no byte that the core reads. -/
theorem State.byteAt_mapCtx (s : State) (f : Ctx → Ctx) (a : Nat) (hf : (f s.ctx).got = s.ctx.got) : (s.mapCtx f).byteAt a = s.byteAt a := by
  have h1 : (s.mapCtx f).coreAt s.focus = { s.coreAt s.focus with ctxs := ((s.mapCtx f).coreAt s.focus).ctxs } :=
    State.coreAt_mapCtx s f s.focus
  have hc : (s.mapCtx f).core = { s.core with ctxs := ((s.mapCtx f).core).ctxs } := h1
  unfold State.byteAt
  split_ifs
  · have hh : (s.mapCtx f).core.heldByte a = s.core.heldByte a := by rw [hc]; rfl
    have hs : (s.mapCtx f).core.spad = s.core.spad := by rw [hc]
    rw [hh, hs]
  · unfold State.loadByte
    have h2 : ((s.mapCtx f).coreAt s.focus).heldByte a = (s.coreAt s.focus).heldByte a := by rw [h1]; rfl
    have h3 : ∀ w, (s.mapCtx f).l1Word s.focus w = s.l1Word s.focus w := by
      intro w
      unfold State.l1Word
      have : (s.mapCtx f).l1Owner s.focus (w / 16) = s.l1Owner s.focus (w / 16) := rfl
      rw [this, State.coreAt_mapCtx]
    have h4 : ∀ w, (s.mapCtx f).readWord s.focus w = s.readWord s.focus w := by
      intro w
      unfold State.readWord
      rw [h3, State.ctx_mapCtx, hf]
      rfl
    simp only [State.focus_mapCtx, h2, h4]

/-- Completion keeps every bit of `CTX.STAT` but BSKIP, which clears where the breakpoint names the instruction (R49). -/
theorem Ctx.getLsbD_stat_unskip (x : Ctx) (i : Nat) :
    x.unskip.stat.getLsbD i = if i = 11 then x.stat.getLsbD 11 && !x.bkptHere else x.stat.getLsbD i := by
  unfold Ctx.unskip
  cases h : x.bkptHere
  · by_cases hi : i = 11 <;> simp [hi]
  · simp only [if_true, Ctx.setStat, getLsbD_setField]
    by_cases hi : i = 11
    · simp [hi]
    · rw [if_neg (by omega), if_neg hi]

end Sys2Proof.Machine
end

