-- ==== Sys2Proof/Laws/Home.lean ====
section
/-!
SUPPORT. Stores at physical-window homes, where nobody watches: they change the slices' lines alone, and only the lines they touch.
-/

namespace Sys2Proof.Machine

open Sys2Proof

/-- Nobody watches a line: no walker, no host, no waiting context. -/
def State.quiet (s : State) : Bool := s.monitors.isEmpty && s.dies.all (fun d => d.2.watches.isEmpty && d.2.hostWatches.isEmpty)

/-- The host watches of dies that have none send nothing. -/
theorem hostWatches_nil (key : Nat) (l : L2Line) (ds : List (Nat × Die)) (h : ds.all (fun d => d.2.hostWatches.isEmpty) = true) (s : State) :
    ds.foldl (fun (a : State) nd =>
      nd.2.hostWatches.foldl (fun (b : State) w =>
        let v : Word := BitVec.ofNat 64 (fromBytesLE (l.bytes (w.va % 64) 8))
        if w.va / 64 = key && !l.poisoned (w.va % 64) 8 && v.toInt ≤ w.thr.toInt then
          (b.onDie nd.1 (fun x => { x with hostWatches := x.hostWatches.filter (fun y => y != w) })).sendFabric
            { kind := 0x84, endpoint := w.endpoint, target := 0, reqid := w.reqid, arg := BitVec.ofNat 64 w.va, payload := [v, w.cookie] }
        else b) a) s = s := by
  induction ds generalizing s with
  | nil => rfl
  | cons d ds ih =>
    simp only [List.all_cons, Bool.and_eq_true, List.isEmpty_iff] at h
    rw [List.foldl_cons, h.1, List.foldl_nil]
    exact ih (by simpa using h.2) s

/-- A store in a quiet state sets nothing off. -/
theorem State.fireWatch_quiet {s : State} (h : s.quiet = true) (slice key : Nat) : s.fireWatch slice key = s := by
  simp only [State.quiet, Bool.and_eq_true, List.isEmpty_iff] at h
  have hw : tabFind (s.dieAt (dieOfCore slice)).watches key = none := by
    unfold State.dieAt
    cases hd : tabFind s.dies (dieOfCore slice) with
    | none => rfl
    | some x =>
      have hx : ∀ l : List (Nat × Die), l.all (fun d => d.2.watches.isEmpty && d.2.hostWatches.isEmpty) = true →
          tabFind l (dieOfCore slice) = some x → x.watches = [] := by
        intro l
        induction l with
        | nil => intro _ hf; simp [tabFind] at hf
        | cons p l ih =>
          intro ha hf
          simp only [List.all_cons, Bool.and_eq_true, List.isEmpty_iff] at ha
          simp only [tabFind] at hf
          split_ifs at hf
          · cases hf; exact ha.1.1
          · exact ih (by simpa using ha.2) hf
      simp [hx _ h.2 hd, tabFind]
  unfold State.fireWatch State.fireWalkers
  simp only [hw]
  split
  · unfold State.checkMonitors State.checkHostWatches
    rw [h.1, List.foldl_nil]
    refine hostWatches_nil _ _ _ ?_ _
    exact List.all_eq_true.2 fun d hd => by have := List.all_eq_true.1 h.2 d hd; simp_all
  · rfl

/-- Bytes written outside a range leave what it reads as. -/
theorem memRead_memWrite_out (m : List Host.Cell) (a : Nat) (bs : List Byte) (n : Nat) {c : Nat} (h : c + n ≤ a ∨ a + bs.length ≤ c) :
    memRead (memWrite m a bs) n c = memRead m n c := by
  induction n generalizing c with
  | zero => rfl
  | succ n ih => simp only [memRead]; rw [memByte_memWrite_out m a bs (by omega), ih (by omega)]

/-- A member put in or taken out is no other. -/
theorem contains_setMember {l : List Nat} {x y : Nat} (b : Bool) (h : y ≠ x) : (setMember l x b).contains y = l.contains y := by
  rw [Bool.eq_iff_iff]
  cases b
  · simp [setMember, h]
  · simp only [setMember, if_true, List.contains_iff_mem]
    induction l with
    | nil => simp [insertNat, h]
    | cons z l ih => unfold insertNat; split_ifs <;> simp_all

/-- A line written to HBM4E leaves what the memory behind every other line reads as. -/
theorem State.hbmLine_writeHbm (s : State) {pa q : Nat} (l : L2Line) (h : pa / 64 ≠ q / 64) :
    ∃ m p v, s.writeHbm pa l = { s with mem := m, poison := p, vers := v } ∧ (s.writeHbm pa l).hbmLine q = s.hbmLine q := by
  have key : ∀ (ws : List Nat), (∀ w ∈ ws, w < 16) → ∀ (m : List Host.Cell) (p : List Nat), ∃ m' p',
      ws.foldl (fun (a : State) w =>
        if l.dirty.getLsbD w then
          { a with mem := memWrite a.mem (pa / 64 * 64 + 4 * w) (l.bytes (4 * w) 4)
                   poison := setMember a.poison (pa / 64 * 64 / 4 + w) (l.poison.getLsbD w) }
        else a) { s with mem := m, poison := p } = { s with mem := m', poison := p' } ∧
      memRead m' 64 (q / 64 * 64) = memRead m 64 (q / 64 * 64) ∧ ∀ w < 16, p'.contains (q / 64 * 64 / 4 + w) = p.contains (q / 64 * 64 / 4 + w) := by
    intro ws
    induction ws with
    | nil => exact fun _ m p => ⟨m, p, rfl, rfl, fun _ _ => rfl⟩
    | cons w ws ih =>
      intro hw m p
      have h16 := hw w (List.mem_cons_self ..)
      rw [List.foldl_cons]
      split
      · obtain ⟨m', p', h1, h2, h3⟩ := ih (fun x hx => hw x (List.mem_cons_of_mem _ hx)) (memWrite m (pa / 64 * 64 + 4 * w) (l.bytes (4 * w) 4))
          (setMember p (pa / 64 * 64 / 4 + w) (l.poison.getLsbD w))
        refine ⟨m', p', h1, h2.trans (memRead_memWrite_out _ _ _ _ ?_), fun x hx => (h3 x hx).trans (contains_setMember _ (by omega))⟩
        simp only [L2Line.bytes, length_bytesLE]
        omega
      · exact ih (fun x hx => hw x (List.mem_cons_of_mem _ hx)) m p
  obtain ⟨m', p', h1, h2, h3⟩ := key (List.range 16) (by simp) s.mem s.poison
  unfold State.writeHbm
  simp only
  rw [show s = { s with mem := s.mem, poison := s.poison } from rfl, h1]
  have hp : (List.range 16).map (fun w => if p'.contains (q / 64 * 64 / 4 + w) then 1 else 0) =
      (List.range 16).map (fun w => if s.poison.contains (q / 64 * 64 / 4 + w) then 1 else 0) :=
    List.map_congr_left fun w hw => by rw [h3 w (List.mem_range.1 hw)]
  split
  · refine ⟨_, _, _, rfl, ?_⟩
    simp only [State.hbmLine, h2, hp]
    rw [tabGet_tabSet_ne _ _ _ (by omega)]
  · refine ⟨_, _, _, rfl, ?_⟩
    simp only [State.hbmLine, h2, hp]

/-- Two states that read alike at the physical-window home of a PA, and differ in cores and in memory alone. -/
def State.alikeAt (q : Nat) (s t : State) : Prop :=
  ∃ cs m p v, t = { s with cores := cs, mem := m, poison := p, vers := v } ∧ (∀ n, t.sliceLine n (winKey q) = s.sliceLine n (winKey q)) ∧
    (∀ n, (t.coreAt n).retired = (s.coreAt n).retired) ∧ t.hbmLine q = s.hbmLine q

theorem State.alikeAt_refl (q : Nat) (s : State) : s.alikeAt q s := ⟨s.cores, s.mem, s.poison, s.vers, rfl, fun _ => rfl, fun _ => rfl, rfl⟩

/-- A change of one core that keeps the line and whether the slice is retired. -/
theorem State.alikeAt_onCore {q : Nat} {s t : State} (h : s.alikeAt q t) (n : Nat) (f : Core → Core)
    (h1 : ∀ c, tabFind (f c).l2 (winKey q) = tabFind c.l2 (winKey q)) (h2 : ∀ c, (f c).retired = c.retired) : s.alikeAt q (t.onCore n f) := by
  obtain ⟨cs, m, p, v, rfl, hl, hr, hm⟩ := h
  refine ⟨_, m, p, v, rfl, fun k => Eq.trans ?_ (hl k), fun k => Eq.trans ?_ (hr k), hm⟩
  · unfold State.sliceLine State.onCore
    rw [State.coreAt_setCore]
    split
    · next hn => subst hn; exact h1 _
    · rfl
  · unfold State.onCore
    rw [State.coreAt_setCore]
    split
    · next hn => subst hn; exact h2 _
    · rfl

theorem State.peekLine_alikeAt {q : Nat} {s t : State} (h : s.alikeAt q t) (b : Nat) : t.peekLine b q = s.peekLine b q := by
  obtain ⟨cs, m, p, v, ht, hl, hr, hm⟩ := h
  have e1 : t.physHome q = s.physHome q := by rw [ht]; rfl
  have e2 : ∀ c, t.reach b c false = s.reach b c false := by intro c; rw [ht]; rfl
  have e3 : ∀ n, t.rmapTo n = s.rmapTo n := by intro n; rw [ht]; rfl
  have e4 : t.badRemap (physSlice q) = s.badRemap (physSlice q) := by
    unfold State.badRemap State.isRetired
    simp only [e3, hr]
  unfold State.peekLine
  simp only [e1, e2, e4, hl, hm]

/-- A store in a quiet state at a line of another key. -/
theorem State.alikeAt_homeStore {s t : State} {q k : Nat} (h : s.alikeAt q t) (hq : s.quiet = true) (hk : k ≠ winKey q) (slice off : Nat)
    (l : L2Line) (bs : List Byte) : s.alikeAt q (t.homeStore slice k l off bs) := by
  have hq' : ((t.setSliceLine slice k (l.put off bs))).quiet = true := by obtain ⟨cs, m, p, v, rfl, -⟩ := h; exact hq
  rw [State.homeStore, State.fireWatch_quiet hq']
  exact State.alikeAt_onCore h _ _ (fun c => tabFind_tabPut_ne _ _ (Ne.symm hk)) (fun c => rfl)

/-- Bytes stored at physical-window homes leave what every other line reads as. -/
theorem State.alikeAt_poke {s : State} (hq : s.quiet = true) (a pa q : Nat) (bs : List Byte)
    (h : (linesOf pa bs.length).all (fun l => winKey (l.1 * 64 + l.2.1) != winKey q) = true) : s.alikeAt q (s.poke a pa bs) := by
  have key : ∀ (ls : List (Nat × Nat × Nat)) (t : State), s.alikeAt q t → ls.all (fun l => winKey (l.1 * 64 + l.2.1) != winKey q) = true →
      s.alikeAt q (ls.foldl (fun st l =>
        let at' := l.1 * 64 + l.2.1
        (st.pokeLine a at' ((bs.drop (at' - pa)).take l.2.2)).getD st) t) := by
    intro ls
    induction ls with
    | nil => intro t ht _; exact ht
    | cons l ls ih =>
      intro t ht ha
      simp only [List.all_cons, Bool.and_eq_true, bne_iff_ne] at ha
      refine ih _ ?_ ha.2
      simp only [State.pokeLine]
      cases t.peekLine a (l.1 * 64 + l.2.1) with
      | error c => exact ht
      | ok x => exact State.alikeAt_homeStore ht hq ha.1 _ _ _ _
  exact key (linesOf pa bs.length) s (State.alikeAt_refl q s) h

/-- A doubleword of a line that reads alike. -/
theorem State.peekWord_alikeAt {q : Nat} {s t : State} (h : s.alikeAt q t) (b : Nat) : t.peekWord b q = s.peekWord b q := by
  unfold State.peekWord State.peek
  rw [State.peekLine_alikeAt h b]

/-- A doubleword outside the lines stored to. -/
theorem State.peekWord_poke {s : State} (hq : s.quiet = true) (a pa q b : Nat) (bs : List Byte)
    (h : (linesOf pa bs.length).all (fun l => winKey (l.1 * 64 + l.2.1) != winKey q) = true) :
    (s.poke a pa bs).peekWord b q = s.peekWord b q :=
  State.peekWord_alikeAt (State.alikeAt_poke hq a pa q bs h) b

/-- A physical-window line evicted leaves what every other line reads as. -/
theorem State.alikeAt_evictHomeLine {q : Nat} {s t : State} (h : s.alikeAt q t) {key : Nat} (slice : Nat) (hw : isWinKey key = true)
    (hk : key ≠ winKey q) (hp : winPa key / 64 ≠ q / 64) : s.alikeAt q (t.evictHomeLine slice key) := by
  unfold State.evictHomeLine
  cases t.sliceLine slice key with
  | none => exact h
  | some l =>
    refine State.alikeAt_onCore ?_ _ _ (fun c => by rw [tabFind_tabDel, if_neg (Ne.symm hk)]) (fun c => rfl)
    simp only [State.spillLine, hw, if_true]
    split
    · exact h
    · obtain ⟨cs, m, p, v, rfl, hl, hr, hm⟩ := h
      obtain ⟨m', p', v', h1, h2⟩ := State.hbmLine_writeHbm { s with cores := cs, mem := m, poison := p, vers := v } l hp
      rw [h1] at h2 ⊢
      exact ⟨cs, m', p', v', rfl, hl, hr, h2.trans hm⟩

/-- Are the lines of `n` bytes at a PA other lines of the physical window than that of `q`? -/
def apart (pa n q : Nat) : Bool :=
  (linesOf pa n).all (fun l => isWinKey (winKey (l.1 * 64)) && winKey (l.1 * 64) != winKey q && winPa (winKey (l.1 * 64)) / 64 != q / 64)

/-- Lines written through to HBM4E leave what every other line reads as. -/
theorem State.alikeAt_writeThrough {q : Nat} {s t : State} (ht : s.alikeAt q t) (pa n : Nat) (h : apart pa n q = true) :
    s.alikeAt q (t.writeThrough pa n) := by
  unfold State.writeThrough
  have key : ∀ (ls : List (Nat × Nat × Nat)) (t : State), s.alikeAt q t →
      ls.all (fun l => isWinKey (winKey (l.1 * 64)) && winKey (l.1 * 64) != winKey q && winPa (winKey (l.1 * 64)) / 64 != q / 64) = true →
      s.alikeAt q (ls.foldl (fun a l => a.evictHomeLine (a.physHome (l.1 * 64)) (winKey (l.1 * 64))) t) := by
    intro ls
    induction ls with
    | nil => exact fun t ht _ => ht
    | cons l ls ih =>
      intro t ht ha
      simp only [List.all_cons, Bool.and_eq_true, bne_iff_ne] at ha
      exact ih _ (State.alikeAt_evictHomeLine ht _ ha.1.1.1 ha.1.1.2 ha.1.2) (by simpa using ha.2)
  exact key _ t ht h

/-- A doubleword outside the lines written through to HBM4E. -/
theorem State.peekWord_writeThrough (s : State) (pa n q b : Nat) (h : apart pa n q = true) :
    (s.writeThrough pa n).peekWord b q = s.peekWord b q :=
  State.peekWord_alikeAt (State.alikeAt_writeThrough (State.alikeAt_refl q s) pa n h) b

/-- The lines of a run of bytes lie between its first and its last byte. -/
theorem linesOf_between {ea n : Nat} {l : Nat × Nat × Nat} (h : l ∈ linesOf ea n) :
    ea / 64 ≤ l.1 ∧ ea ≤ l.1 * 64 + l.2.1 ∧ l.1 * 64 + l.2.1 < ea + n ∧ l.2.1 < 64 := by
  have key : ∀ (fuel a k : Nat), l ∈ splitLines fuel a k → a / 64 ≤ l.1 ∧ a ≤ l.1 * 64 + l.2.1 ∧ l.1 * 64 + l.2.1 < a + k ∧ l.2.1 < 64 := by
    intro fuel
    induction fuel with
    | zero => exact fun a k hl => by simp [splitLines] at hl
    | succ fuel ih =>
      intro a k hl
      unfold splitLines at hl
      split at hl
      · simp at hl
      · simp only [List.mem_cons] at hl
        obtain rfl | hl := hl
        · dsimp only; omega
        · have := ih _ _ hl; omega
  exact key _ _ _ h

/-- Two runs of bytes without a common line. -/
theorem apart_of_between {pa n q : Nat} (h : q / 64 < pa / 64 ∨ pa + n ≤ q / 64 * 64) (h1 : pa + n ≤ 2 ^ 48) :
    apart pa n q = true ∧ (linesOf pa n).all (fun l => winKey (l.1 * 64 + l.2.1) != winKey q) = true := by
  unfold apart
  simp only [List.all_eq_true, Bool.and_eq_true, bne_iff_ne, isWinKey, winKey, winPa, beq_iff_eq]
  constructor <;> intro l hl <;> have := linesOf_between hl
  · refine ⟨⟨?_, ?_⟩, ?_⟩ <;> omega
  · omega

/-- What an engine writes leaves every other line as it reads. -/
theorem State.alikeAt_engineWrite {s : State} (hq : s.quiet = true) (d : Nat) {pa q : Nat} (ws : List Word)
    (h : q / 64 < pa / 64 ∨ pa + 8 * ws.length ≤ q / 64 * 64) (h1 : pa + 8 * ws.length ≤ 2 ^ 48) :
    s.alikeAt q (s.engineWrite d pa ws) := by
  have hl : (ws.flatMap (fun w => bytesLE 8 w.toNat)).length = 8 * ws.length := by
    induction ws with
    | nil => rfl
    | cons w ws ih => simp [List.flatMap_cons, length_bytesLE] at ih ⊢; omega
  obtain ⟨ha, hp⟩ := apart_of_between h h1
  exact State.alikeAt_writeThrough (State.alikeAt_poke hq d pa q _ (by rw [hl]; exact hp)) _ _ ha

/-- A change of an SSD keeps two states alike. -/
theorem State.alikeAt_onSsd {q : Nat} {s t : State} (h : s.alikeAt q t) (d n : Nat) (f : Ssd → Ssd) : (s.onSsd d n f).alikeAt q (t.onSsd d n f) := by
  obtain ⟨cs, m, p, v, rfl, hl, hr, hm⟩ := h
  exact ⟨cs, m, p, v, rfl, hl, hr, hm⟩

/-- No uncorrectable error stands in memory or in a slice, and die 0 answers, with none of its slices remapped. -/
def State.sound0 (s : State) : Bool :=
  s.poison.isEmpty && s.cores.all (fun c => c.2.l2.all (fun l => l.2.poison == 0)) && s.reach 0 0 false == none &&
    (List.range 16).all (fun i => !(s.rmap 0 i).getLsbD 63)

/-- Then every doubleword of the die reads as good. -/
theorem State.peekWord_sound {s : State} (h : s.sound0 = true) {pa : Nat} (hp : pa < 2 ^ 37) : (s.peekWord 0 pa).2 = false := by
  simp only [State.sound0, Bool.and_eq_true, List.isEmpty_iff, List.all_eq_true, beq_iff_eq, Bool.not_eq_true', List.mem_range] at h
  obtain ⟨⟨⟨h1, h2⟩, h3⟩, h4⟩ := h
  have hs : physSlice pa < 1008 := by
    have : paDie pa = 0 := by unfold paDie bitsOf; omega
    unfold physSlice; rw [this]; simp only [ite_self, Nat.mul_zero, Nat.zero_add]; omega
  have hr : s.rmapTo (physSlice pa) = none := by
    unfold State.rmapTo
    rw [show dieOfCore (physSlice pa) = 0 by unfold dieOfCore; omega]
    simp only [Option.map_eq_none_iff, List.find?_eq_none, List.mem_range, Bool.and_eq_true, not_and, Bool.not_eq_true]
    intro i hi hb; rw [h4 i hi] at hb; exact absurd hb (by simp)
  have hl : ∀ l, s.sliceLine (physSlice pa) (winKey pa) = some l → l.poison = 0 := by
    intro l hl
    unfold State.sliceLine State.coreAt at hl
    cases hc : tabFind s.cores (physSlice pa) with
    | none => rw [hc] at hl; simp [Core.reset, tabFind] at hl
    | some c => rw [hc] at hl; exact h2 _ (tabFind_mem hc) _ (tabFind_mem hl)
  have hh : (s.hbmLine pa).poison = 0 := by simp [State.hbmLine, h1, joinChunks]
  unfold State.peekWord State.peek State.peekLine State.physHome State.remap State.badRemap
  simp only [hr, Option.getD_none, show dieOfCore (physSlice pa) = 0 by unfold dieOfCore; omega, h3, Bool.or_false]
  rw [if_neg (by simp [paHbm]; omega)]
  simp only
  have hz : ((s.sliceLine (physSlice pa) (winKey pa)).getD (s.hbmLine pa)).poison = 0 := by
    cases hq : s.sliceLine (physSlice pa) (winKey pa) with
    | none => exact hh
    | some l => exact hl l hq
  unfold L2Line.poisoned
  simp [hz]

/-- A frame of a die without errors has no poisoned word. -/
theorem State.frameBad_sound {s : State} (h : s.sound0 = true) {f : Nat} (hf : f + 65536 ≤ 2 ^ 37) : s.frameBad f = none := by
  simp only [State.frameBad, List.find?_eq_none, List.mem_map, List.mem_range]
  rintro _ ⟨i, hi, rfl⟩
  rw [State.peekWord_sound h (by omega)]
  exact Bool.false_ne_true

end Sys2Proof.Machine
end

