-- ==== Sys2Proof/Laws/PerInstr.lean ====
section
/-!
SUPPORT. Per-instruction laws of the encoding: framing (R52). The length bit of the first byte says how many bytes the encoding has, and an
event row has none.
-/

namespace Sys2Proof.Laws.Framing

open Sys2Proof

/-- Bit 0 of the first byte of an encoding is 1 when three bytes follow it, and 0 when one follows; an instruction without a word has no bytes. -/
def Statement (i : Instr) : Prop :=
  match encode i with
  | [] => i.hasWord = false
  | b :: rest => i.hasWord = true ∧ rest.length = if b.getLsbD 0 then 3 else 1

/-- Bit 0 of a 32-bit form is 1 (R52). -/
theorem length_bit_long (f : Fields) : (f.word.extractLsb' 0 8).getLsbD 0 = true := by
  have h : f.word.getLsbD 0 = true := by
    unfold Fields.word
    rw [BitVec.getLsbD_append]
    rfl
  simpa using h

/-- Bit 0 of a halfword is 0 (R52). -/
theorem length_bit_short (f : ShortFields) : (f.word.extractLsb' 0 8).getLsbD 0 = false := by
  have h : f.word.getLsbD 0 = false := by
    unfold ShortFields.word
    rw [BitVec.getLsbD_append]
    rfl
  simpa using h

theorem of_long {i : Instr} {f : Fields} (h : encodeFields i = .long f) : Statement i := by
  unfold Statement encode Instr.hasWord
  rw [h]
  exact ⟨rfl, by rw [length_bit_long f]; rfl⟩

theorem of_short {i : Instr} {f : ShortFields} (h : encodeFields i = .short f) : Statement i := by
  unfold Statement encode Instr.hasWord
  rw [h]
  exact ⟨rfl, by rw [length_bit_short f]; rfl⟩

theorem of_event {i : Instr} (h : encodeFields i = .noWord) : Statement i := by
  unfold Statement encode Instr.hasWord
  rw [h]

theorem add (d a b : Reg) : Statement (.add d a b) := of_long rfl
theorem sll (d a b : Reg) : Statement (.sll d a b) := of_long rfl
theorem slt (d a b : Reg) : Statement (.slt d a b) := of_long rfl
theorem sltn (d a b : Reg) : Statement (.sltn d a b) := of_long rfl
theorem xor (d a b : Reg) : Statement (.xor d a b) := of_long rfl
theorem srl (d a b : Reg) : Statement (.srl d a b) := of_long rfl
theorem or (d a b : Reg) : Statement (.or d a b) := of_long rfl
theorem and (d a b : Reg) : Statement (.and d a b) := of_long rfl
theorem sub (d a b : Reg) : Statement (.sub d a b) := of_long rfl
theorem min (d a b : Reg) : Statement (.min d a b) := of_long rfl
theorem max (d a b : Reg) : Statement (.max d a b) := of_long rfl
theorem minn (d a b : Reg) : Statement (.minn d a b) := of_long rfl
theorem maxn (d a b : Reg) : Statement (.maxn d a b) := of_long rfl
theorem sra (d a b : Reg) : Statement (.sra d a b) := of_long rfl
theorem mul (d a b : Reg) : Statement (.mul d a b) := of_long rfl
theorem mulh (d a b : Reg) : Statement (.mulh d a b) := of_long rfl
theorem mulhn (d a b : Reg) : Statement (.mulhn d a b) := of_long rfl
theorem div (d a b : Reg) : Statement (.div d a b) := of_long rfl
theorem divn (d a b : Reg) : Statement (.divn d a b) := of_long rfl
theorem rem (d a b : Reg) : Statement (.rem d a b) := of_long rfl
theorem remn (d a b : Reg) : Statement (.remn d a b) := of_long rfl
theorem clz (d a : Reg) : Statement (.clz d a) := of_long rfl
theorem ctz (d a : Reg) : Statement (.ctz d a) := of_long rfl
theorem cpop (d a : Reg) : Statement (.cpop d a) := of_long rfl
theorem addW (d a b : Reg) : Statement (.addW d a b) := of_long rfl
theorem sllW (d a b : Reg) : Statement (.sllW d a b) := of_long rfl
theorem sltW (d a b : Reg) : Statement (.sltW d a b) := of_long rfl
theorem sltnW (d a b : Reg) : Statement (.sltnW d a b) := of_long rfl
theorem xorW (d a b : Reg) : Statement (.xorW d a b) := of_long rfl
theorem srlW (d a b : Reg) : Statement (.srlW d a b) := of_long rfl
theorem orW (d a b : Reg) : Statement (.orW d a b) := of_long rfl
theorem andW (d a b : Reg) : Statement (.andW d a b) := of_long rfl
theorem subW (d a b : Reg) : Statement (.subW d a b) := of_long rfl
theorem minW (d a b : Reg) : Statement (.minW d a b) := of_long rfl
theorem maxW (d a b : Reg) : Statement (.maxW d a b) := of_long rfl
theorem minnW (d a b : Reg) : Statement (.minnW d a b) := of_long rfl
theorem maxnW (d a b : Reg) : Statement (.maxnW d a b) := of_long rfl
theorem sraW (d a b : Reg) : Statement (.sraW d a b) := of_long rfl
theorem mulW (d a b : Reg) : Statement (.mulW d a b) := of_long rfl
theorem mulhW (d a b : Reg) : Statement (.mulhW d a b) := of_long rfl
theorem mulhnW (d a b : Reg) : Statement (.mulhnW d a b) := of_long rfl
theorem divW (d a b : Reg) : Statement (.divW d a b) := of_long rfl
theorem divnW (d a b : Reg) : Statement (.divnW d a b) := of_long rfl
theorem remW (d a b : Reg) : Statement (.remW d a b) := of_long rfl
theorem remnW (d a b : Reg) : Statement (.remnW d a b) := of_long rfl
theorem clzW (d a : Reg) : Statement (.clzW d a) := of_long rfl
theorem ctzW (d a : Reg) : Statement (.ctzW d a) := of_long rfl
theorem cpopW (d a : Reg) : Statement (.cpopW d a) := of_long rfl
theorem addi (d a : Reg) (i : BitVec 12) : Statement (.addi d a i) := of_long rfl
theorem slli (d a : Reg) (c : BitVec 6) : Statement (.slli d a c) := of_long rfl
theorem slti (d a : Reg) (i : BitVec 12) : Statement (.slti d a i) := of_long rfl
theorem sltni (d a : Reg) (i : BitVec 12) : Statement (.sltni d a i) := of_long rfl
theorem xori (d a : Reg) (i : BitVec 12) : Statement (.xori d a i) := of_long rfl
theorem srli (d a : Reg) (c : BitVec 6) : Statement (.srli d a c) := of_long rfl
theorem srai (d a : Reg) (c : BitVec 6) : Statement (.srai d a c) := of_long rfl
theorem ori (d a : Reg) (i : BitVec 12) : Statement (.ori d a i) := of_long rfl
theorem andi (d a : Reg) (i : BitVec 12) : Statement (.andi d a i) := of_long rfl
theorem ldhi (d : Reg) (i : BitVec 20) : Statement (.ldhi d i) := of_long rfl
theorem pcadd (d : Reg) (i : BitVec 20) : Statement (.pcadd d i) := of_long rfl
theorem ldb (d a : Reg) (i : BitVec 12) : Statement (.ldb d a i) := of_long rfl
theorem ldh (d a : Reg) (i : BitVec 12) : Statement (.ldh d a i) := of_long rfl
theorem ldw (d a : Reg) (i : BitVec 12) : Statement (.ldw d a i) := of_long rfl
theorem ldd (d a : Reg) (i : BitVec 12) : Statement (.ldd d a i) := of_long rfl
theorem ldbn (d a : Reg) (i : BitVec 12) : Statement (.ldbn d a i) := of_long rfl
theorem ldhn (d a : Reg) (i : BitVec 12) : Statement (.ldhn d a i) := of_long rfl
theorem ldwn (d a : Reg) (i : BitVec 12) : Statement (.ldwn d a i) := of_long rfl
theorem stb (b a : Reg) (i : BitVec 12) : Statement (.stb b a i) := of_long rfl
theorem sth (b a : Reg) (i : BitVec 12) : Statement (.sth b a i) := of_long rfl
theorem stw (b a : Reg) (i : BitVec 12) : Statement (.stw b a i) := of_long rfl
theorem std (b a : Reg) (i : BitVec 12) : Statement (.std b a i) := of_long rfl
theorem beq (a b : Reg) (o : BitVec 12) : Statement (.beq a b o) := of_long rfl
theorem bne (a b : Reg) (o : BitVec 12) : Statement (.bne a b o) := of_long rfl
theorem blt (a b : Reg) (o : BitVec 12) : Statement (.blt a b o) := of_long rfl
theorem bge (a b : Reg) (o : BitVec 12) : Statement (.bge a b o) := of_long rfl
theorem bltn (a b : Reg) (o : BitVec 12) : Statement (.bltn a b o) := of_long rfl
theorem bgen (a b : Reg) (o : BitVec 12) : Statement (.bgen a b o) := of_long rfl
theorem jal (d : Reg) (o : BitVec 20) : Statement (.jal d o) := of_long rfl
theorem jalr (d a : Reg) (i : BitVec 12) : Statement (.jalr d a i) := of_long rfl
theorem padd (d a b : Reg) : Statement (.padd d a b) := of_long rfl
theorem paddi (d a : Reg) (i : BitVec 12) : Statement (.paddi d a i) := of_long rfl
theorem ptag (d a : Reg) (t : BitVec 8) : Statement (.ptag d a t) := of_long rfl
theorem pset (d a b : Reg) : Statement (.pset d a b) := of_long rfl
theorem pchk (d a b : Reg) : Statement (.pchk d a b) := of_long rfl
theorem oxset (d : OxReg) (a : Reg) : Statement (.oxset d a) := of_long rfl
theorem oxget (d : Reg) (a : OxReg) : Statement (.oxget d a) := of_long rfl
theorem oxld (d : OxReg) (a : Reg) (i : BitVec 12) : Statement (.oxld d a i) := of_long rfl
theorem srd (d : Reg) (n : BitVec 12) : Statement (.srd d n) := of_long rfl
theorem swr (a : Reg) (n : BitVec 12) : Statement (.swr a n) := of_long rfl
theorem trap (i : BitVec 12) : Statement (.trap i) := of_long rfl
theorem fenceAcq (s : Scope) : Statement (.fenceAcq s) := of_long rfl
theorem fenceRel (s : Scope) : Statement (.fenceRel s) := of_long rfl
theorem fenceAr (s : Scope) : Statement (.fenceAr s) := of_long rfl
theorem fenceFmt : Statement .fenceFmt := of_long rfl
theorem fenceI : Statement .fenceI := of_long rfl
theorem tinval (s : Scope) (a : Reg) : Statement (.tinval s a) := of_long rfl
theorem purge (s : Scope) (discard : Bool) (a : Reg) : Statement (.purge s discard a) := of_long rfl
theorem icinv (s : Scope) (a : Reg) : Statement (.icinv s a) := of_long rfl
theorem eret : Statement .eret := of_long rfl
theorem halt : Statement .halt := of_long rfl
theorem yield : Statement .yield := of_long rfl
theorem amoAdd (w : Bool) (o : Order) (s : Scope) (d a b : Reg) : Statement (.amoAdd w o s d a b) := of_long rfl
theorem amoMin (w : Bool) (o : Order) (s : Scope) (d a b : Reg) : Statement (.amoMin w o s d a b) := of_long rfl
theorem amoMax (w : Bool) (o : Order) (s : Scope) (d a b : Reg) : Statement (.amoMax w o s d a b) := of_long rfl
theorem amoMinn (w : Bool) (o : Order) (s : Scope) (d a b : Reg) : Statement (.amoMinn w o s d a b) := of_long rfl
theorem amoMaxn (w : Bool) (o : Order) (s : Scope) (d a b : Reg) : Statement (.amoMaxn w o s d a b) := of_long rfl
theorem amoAnd (w : Bool) (o : Order) (s : Scope) (d a b : Reg) : Statement (.amoAnd w o s d a b) := of_long rfl
theorem amoOr (w : Bool) (o : Order) (s : Scope) (d a b : Reg) : Statement (.amoOr w o s d a b) := of_long rfl
theorem amoXor (w : Bool) (o : Order) (s : Scope) (d a b : Reg) : Statement (.amoXor w o s d a b) := of_long rfl
theorem amoSwap (w : Bool) (o : Order) (s : Scope) (d a b : Reg) : Statement (.amoSwap w o s d a b) := of_long rfl
theorem amoCas (w : Bool) (o : Order) (s : Scope) (d a b : Reg) : Statement (.amoCas w o s d a b) := of_long rfl
theorem amoupdAdd (w : Bool) (a b : Reg) : Statement (.amoupdAdd w a b) := of_long rfl
theorem amoupdMin (w : Bool) (a b : Reg) : Statement (.amoupdMin w a b) := of_long rfl
theorem amoupdMax (w : Bool) (a b : Reg) : Statement (.amoupdMax w a b) := of_long rfl
theorem amoupdAnd (w : Bool) (a b : Reg) : Statement (.amoupdAnd w a b) := of_long rfl
theorem amoupdOr (w : Bool) (a b : Reg) : Statement (.amoupdOr w a b) := of_long rfl
theorem amoupdXor (w : Bool) (a b : Reg) : Statement (.amoupdXor w a b) := of_long rfl
theorem stv (s : Scope) (a b : Reg) : Statement (.stv s a b) := of_long rfl
theorem ldv (s : Scope) (d a b : Reg) : Statement (.ldv s d a b) := of_long rfl
theorem vers (d a : Reg) : Statement (.vers d a) := of_long rfl
theorem reclaim (a : Reg) : Statement (.reclaim a) := of_long rfl
theorem waitt (d a b : Reg) : Statement (.waitt d a b) := of_long rfl
theorem sigwait (d a b : Reg) : Statement (.sigwait d a b) := of_long rfl
theorem sigdec (a b : Reg) : Statement (.sigdec a b) := of_long rfl
theorem hstart (d a b : Reg) : Statement (.hstart d a b) := of_long rfl
theorem hexit (a : Reg) : Statement (.hexit a) := of_long rfl
theorem hjoin (d : Reg) (n : BitVec 12) : Statement (.hjoin d n) := of_long rfl
theorem tnext (d : Reg) : Statement (.tnext d) := of_long rfl
theorem tdone (a : Reg) : Statement (.tdone a) := of_long rfl
theorem schrd (d : Reg) (n : BitVec 12) : Statement (.schrd d n) := of_long rfl
theorem schstage (a : Reg) (n : BitVec 12) : Statement (.schstage a n) := of_long rfl
theorem schcommit (d : Reg) : Statement (.schcommit d) := of_long rfl
theorem send (a : Reg) (v : VRegNo) : Statement (.send a v) := of_long rfl
theorem recv (d : Reg) (n : BitVec 3) (v : VRegNo) : Statement (.recv d n v) := of_long rfl
theorem ipop (d e : Reg) : Statement (.ipop d e) := of_long rfl
theorem ipeek (d e : Reg) : Statement (.ipeek d e) := of_long rfl
theorem uret : Statement .uret := of_long rfl
theorem sopen (s : Slot) (k : BitVec 5) : Statement (.sopen s k) := of_long rfl
theorem sread (s : Slot) (v : VRegNo) (g : Reg) : Statement (.sread s v g) := of_long rfl
theorem swrite (s : Slot) (v : VRegNo) (g : Reg) : Statement (.swrite s v g) := of_long rfl
theorem swait (s : Slot) (g : Reg) : Statement (.swait s g) := of_long rfl
theorem srecall (s : Slot) : Statement (.srecall s) := of_long rfl
theorem squery (s : Slot) (g : Reg) (n : BitVec 5) : Statement (.squery s g n) := of_long rfl
theorem sresume (s : Slot) : Statement (.sresume s) := of_long rfl
theorem sclose (s : Slot) : Statement (.sclose s) := of_long rfl
theorem ecopy (a b : Reg) : Statement (.ecopy a b) := of_long rfl
theorem egather (a b : Reg) : Statement (.egather a b) := of_long rfl
theorem escatter (a b : Reg) : Statement (.escatter a b) := of_long rfl
theorem ereduce (a b : Reg) : Statement (.ereduce a b) := of_long rfl
theorem econv (a b : Reg) : Statement (.econv a b) := of_long rfl
theorem estat (d : Reg) : Statement (.estat d) := of_long rfl
theorem mpush (v : VRegNo) : Statement (.mpush v) := of_long rfl
theorem mstat (d : Reg) : Statement (.mstat d) := of_long rfl
theorem rput (a : Reg) (n : BitVec 3) : Statement (.rput a n) := of_long rfl
theorem setvl (d a b : Reg) : Statement (.setvl d a b) := of_long rfl
theorem setvli (d a : Reg) (c : BitVec 6) : Statement (.setvli d a c) := of_long rfl
theorem vld (m : Bool) (d : VRegNo) (a : Reg) : Statement (.vld m d a) := of_long rfl
theorem vlds (m : Bool) (d : VRegNo) (a b : Reg) : Statement (.vlds m d a b) := of_long rfl
theorem vldx (m : Bool) (d : VRegNo) (a : Reg) (b : VRegNo) : Statement (.vldx m d a b) := of_long rfl
theorem vldff (m : Bool) (d : VRegNo) (a : Reg) : Statement (.vldff m d a) := of_long rfl
theorem vldb (m : Bool) (r : VRound) (d : VRegNo) (a : Reg) : Statement (.vldb m r d a) := of_long rfl
theorem vst (m : Bool) (d : VRegNo) (a : Reg) : Statement (.vst m d a) := of_long rfl
theorem vsts (m : Bool) (d : VRegNo) (a b : Reg) : Statement (.vsts m d a b) := of_long rfl
theorem vstx (m : Bool) (d : VRegNo) (a : Reg) (b : VRegNo) : Statement (.vstx m d a b) := of_long rfl
theorem vqst (s : QSel) (d : VRegNo) (a : Reg) : Statement (.vqst s d a) := of_long rfl
theorem vadd (m : Bool) (k : Kind) (d a : VRegNo) (b : BitVec 5) : Statement (.vadd m k d a b) := of_long rfl
theorem vsub (m : Bool) (k : Kind) (d a : VRegNo) (b : BitVec 5) : Statement (.vsub m k d a b) := of_long rfl
theorem vand (m : Bool) (k : Kind) (d a : VRegNo) (b : BitVec 5) : Statement (.vand m k d a b) := of_long rfl
theorem vor (m : Bool) (k : Kind) (d a : VRegNo) (b : BitVec 5) : Statement (.vor m k d a b) := of_long rfl
theorem vxor (m : Bool) (k : Kind) (d a : VRegNo) (b : BitVec 5) : Statement (.vxor m k d a b) := of_long rfl
theorem vsll (m : Bool) (k : Kind) (d a : VRegNo) (b : BitVec 5) : Statement (.vsll m k d a b) := of_long rfl
theorem vsrl (m : Bool) (k : Kind) (d a : VRegNo) (b : BitVec 5) : Statement (.vsrl m k d a b) := of_long rfl
theorem vsra (m : Bool) (k : Kind) (d a : VRegNo) (b : BitVec 5) : Statement (.vsra m k d a b) := of_long rfl
theorem vmin (m : Bool) (k : Kind) (d a : VRegNo) (b : BitVec 5) : Statement (.vmin m k d a b) := of_long rfl
theorem vmax (m : Bool) (k : Kind) (d a : VRegNo) (b : BitVec 5) : Statement (.vmax m k d a b) := of_long rfl
theorem vminn (m : Bool) (k : Kind) (d a : VRegNo) (b : BitVec 5) : Statement (.vminn m k d a b) := of_long rfl
theorem vmaxn (m : Bool) (k : Kind) (d a : VRegNo) (b : BitVec 5) : Statement (.vmaxn m k d a b) := of_long rfl
theorem vmul (m : Bool) (k : Kind) (d a : VRegNo) (b : BitVec 5) : Statement (.vmul m k d a b) := of_long rfl
theorem vmulh (m : Bool) (k : Kind) (d a : VRegNo) (b : BitVec 5) : Statement (.vmulh m k d a b) := of_long rfl
theorem vmulhn (m : Bool) (k : Kind) (d a : VRegNo) (b : BitVec 5) : Statement (.vmulhn m k d a b) := of_long rfl
theorem vmacc (m : Bool) (k : Kind) (d a : VRegNo) (b : BitVec 5) : Statement (.vmacc m k d a b) := of_long rfl
theorem vsadd (m : Bool) (k : Kind) (d a : VRegNo) (b : BitVec 5) : Statement (.vsadd m k d a b) := of_long rfl
theorem vsaddn (m : Bool) (k : Kind) (d a : VRegNo) (b : BitVec 5) : Statement (.vsaddn m k d a b) := of_long rfl
theorem vssub (m : Bool) (k : Kind) (d a : VRegNo) (b : BitVec 5) : Statement (.vssub m k d a b) := of_long rfl
theorem vssubn (m : Bool) (k : Kind) (d a : VRegNo) (b : BitVec 5) : Statement (.vssubn m k d a b) := of_long rfl
theorem vwadd (m : Bool) (k : Kind) (d a : VRegNo) (b : BitVec 5) : Statement (.vwadd m k d a b) := of_long rfl
theorem vwmul (m : Bool) (k : Kind) (d a : VRegNo) (b : BitVec 5) : Statement (.vwmul m k d a b) := of_long rfl
theorem vwmacc (m : Bool) (k : Kind) (d a : VRegNo) (b : BitVec 5) : Statement (.vwmacc m k d a b) := of_long rfl
theorem vnclip (m : Bool) (k : Kind) (d a : VRegNo) (b : BitVec 5) : Statement (.vnclip m k d a b) := of_long rfl
theorem vfadd (m : Bool) (k : Kind) (d a : VRegNo) (b : BitVec 5) : Statement (.vfadd m k d a b) := of_long rfl
theorem vfsub (m : Bool) (k : Kind) (d a : VRegNo) (b : BitVec 5) : Statement (.vfsub m k d a b) := of_long rfl
theorem vfmul (m : Bool) (k : Kind) (d a : VRegNo) (b : BitVec 5) : Statement (.vfmul m k d a b) := of_long rfl
theorem vfdiv (m : Bool) (k : Kind) (d a : VRegNo) (b : BitVec 5) : Statement (.vfdiv m k d a b) := of_long rfl
theorem vfmin (m : Bool) (k : Kind) (d a : VRegNo) (b : BitVec 5) : Statement (.vfmin m k d a b) := of_long rfl
theorem vfmax (m : Bool) (k : Kind) (d a : VRegNo) (b : BitVec 5) : Statement (.vfmax m k d a b) := of_long rfl
theorem vfmacc (m : Bool) (k : Kind) (d a : VRegNo) (b : BitVec 5) : Statement (.vfmacc m k d a b) := of_long rfl
theorem vfnmacc (m : Bool) (k : Kind) (d a : VRegNo) (b : BitVec 5) : Statement (.vfnmacc m k d a b) := of_long rfl
theorem vfsqrt (m : Bool) (d a : VRegNo) : Statement (.vfsqrt m d a) := of_long rfl
theorem vfsgnj (m : Bool) (k : Kind) (d a : VRegNo) (b : BitVec 5) : Statement (.vfsgnj m k d a b) := of_long rfl
theorem vfsgnjn (m : Bool) (k : Kind) (d a : VRegNo) (b : BitVec 5) : Statement (.vfsgnjn m k d a b) := of_long rfl
theorem vfclass (m : Bool) (d a : VRegNo) : Statement (.vfclass m d a) := of_long rfl
theorem vmseq (m : Bool) (k : Kind) (d a : VRegNo) (b : BitVec 5) : Statement (.vmseq m k d a b) := of_long rfl
theorem vmsne (m : Bool) (k : Kind) (d a : VRegNo) (b : BitVec 5) : Statement (.vmsne m k d a b) := of_long rfl
theorem vmslt (m : Bool) (k : Kind) (d a : VRegNo) (b : BitVec 5) : Statement (.vmslt m k d a b) := of_long rfl
theorem vmsle (m : Bool) (k : Kind) (d a : VRegNo) (b : BitVec 5) : Statement (.vmsle m k d a b) := of_long rfl
theorem vmsltn (m : Bool) (k : Kind) (d a : VRegNo) (b : BitVec 5) : Statement (.vmsltn m k d a b) := of_long rfl
theorem vmslen (m : Bool) (k : Kind) (d a : VRegNo) (b : BitVec 5) : Statement (.vmslen m k d a b) := of_long rfl
theorem vmfeq (m : Bool) (k : Kind) (d a : VRegNo) (b : BitVec 5) : Statement (.vmfeq m k d a b) := of_long rfl
theorem vmflt (m : Bool) (k : Kind) (d a : VRegNo) (b : BitVec 5) : Statement (.vmflt m k d a b) := of_long rfl
theorem vmfle (m : Bool) (k : Kind) (d a : VRegNo) (b : BitVec 5) : Statement (.vmfle m k d a b) := of_long rfl
theorem vmand (d a b : VRegNo) : Statement (.vmand d a b) := of_long rfl
theorem vmor (d a b : VRegNo) : Statement (.vmor d a b) := of_long rfl
theorem vmxor (d a b : VRegNo) : Statement (.vmxor d a b) := of_long rfl
theorem vmandn (d a b : VRegNo) : Statement (.vmandn d a b) := of_long rfl
theorem vmpop (m : Bool) (d : Reg) (a : VRegNo) : Statement (.vmpop m d a) := of_long rfl
theorem vmv (m : Bool) (k : Kind) (d a : VRegNo) (b : BitVec 5) : Statement (.vmv m k d a b) := of_long rfl
theorem vslideup (m : Bool) (k : Kind) (d a : VRegNo) (b : BitVec 5) : Statement (.vslideup m k d a b) := of_long rfl
theorem vslidedn (m : Bool) (k : Kind) (d a : VRegNo) (b : BitVec 5) : Statement (.vslidedn m k d a b) := of_long rfl
theorem vgather (m : Bool) (k : Kind) (d a : VRegNo) (b : BitVec 5) : Statement (.vgather m k d a b) := of_long rfl
theorem vcompress (d a b : VRegNo) : Statement (.vcompress d a b) := of_long rfl
theorem vtrn (m : Bool) (k : Kind) (d a : VRegNo) (b : BitVec 5) : Statement (.vtrn m k d a b) := of_long rfl
theorem vxtract (k : Kind) (d : Reg) (a : VRegNo) (b : BitVec 5) : Statement (.vxtract k d a b) := of_long rfl
theorem vinsert (k : Kind) (d : VRegNo) (a : Reg) (b : BitVec 5) : Statement (.vinsert k d a b) := of_long rfl
theorem vmerge (k : Kind) (d a : VRegNo) (b : BitVec 5) : Statement (.vmerge k d a b) := of_long rfl
theorem vredsum (m : Bool) (d a b : VRegNo) : Statement (.vredsum m d a b) := of_long rfl
theorem vredmin (m : Bool) (d a b : VRegNo) : Statement (.vredmin m d a b) := of_long rfl
theorem vredmax (m : Bool) (d a b : VRegNo) : Statement (.vredmax m d a b) := of_long rfl
theorem vredminn (m : Bool) (d a b : VRegNo) : Statement (.vredminn m d a b) := of_long rfl
theorem vredmaxn (m : Bool) (d a b : VRegNo) : Statement (.vredmaxn m d a b) := of_long rfl
theorem vredand (m : Bool) (d a b : VRegNo) : Statement (.vredand m d a b) := of_long rfl
theorem vredor (m : Bool) (d a b : VRegNo) : Statement (.vredor m d a b) := of_long rfl
theorem vredxor (m : Bool) (d a b : VRegNo) : Statement (.vredxor m d a b) := of_long rfl
theorem vfredsum (m : Bool) (d a b : VRegNo) : Statement (.vfredsum m d a b) := of_long rfl
theorem vwredsum (m : Bool) (d a b : VRegNo) : Statement (.vwredsum m d a b) := of_long rfl
theorem vcvtfi (m : Bool) (r : VRound) (d a : VRegNo) : Statement (.vcvtfi m r d a) := of_long rfl
theorem vcvtfn (m : Bool) (r : VRound) (d a : VRegNo) : Statement (.vcvtfn m r d a) := of_long rfl
theorem vcvtif (m : Bool) (r : VRound) (d a : VRegNo) : Statement (.vcvtif m r d a) := of_long rfl
theorem vcvtnf (m : Bool) (r : VRound) (d a : VRegNo) : Statement (.vcvtnf m r d a) := of_long rfl
theorem vcvtfw (m : Bool) (r : VRound) (d a : VRegNo) : Statement (.vcvtfw m r d a) := of_long rfl
theorem vcvtfs (m : Bool) (r : VRound) (d a : VRegNo) : Statement (.vcvtfs m r d a) := of_long rfl
theorem vbdec (m : Bool) (r : VRound) (d a : VRegNo) : Statement (.vbdec m r d a) := of_long rfl
theorem addiShort (d : Reg) (i : BitVec 5) : Statement (.addiShort d i) := of_short rfl
theorem addShort (d a : Reg) : Statement (.addShort d a) := of_short rfl
theorem subShort (d a : Reg) : Statement (.subShort d a) := of_short rfl
theorem andShort (d a : Reg) : Statement (.andShort d a) := of_short rfl
theorem orShort (d a : Reg) : Statement (.orShort d a) := of_short rfl
theorem xorShort (d a : Reg) : Statement (.xorShort d a) := of_short rfl
theorem sllShort (d a : Reg) : Statement (.sllShort d a) := of_short rfl
theorem srlShort (d a : Reg) : Statement (.srlShort d a) := of_short rfl
theorem sraShort (d a : Reg) : Statement (.sraShort d a) := of_short rfl
theorem sltShort (d a : Reg) : Statement (.sltShort d a) := of_short rfl
theorem sltnShort (d a : Reg) : Statement (.sltnShort d a) := of_short rfl
theorem minShort (d a : Reg) : Statement (.minShort d a) := of_short rfl
theorem maxShort (d a : Reg) : Statement (.maxShort d a) := of_short rfl
theorem minnShort (d a : Reg) : Statement (.minnShort d a) := of_short rfl
theorem maxnShort (d a : Reg) : Statement (.maxnShort d a) := of_short rfl
theorem mulShort (d a : Reg) : Statement (.mulShort d a) := of_short rfl
theorem addWShort (d a : Reg) : Statement (.addWShort d a) := of_short rfl
theorem subWShort (d a : Reg) : Statement (.subWShort d a) := of_short rfl
theorem slliShort (d : Reg) (c : BitVec 5) : Statement (.slliShort d c) := of_short rfl
theorem srliShort (d : Reg) (c : BitVec 5) : Statement (.srliShort d c) := of_short rfl
theorem sraiShort (d : Reg) (c : BitVec 5) : Statement (.sraiShort d c) := of_short rfl
theorem andiShort (d : Reg) (i : BitVec 5) : Statement (.andiShort d i) := of_short rfl
theorem oriShort (d : Reg) (i : BitVec 5) : Statement (.oriShort d i) := of_short rfl
theorem xoriShort (d : Reg) (i : BitVec 5) : Statement (.xoriShort d i) := of_short rfl
theorem sltiShort (d : Reg) (i : BitVec 5) : Statement (.sltiShort d i) := of_short rfl
theorem sltniShort (d : Reg) (i : BitVec 5) : Statement (.sltniShort d i) := of_short rfl
theorem paddiShort (d : Reg) (i : BitVec 5) : Statement (.paddiShort d i) := of_short rfl
theorem beqShort (d : Reg) (o : BitVec 5) : Statement (.beqShort d o) := of_short rfl
theorem bneShort (d : Reg) (o : BitVec 5) : Statement (.bneShort d o) := of_short rfl
theorem bltShort (d : Reg) (o : BitVec 5) : Statement (.bltShort d o) := of_short rfl
theorem bgeShort (d : Reg) (o : BitVec 5) : Statement (.bgeShort d o) := of_short rfl
theorem jalShort (o : BitVec 10) : Statement (.jalShort o) := of_short rfl
theorem uliEntry : Statement .uliEntry := of_event rfl
theorem trapMessageReplyResume : Statement .trapMessageReplyResume := of_event rfl
theorem trapMessageReplyPass : Statement .trapMessageReplyPass := of_event rfl
theorem mzero : Statement .mzero := of_event rfl
theorem mma : Statement .mma := of_event rfl
theorem mmab : Statement .mmab := of_event rfl
theorem mmaStep : Statement .mmaStep := of_event rfl
theorem mrload : Statement .mrload := of_event rfl
theorem mqst : Statement .mqst := of_event rfl
theorem mcvt : Statement .mcvt := of_event rfl
theorem mstw : Statement .mstw := of_event rfl
theorem mldw : Statement .mldw := of_event rfl
theorem mspec : Statement .mspec := of_event rfl
theorem mcommit : Statement .mcommit := of_event rfl
theorem mdiscard : Statement .mdiscard := of_event rfl
theorem mfence : Statement .mfence := of_event rfl
theorem msignal : Statement .msignal := of_event rfl
theorem matrixCommandRetire : Statement .matrixCommandRetire := of_event rfl
theorem engineUnit : Statement .engineUnit := of_event rfl
theorem engineCompletion : Statement .engineCompletion := of_event rfl
theorem streamContextArrive : Statement .streamContextArrive := of_event rfl
theorem streamElementPass : Statement .streamElementPass := of_event rfl
theorem progressMark : Statement .progressMark := of_event rfl
theorem streamRecallArrive : Statement .streamRecallArrive := of_event rfl
theorem streamContextReturn : Statement .streamContextReturn := of_event rfl
theorem streamSink : Statement .streamSink := of_event rfl
theorem homeMiss : Statement .homeMiss := of_event rfl
theorem homeQuery : Statement .homeQuery := of_event rfl
theorem memoryResponse : Statement .memoryResponse := of_event rfl
theorem plbRefill : Statement .plbRefill := of_event rfl
theorem writeBackArrival : Statement .writeBackArrival := of_event rfl
theorem wake : Statement .wake := of_event rfl
theorem watchRewalk : Statement .watchRewalk := of_event rfl
theorem faultMessage : Statement .faultMessage := of_event rfl
theorem freplyRetry : Statement .freplyRetry := of_event rfl
theorem freplyError : Statement .freplyError := of_event rfl
theorem storageWaitNotice : Statement .storageWaitNotice := of_event rfl
theorem messageArrival : Statement .messageArrival := of_event rfl
theorem messageRetry : Statement .messageRetry := of_event rfl
theorem barrierCfgWrite : Statement .barrierCfgWrite := of_event rfl
theorem arriveLoad : Statement .arriveLoad := of_event rfl
theorem arriveStore : Statement .arriveStore := of_event rfl
theorem waitLoad : Statement .waitLoad := of_event rfl
theorem barrierEventMessage : Statement .barrierEventMessage := of_event rfl
theorem barrierReleaseMessage : Statement .barrierReleaseMessage := of_event rfl
theorem lockLoad : Statement .lockLoad := of_event rfl
theorem tryLoad : Statement .tryLoad := of_event rfl
theorem lockStore : Statement .lockStore := of_event rfl
theorem evtStore : Statement .evtStore := of_event rfl
theorem evtLoad : Statement .evtLoad := of_event rfl
theorem estatStore : Statement .estatStore := of_event rfl
theorem waittTimeout : Statement .waittTimeout := of_event rfl
theorem powerGate : Statement .powerGate := of_event rfl
theorem residencyReport : Statement .residencyReport := of_event rfl
theorem jobDeadline : Statement .jobDeadline := of_event rfl
theorem recordHeadCheck : Statement .recordHeadCheck := of_event rfl
theorem headAgeing : Statement .headAgeing := of_event rfl
theorem launchDispatch : Statement .launchDispatch := of_event rfl
theorem partitionClaim : Statement .partitionClaim := of_event rfl
theorem dispenserTnext : Statement .dispenserTnext := of_event rfl
theorem dispenserCommit : Statement .dispenserCommit := of_event rfl
theorem dispenserTdone : Statement .dispenserTdone := of_event rfl
theorem dispenserSchrd : Statement .dispenserSchrd := of_event rfl
theorem taskEnd : Statement .taskEnd := of_event rfl
theorem switchDeadline : Statement .switchDeadline := of_event rfl
theorem linkFlitError : Statement .linkFlitError := of_event rfl
theorem linkRetrainEnd : Statement .linkRetrainEnd := of_event rfl
theorem linkstatRead : Statement .linkstatRead := of_event rfl
theorem thermalTrip : Statement .thermalTrip := of_event rfl
theorem pwrctlVf : Statement .pwrctlVf := of_event rfl
theorem pwrctlEn : Statement .pwrctlEn := of_event rfl
theorem pwrctlTripClear : Statement .pwrctlTripClear := of_event rfl
theorem vfClockHoldEnd : Statement .vfClockHoldEnd := of_event rfl
theorem wrQuiesce : Statement .wrQuiesce := of_event rfl
theorem wrWriteBack : Statement .wrWriteBack := of_event rfl
theorem wrReset : Statement .wrReset := of_event rfl
theorem wrRetrain : Statement .wrRetrain := of_event rfl
theorem wrDiscover : Statement .wrDiscover := of_event rfl
theorem wrAdmit : Statement .wrAdmit := of_event rfl
theorem wrStepDone : Statement .wrStepDone := of_event rfl
theorem elogbaseWrite : Statement .elogbaseWrite := of_event rfl
theorem nqstatRead : Statement .nqstatRead := of_event rfl
theorem nqstatWrite : Statement .nqstatWrite := of_event rfl
theorem mgmtRestartCore : Statement .mgmtRestartCore := of_event rfl
theorem mgmtWarmReset : Statement .mgmtWarmReset := of_event rfl
theorem mgmtPower : Statement .mgmtPower := of_event rfl
theorem mgmtGating : Statement .mgmtGating := of_event rfl
theorem mgmtRetireSlice : Statement .mgmtRetireSlice := of_event rfl
theorem mgmtRetrainLink : Statement .mgmtRetrainLink := of_event rfl
theorem mgmtSwitch : Statement .mgmtSwitch := of_event rfl
theorem mgmtResume : Statement .mgmtResume := of_event rfl
theorem mgmtHaltPartition : Statement .mgmtHaltPartition := of_event rfl
theorem mgmtReleaseHalt : Statement .mgmtReleaseHalt := of_event rfl
theorem mgmtAttest : Statement .mgmtAttest := of_event rfl
theorem mgmtDrainLog : Statement .mgmtDrainLog := of_event rfl
theorem coldBoot : Statement .coldBoot := of_event rfl
theorem puoriImage : Statement .puoriImage := of_event rfl
theorem ptpMessage : Statement .ptpMessage := of_event rfl
theorem ssdEnable : Statement .ssdEnable := of_event rfl
theorem ssdDisable : Statement .ssdDisable := of_event rfl
theorem nvmeCompletion : Statement .nvmeCompletion := of_event rfl
theorem sqeFaultMessage : Statement .sqeFaultMessage := of_event rfl
theorem ffsbaseWrite : Statement .ffsbaseWrite := of_event rfl
theorem ffsPush : Statement .ffsPush := of_event rfl
theorem ffsstatRead : Statement .ffsstatRead := of_event rfl
theorem ffsstatWrite : Statement .ffsstatWrite := of_event rfl
theorem srqbaseWrite : Statement .srqbaseWrite := of_event rfl
theorem srqTailWrite : Statement .srqTailWrite := of_event rfl
theorem srqFlush : Statement .srqFlush := of_event rfl
theorem srqWrite : Statement .srqWrite := of_event rfl
theorem srqRead : Statement .srqRead := of_event rfl
theorem ssdCommandTimeout : Statement .ssdCommandTimeout := of_event rfl
theorem pcieLinkDown : Statement .pcieLinkDown := of_event rfl
theorem fabricEnqueue : Statement .fabricEnqueue := of_event rfl
theorem fabricDecrement : Statement .fabricDecrement := of_event rfl
theorem fabricWatch : Statement .fabricWatch := of_event rfl
theorem fabricBarrierEvent : Statement .fabricBarrierEvent := of_event rfl
theorem fabricBarrierRelease : Statement .fabricBarrierRelease := of_event rfl
theorem fabricReleaseRequest : Statement .fabricReleaseRequest := of_event rfl
theorem releaseWriteDone : Statement .releaseWriteDone := of_event rfl
theorem fabricGrant : Statement .fabricGrant := of_event rfl
theorem migrationFault : Statement .migrationFault := of_event rfl
theorem migrationFillDone : Statement .migrationFillDone := of_event rfl
theorem migrationGrantTimeout : Statement .migrationGrantTimeout := of_event rfl
theorem fabricDecrementFailed : Statement .fabricDecrementFailed := of_event rfl
theorem remoteReadResponse : Statement .remoteReadResponse := of_event rfl
theorem rmaRead : Statement .rmaRead := of_event rfl
theorem rmaWrite : Statement .rmaWrite := of_event rfl
theorem uetAtomic : Statement .uetAtomic := of_event rfl
theorem connectionFail : Statement .connectionFail := of_event rfl
theorem ringConfigWrite : Statement .ringConfigWrite := of_event rfl
theorem msgRingConfigWrite : Statement .msgRingConfigWrite := of_event rfl
theorem registerWrite : Statement .registerWrite := of_event rfl
theorem resumeTemperature : Statement .resumeTemperature := of_event rfl
theorem portStateChange : Statement .portStateChange := of_event rfl
theorem rmaWriteAcknowledgement : Statement .rmaWriteAcknowledgement := of_event rfl
theorem cstsRdyChange : Statement .cstsRdyChange := of_event rfl
theorem capToExpiry : Statement .capToExpiry := of_event rfl

end Sys2Proof.Laws.Framing
end

