-- ==== Sys2Proof/Tests/Slice0.lean ====
section
/-!
SUPPORT. Tests: words of the encoding, single steps with results worked out from the manual, ill-formed terms, and for every
statement with hypotheses a concrete state and operands that meet them.
-/

set_option Elab.async false

namespace Sys2Proof.Tests

open Sys2Proof Sys2Proof.Machine

/-- A small state: core 0 runs its control context at user level with PC 0x1000. -/
def s0 : State :=
  (State.reset.setCore 0 { Core.reset with released := true }).mapCtx (fun x => { x with life := .live, pc := 0x1000 })

/-- The executing context at a privilege. -/
def atPriv (p : Nat) (s : State) : State := s.mapCtx (fun x => x.setStat 0 2 p)

/-- General registers set. -/
def regs (l : List (Nat × Nat)) (s : State) : State := l.foldl (fun s p => s.setG (BitVec.ofNat 5 p.1) (BitVec.ofNat 64 p.2)) s

/-- The small state with general registers. -/
def sr (l : List (Nat × Nat)) : State := regs l s0

/-- The executing context as helper `i`, which is live. -/
def asHelper (i : Fin 11) (s : State) : State :=
  { s with curCtx := i }.mapCtx (fun x => { x with life := .live, stat := BitVec.ofNat 64 (i.val * 4096), pc := 0x2000 })

/-! A small address space. -/

/-- Doublewords written to device memory. -/
def words (l : List (Nat × Nat)) (s : State) : State := l.foldl (fun s p => { s with mem := memWrite s.mem p.1 (bytesLE 8 p.2) }) s

/-- One segment of domain 0 with all rights over units 0 to 2^20, and page tables that map page 1 (VA 0x10000) to the frame at PA
0x10000, homed at slice 0 (R302, R303). -/
def mapped (s : State) : State :=
  ((words [(0x1000, 2 ^ 52 + 0x1100), (0x1100, 0xF), (0x1108, 2 ^ 36), (0x2000, 3 * 2 ^ 62), (0x2008, 0x3000), (0x3000, 3 * 2 ^ 62),
    (0x3008, 0x4000), (0x4000, 3 * 2 ^ 62), (0x4008, 0x5000), (0x5010, 2 ^ 63 + 1)] s).setDieReg 0 0 0x2000).setDieReg 0 8 (2 ^ 48 + 0x1000)

/-- The translated page of `mapped` is readable, and its home answers with a line. -/
theorem test_walk : (mapped s0).domainRights 0 0 1 = 15 ∧
    (match ((mapped s0).homeLine 0 0x10040 none).1 with
     | .line n _ _ => n == 0
     | _ => false) = true := by decide +kernel

/-! Witnesses: the scalar instructions. -/

theorem witness_branch_results : ((s0.g 0).toNat = (s0.g 0).toNat) ∧ ¬ ((s0.g 0).toNat ≠ (s0.g 0).toNat) ∧
    ((sr [(1, 2 ^ 64 - 1)]).g 1).toInt < ((sr [(1, 2 ^ 64 - 1)]).g 0).toInt := by decide +kernel

theorem witness_short_forms : (s0.g 3 = 0) ∧ ¬ ((sr [(3, 1)]).g 3 = 0) ∧ ((sr [(3, 2 ^ 63)]).g 3).toInt < 0 := by decide +kernel

theorem witness_scalar_frame : Spec.scalarDest (.add 1 2 3) = some (some 1) ∧ ∃ t, exec (.add 1 2 3) s0 = .next t := ⟨rfl, _, rfl⟩

/-- Pointer results at both edges of the address space: one below zero, and one past the last byte. -/
theorem witness_pointer_results :
    (let q : Int := ((sr [(2, 0xFFFFFFFFFFFFFF)]).g 2).toNat % 2 ^ 56 + 0; 0 ≤ q ∧ q < 2 ^ 56) ∧
    (((sr [(2, 0x0500000000000000)]).g 2).toNat % 2 ^ 56 + (-1 : Int) < 0) ∧
    ((2 : Int) ^ 56 ≤ ((sr [(2, 0xFFFFFFFFFFFFFF)]).g 2).toNat % 2 ^ 56 + (1 : Int)) := by decide +kernel

/-- A core with one PLB entry over unit 1 of 64 KiB. -/
def plbCore (s : State) (rights : Nat) : State := s.mapCore (fun c => { c with plb := [{ first := 0, last := 1, rights := rights }] })

theorem witness_pchk_result :
    (((sr [(2, 5)]).g 3).toNat = 0) ∧
    (2 ^ 56 < ((sr [(2, 2 ^ 56 - 1), (3, 2)]).g 2).toNat % 2 ^ 56 + ((sr [(2, 2 ^ 56 - 1), (3, 2)]).g 3).toNat) ∧
    (let s := sr [(2, 2 ^ 56 - 1), (3, 1)]
     (s.g 3).toNat ≠ 0 ∧ (s.g 2).toNat % 2 ^ 56 + (s.g 3).toNat ≤ 2 ^ 56 ∧ (s.g 2).toNat % 2 ^ 56 / 2 ^ 48 = 0xFF) ∧
    (let s := sr [(2, 0xFD * 2 ^ 48), (3, 2 ^ 49 + 1)]
     (s.g 3).toNat ≠ 0 ∧ (s.g 2).toNat % 2 ^ 56 + (s.g 3).toNat ≤ 2 ^ 56 ∧ (s.g 2).toNat % 2 ^ 56 / 2 ^ 48 < 0xFE ∧
       0xFF ≤ ((s.g 2).toNat % 2 ^ 56 + (s.g 3).toNat - 1) / 2 ^ 48) ∧
    (let s := plbCore (sr [(2, 0x10000), (3, 0x10000)]) 3
     let base := (s.g 2).toNat % 2 ^ 56
     let top := base + (s.g 3).toNat - 1
     (s.g 3).toNat ≠ 0 ∧ top / 2 ^ 48 < 0xFE ∧ base / 65536 = top / 65536 ∧
       (s.core.plb.find? (fun e => decide (e.first ≤ base / 65536) && decide (base / 65536 ≤ e.last))).map (fun e => e.rights) = some 3) := by
  decide +kernel

theorem witness_srd_results : (atPriv 1 s0).ctx.priv ≠ 0 ∧ s0.ctx.priv = 0 ∧
    (0x7FF#12).toNat ∉ [0x000, 0x031] ∧ (0x7FF#12).toNat ∉ (Spec.openRegs s0).map Prod.fst ∧
    (0x7FF#12).toNat ∉ (Spec.trapRegs s0).map Prod.fst := by decide +kernel

theorem witness_swr_results : 2 ≤ (atPriv 2 s0).ctx.priv ∧ (atPriv 1 s0).ctx.priv = 1 ∧ s0.ctx.priv = 0 := by decide +kernel

/-- A handler is there and INH = 0. -/
def withVec (s : State) : State := s.mapCore (fun c => { c with trapVec := 0x8001 })

theorem witness_trap_entry_and_return : (withVec s0).ctx.inh = false ∧ (withVec s0).core.trapVec.getLsbD 0 = true ∧
    Trap.breakpoint.cause < 256 ∧ Trap.breakpoint.detail < 256 ∧ s0.ctx.priv = 0 ∧ (atPriv 2 s0).ctx.priv ≠ 0 := by decide +kernel

/-- A fault chain whose second member is there. -/
def withChain (s : State) : State :=
  (s.onCluster 0 (fun c => { c with hchain := 0x8007 * 2 ^ 16 })).setCore 7 ({ Core.reset with released := true }.setCtx 0
    { Ctx.reset 0 with life := .live, stat := 2 })

theorem witness_trap_forwarding :
    (s0.core.trapVec.getLsbD 0 = false ∧ s0.ctx.priv ≠ 2 ∧ (s0.chainMember (clusterOfCore s0.focus) 0) = none ∧
      ((withChain s0).chainMember (clusterOfCore s0.focus) 1).isSome = true ∧
      (withChain s0).chainMember (clusterOfCore s0.focus) 0 = none) ∧ (atPriv 2 s0).ctx.priv = 2 := by decide +kernel

theorem witness_halt_result : s0.ctx.priv = 0 ∧ (atPriv 1 s0).ctx.priv ≠ 0 := by decide +kernel

theorem witness_fence_results : (s0.release s0.focus .package).releaseWaits s0.focus s0.curCtx .package = false ∧
    s0.core.hold.any (fun e => e.ctxs.contains s0.curCtx) = false ∧
    (let w := (s0.l1Cores s0.focus).foldl (fun a m => a.flushL1 m) s0
     w.core.hold = [] ∧ w.hostPending w.focus = false) := by decide +kernel

theorem witness_maintenance_results : s0.ctx.priv = 0 ∧ (atPriv 2 s0).ctx.priv ≠ 0 ∧
    (let s := atPriv 2 (sr [(2, 0x10000)])
     let t := s.purgePage s.focus .system 0x10000 false
     t.hostBusy t.focus .system 0x10000 65536 = false) ∧
    (let s := atPriv 2 (sr [(2, 0x10000)])
     let t := s.tinvalPage s.focus .system 0x10000
     t.hostBusy t.focus .system 0x10000 65536 = false) := by decide +kernel

theorem witness_helper_results :
    (asHelper 3 s0).ctx.cidx ≠ 0 ∧ (11#12).toNat > 10 ∧ s0.ctx.cidx = 0 ∧
    (let s := (List.range 10).foldl (fun s i => s.onCtx 0 (i + 1) (fun x => { x with life := .live })) s0
     s.ctx.cidx = 0 ∧ ∀ i, i < 11 → 1 ≤ i → (s.ctxAt s.focus i).life ≠ .free) ∧
    (let s := s0.onCtx 0 1 (fun x => { x with life := .live })
     (s.ctxAt s.focus 2).life = .free ∧ ∀ i, i < 2 → 1 ≤ i → (s.ctxAt s.focus i).life ≠ .free) ∧
    (let s := s0.onCtx 0 10 (fun x => { x with life := .exited 5 })
     (s.ctxAt s.focus (10#12).toNat).life = .exited 5 ∧ (s.ctxAt s.focus (1#12).toNat).life = .free) ∧
    (let s := asHelper 3 (s0.onCtx 0 0 (fun x => { x with wait := some { why := .helper 3, ir := 0 } }))
     s.ctx.cidx ≠ 0 ∧ s.curCtx ≠ 0 ∧ (s.ctxAt s.focus 0).waitsHelper s.curCtx = true) := by decide +kernel

/-! Witnesses: scalar memory accesses, windows and atomics. -/

/-- A scratchpad pointer in `g2`, data in `g3`. -/
def spadS : State := sr [(2, 0x00FF000000000100), (3, 0x1122334455667788)]

/-- A service-level context with a pointer behind the physical window in `g2`. -/
def feS : State := atPriv 2 (sr [(2, 0x00FE000000001000), (3, 5)])

/-- A translated pointer in `g2` whose unit the PLB holds with some rights. -/
def plbS (rights : Nat) : State := plbCore (sr [(2, 0x10000)]) rights

theorem witness_load_results :
    (Spec.pointerOk spadS (spadS.g 2) ∧ Spec.reaches (spadS.g 2) 0 8 0xFF000000000100 ∧
      Spec.permits spadS (Need.load (ptrCode (spadS.g 2) ≠ 0)) 0xFF000000000100 8 ∧ Spec.atHand spadS 0xFF000000000100 8 ∧
      windowOf spadS.ctx.priv 0xFF000000000100 = .none) ∧
    (Spec.pointerOk spadS (spadS.g 2) ∧ Spec.reaches (spadS.g 2) 0x7FF 1 0xFF0000000008FF ∧
      Spec.permits spadS (Need.load (ptrCode (spadS.g 2) ≠ 0)) 0xFF0000000008FF 1 ∧ Spec.atHand spadS 0xFF0000000008FF 1) :=
  ⟨⟨⟨by decide +kernel, .inl (by decide +kernel)⟩, ⟨by decide +kernel, by decide⟩, ⟨by decide +kernel, by decide +kernel⟩,
      ⟨by decide +kernel, by decide +kernel⟩, by decide +kernel⟩,
    ⟨⟨by decide +kernel, .inl (by decide +kernel)⟩, ⟨by decide +kernel, by decide⟩, ⟨by decide +kernel, by decide +kernel⟩,
      ⟨by decide +kernel, by decide +kernel⟩⟩⟩

theorem witness_load_frame : Spec.loadForm (.ldd 1 2 0) = some (2, 0, 8) ∧ ∃ t, exec (.ldd 1 2 0) spadS = .next t := ⟨rfl, _, rfl⟩

/-- The store statements in the scratchpad and in translated memory's stand-in, the physical window. -/
theorem witness_store_results :
    (Spec.storeForm (.std 3 2 0) = some (3, 2, 0, 8) ∧ Spec.pointerOk spadS (spadS.g 2) ∧
      Spec.reaches (spadS.g 2) 0 8 0xFF000000000100 ∧ Spec.permits spadS (Need.store (ptrCode (spadS.g 2) ≠ 0)) 0xFF000000000100 8 ∧
      Spec.storable spadS 0xFF000000000100 8 ∧ windowOf spadS.ctx.priv 0xFF000000000100 = .none) ∧
    (Spec.pointerOk feS (feS.g 2) ∧ Spec.reaches (feS.g 2) 0 8 0xFE000000001000 ∧
      Spec.permits feS (Need.store (ptrCode (feS.g 2) ≠ 0)) 0xFE000000001000 8 ∧ Spec.storable feS 0xFE000000001000 8 ∧
      windowOf feS.ctx.priv 0xFE000000001000 = .none) :=
  ⟨⟨rfl, ⟨by decide +kernel, .inl (by decide +kernel)⟩, ⟨by decide +kernel, by decide⟩, ⟨by decide +kernel, by decide +kernel⟩,
      ⟨by decide +kernel, by decide +kernel⟩, by decide +kernel⟩,
    ⟨⟨by decide +kernel, .inl (by decide +kernel)⟩, ⟨by decide +kernel, by decide⟩, ⟨by decide +kernel, by decide +kernel⟩,
      ⟨by decide +kernel, by decide +kernel⟩, by decide +kernel⟩⟩

theorem witness_store_effect :
    (Sys2Proof.Inv spadS ∧ isSpad 0xFF000000000100 = true ∧ descriptorHits (0xFF000000000100 % 2 ^ 48) 8 = [] ∧
      spadS.core.anyWindow = false ∧ (∀ k, k < 8 → spadS.core.heldByte (0xFF000000000100 + k) = none) ∧ ∃ t, exec (.std 3 2 0) spadS = .next t) ∧
    (Sys2Proof.Inv feS ∧ isSpad 0xFE000000001000 = false ∧ feS.core.anyWindow = false ∧
      (∀ k, k < 8 → feS.core.heldByte (0xFE000000001000 + k) = none) ∧
      (∀ c ∈ partialBytes 0xFE000000001000 8, (feS.l1Word feS.focus (c / 4)).isSome = true) ∧
      (∀ k, k < 8 → let line := (0xFE000000001000 + k) / 64
        let owner := feS.coreAt (feS.l1Owner feS.focus line)
        owner.dirtyLines.length < 4095 ∧ owner.l1Lines.length < 32767 ∧ ∀ nc ∈ feS.cores, nc.2.partialsOn line = []) ∧
      ∃ t, exec (.std 3 2 0) feS = .next t) :=
  ⟨⟨inv_of_listed (by decide +kernel) (by decide +kernel) (by decide +kernel), by decide, by decide +kernel, by decide +kernel,
      by decide +kernel, _, rfl⟩,
    ⟨inv_of_listed (by decide +kernel) (by decide +kernel) (by decide +kernel), by decide, by decide +kernel, by decide +kernel,
      by decide +kernel, by decide +kernel, _, rfl⟩⟩

/-- The traps at a first illegal block-length code, below zero and past the end, without rights, and at a poisoned word. -/
theorem witness_access_traps :
    (3 < ptrBlc ((sr [(2, 0x0400000000000000)]).g 2)) ∧
    (Spec.pointerOk s0 (s0.g 2) ∧ (((s0.g 2).toNat % 2 ^ 56 : Nat) : Int) + (0xFFF#12).toInt < 0) ∧
    (2 ^ 56 < (((sr [(2, 2 ^ 56 - 1)]).g 2).toNat % 2 ^ 56 : Nat) + (0#12).toInt + 2) ∧
    (let s := plbS 2
     Spec.pointerOk s (s.g 2) ∧ Spec.reaches (s.g 2) 0 4 0x10000 ∧ s.core.plbMiss [(0x10000, 4)] = none ∧
       s.core.refusedByte s.ctx.priv (Need.load (ptrCode (s.g 2) ≠ 0)) 0x10000 4 = some 0x10000) ∧
    (let s := spadS.mapCore (fun c => { c with spadPoison := [0x40] })
     Spec.pointerOk s (s.g 2) ∧ Spec.reaches (s.g 2) 0 4 0xFF000000000100 ∧
       Spec.permits s (Need.load (ptrCode (s.g 2) ≠ 0)) 0xFF000000000100 4 ∧ s.pendOf s.focus false 0xFF000000000100 4 = none ∧
       s.badByte 0xFF000000000100 4 = some 0xFF000000000100) :=
  ⟨by decide +kernel, ⟨⟨by decide +kernel, .inl (by decide +kernel)⟩, by decide +kernel⟩, by decide +kernel,
    ⟨⟨by decide +kernel, .inl (by decide +kernel)⟩, ⟨by decide +kernel, by decide⟩, by decide +kernel, by decide +kernel⟩,
    ⟨⟨by decide +kernel, .inl (by decide +kernel)⟩, ⟨by decide +kernel, by decide⟩, ⟨by decide +kernel, by decide +kernel⟩,
      by decide +kernel, by decide +kernel⟩⟩

theorem witness_access_waits :
    (Spec.pointerOk (sr [(2, 0x10000)]) 0x10000 ∧ Spec.reaches 0x10000 0 4 0x10000 ∧
      (sr [(2, 0x10000)]).core.plbMiss [(0x10000, 4)] = some 1) ∧
    (Spec.permits feS (Need.load false) 0xFE000000001000 4 ∧
      ∃ va ws, feS.pendOf feS.focus false 0xFE000000001000 4 = some (.home va ws 0xFE000000001000)) ∧
    (Spec.permits (plbS 3) (Need.store false) 0x10000 4 ∧
      ∃ va, (plbS 3).pendOf (plbS 3).focus true 0x10000 4 = some (.query va 0x10000)) :=
  ⟨⟨⟨by decide +kernel, .inl (by decide +kernel)⟩, ⟨by decide +kernel, by decide⟩, by decide +kernel⟩,
    ⟨⟨by decide +kernel, by decide +kernel⟩, _, _, rfl⟩, ⟨⟨by decide +kernel, by decide +kernel⟩, _, rfl⟩⟩

/-- The windows at the first and last word of each clause. -/
theorem witness_window_access :
    (Spec.reaches 0xFF000000110000 0 8 0xFF000000110000 ∧ windowOf 0 0xFF000000110000 = .ring 0 ∧ windowOf 0 0xFF0000001100F8 = .ring 0xF8) ∧
    (windowOf 0 0xFF000000200000 = .unit 0 ∧ euWord 0 = some (.cfg 0) ∧ euWord 0x1E0 = some (.cfg 15) ∧ euWord 0x1F8 = some (.gen 15) ∧
      euWord 0x2008 = some (.estat 0) ∧ euWord 0x21F8 = some (.estat 31) ∧ euWord 0x3000 = some .hchain ∧
      euWord 0x3008 = some .waitpol ∧ euWord 0x3010 = some .clid ∧ euWord 0x3018 = none ∧ euWord 0x200 = none) ∧
    (windowOf 2 0xFE7F0000000100 = .register 0 0x100 ∧ feS.reachReg (feS.focus / 1008) 0 = none) := by
  refine ⟨⟨⟨by decide, by decide⟩, by decide, by decide⟩, by decide, by decide, by decide +kernel⟩

/-- When the home gives a line that passes a test, the line of `homeGives` passes it. -/
theorem gives_line {s : State} {ea : Nat} {p : L2Line → Bool}
    (h : (match (s.homeLine (dieOfCore s.focus) ea (s.hint s.focus ea)).1 with
      | .line _ l _ => p l
      | _ => false) = true) : ∃ u slice l, Spec.homeGives s ea u slice l ∧ p l = true := by
  rcases hr : s.homeLine (dieOfCore s.focus) ea (s.hint s.focus ea) with ⟨r, t⟩
  rw [hr] at h
  cases r with
  | line slice l leaf => exact ⟨_, slice, l, ⟨leaf, t, hr, rfl⟩, h⟩
  | _ => simp at h

theorem witness_amo_results :
    (ptrAddr 0xFF000000000101 % 4 ≠ 0) ∧
    (Spec.operand spadS (spadS.g 2) (Need.both (ptrCode (spadS.g 2) ≠ 0)) 8 0xFF000000000100 ∧ Spec.releasedOk spadS .none .core ∧
      isSpad 0xFF000000000100 = true ∧ spadS.core.aliased (bytesAt 0xFF000000000100 8) = false ∧ (Spec.releasedBy spadS .none .core).core.spadBad (0xFF000000000100 % 2 ^ 48) 8 = false) ∧
    (Spec.operand feS (feS.g 2) (Need.both (ptrCode (feS.g 2) ≠ 0)) 8 0xFE000000001000 ∧ Spec.releasedOk feS .ar .system ∧
      isSpad 0xFE000000001000 = false ∧ feS.core.aliased (bytesAt 0xFE000000001000 8) = false ∧ Spec.resident feS 0xFE000000001000 ∧
      ∃ u slice l, Spec.homeGives ((Spec.releasedBy feS .ar .system).yieldWords (Spec.releasedBy feS .ar .system).focus 0xFE000000001000 8)
        0xFE000000001000 u slice l ∧ (!l.poisoned (0xFE000000001000 % 64) 8) = true) :=
  ⟨by decide, ⟨⟨⟨by decide +kernel, .inl (by decide +kernel)⟩, by decide +kernel, by decide, by decide, by decide +kernel, by decide +kernel⟩,
      by unfold Spec.releasedOk; decide, by decide, by decide +kernel, by decide +kernel⟩,
    ⟨⟨⟨by decide +kernel, .inl (by decide +kernel)⟩, by decide +kernel, by decide, by decide, by decide +kernel, by decide +kernel⟩,
      by unfold Spec.releasedOk; intro _; decide +kernel, by decide, by decide +kernel, by unfold Spec.resident; decide +kernel,
      gives_line (by decide +kernel)⟩⟩

theorem witness_amoupd_results :
    (Spec.operand spadS (spadS.g 2) (Need.both (ptrCode (spadS.g 2) ≠ 0)) 4 0xFF000000000100 ∧
      spadS.core.aliased (bytesAt 0xFF000000000100 4) = false ∧
      spadS.core.spadBad (0xFF000000000100 % 2 ^ 48) 4 = false) ∧
    (let o := feS.l1Owner feS.focus (0xFE000000001000 / 64)
     (feS.coreAt o).partialsOn (0xFE000000001000 / 64) = [] ∧ Spec.resident feS 0xFE000000001000 ∧
       ∃ u slice l, Spec.homeGives feS 0xFE000000001000 u slice l ∧ true = true) ∧
    (let s := feS.mapCore (fun c => { c with partials := [(0xFE000000001000 / 4, { op := 0, width := 4, val := 7 })] })
     let o := s.l1Owner s.focus (0xFE000000001000 / 64)
     (s.coreAt o).partialsOn (0xFE000000001000 / 64) ≠ [] ∧
       tabFind (s.coreAt o).partials (0xFE000000001000 / 4) = some { op := 0, width := 4, val := 7 }) :=
  ⟨⟨⟨⟨by decide +kernel, .inl (by decide +kernel)⟩, by decide +kernel, by decide, by decide, by decide +kernel, by decide +kernel⟩, by decide +kernel, by decide +kernel⟩,
    ⟨by decide +kernel, by unfold Spec.resident; decide +kernel, gives_line (by decide +kernel)⟩, by decide +kernel⟩

/-- Versioned operations: the largest version number below 2^32 and the first one refused; a line at the version asked for and below it. -/
theorem witness_version_results :
    (2 ^ 32 ≤ ((sr [(3, 2 ^ 32)]).g 3).toNat ∧ ((sr [(3, 2 ^ 32 - 1)]).g 3).toNat < 2 ^ 32) ∧
    (Spec.operand feS (feS.g 2) (Need.load (ptrCode (feS.g 2) ≠ 0)) 8 0xFE000000001000 ∧
      Spec.operand feS (feS.g 2) (Need.store (ptrCode (feS.g 2) ≠ 0)) 8 0xFE000000001000 ∧ topByte 0xFE000000001000 ≠ 0xFF ∧
      Spec.resident feS 0xFE000000001000 ∧ Spec.versionedPage feS 0xFE000000001000 ∧
      feS.core.aliased (bytesAt 0xFE000000001000 8) = false ∧
      (feS.release feS.focus .system).releaseWaits feS.focus feS.curCtx .system = false) ∧
    (∃ u slice l, Spec.homeGives ((feS.release feS.focus .system).yieldWords (feS.release feS.focus .system).focus 0xFE000000001000 8)
        0xFE000000001000 u slice l ∧ (!l.poisoned (0xFE000000001000 % 64) 8 && l.ver != BitVec.allOnes 32) = true) ∧
    (∃ u slice l, Spec.homeGives (feS.yieldWords feS.focus 0xFE000000001000 8) 0xFE000000001000 u slice l ∧
        (!l.poisoned (0xFE000000001000 % 64) 8 && decide (((feS.setG 3 0).g 3).toNat ≤ l.ver.toNat)) = true) ∧
    (∃ u slice l, Spec.homeGives (feS.yieldWords feS.focus 0xFE000000001000 8) 0xFE000000001000 u slice l ∧
        decide (l.ver.toNat < (feS.g 3).toNat) = true) ∧
    (∃ u slice l, Spec.homeGives feS 0xFE000000001000 u slice l ∧ true = true) :=
  ⟨by decide +kernel,
    ⟨⟨⟨by decide +kernel, .inl (by decide +kernel)⟩, by decide +kernel, by decide, by decide, by decide +kernel, by decide +kernel⟩,
      ⟨⟨by decide +kernel, .inl (by decide +kernel)⟩, by decide +kernel, by decide, by decide, by decide +kernel, by decide +kernel⟩,
      by decide, by unfold Spec.resident; decide +kernel, by unfold Spec.versionedPage; decide +kernel, by decide +kernel, by decide +kernel⟩,
    gives_line (by decide +kernel), gives_line (by decide +kernel), gives_line (by decide +kernel), gives_line (by decide +kernel)⟩

/-- Signals: a value at the threshold, and the first one above it. -/
theorem witness_signal_results :
    (∃ u slice l, Spec.homeGives (feS.yieldWords feS.focus 0xFE000000001000 8) 0xFE000000001000 u slice l ∧
      (!l.poisoned (0xFE000000001000 % 64) 8 &&
        decide ((BitVec.ofNat 64 (Spec.lineValue l 0xFE000000001000 8)).toInt ≤ ((feS.setG 3 0).g 3).toInt)) = true) ∧
    (∃ u slice l, Spec.homeGives (feS.yieldWords feS.focus 0xFE000000001000 8) 0xFE000000001000 u slice l ∧
      decide (((feS.setG 3 (-1)).g 3).toInt < (BitVec.ofNat 64 (Spec.lineValue l 0xFE000000001000 8)).toInt) = true) ∧
    (Spec.operand feS (feS.g 2) (Need.both (ptrCode (feS.g 2) ≠ 0)) 8 0xFE000000001000) :=
  ⟨gives_line (by decide +kernel), gives_line (by decide +kernel),
    ⟨⟨by decide +kernel, .inl (by decide +kernel)⟩, by decide +kernel, by decide, by decide, by decide +kernel, by decide +kernel⟩⟩

/-! Witnesses: the vector instructions. -/

/-- A vector state: VL and VCFG (SEW code in bits 1:0, GM code in bits 3:2). -/
def vecS (vl cfg : Nat) : State := s0.mapCtx (fun x => { x with vl := BitVec.ofNat 64 vl, vcfg := BitVec.ofNat 64 cfg })

theorem witness_vector_config : ((sr [(3, 63)]).g 3).toNat < 64 ∧ 64 ≤ ((sr [(3, 64)]).g 3).toNat := by decide +kernel

theorem witness_vector_integer_results :
    Spec.groupsOk (vecS 4 6) ((2, Spec.gm (vecS 4 6)) :: (4, Spec.gm (vecS 4 6)) :: [(6, Spec.gm (vecS 4 6))]) ∧
    Spec.vl (vecS 0 2) = 0 ∧ Spec.vl (vecS 4 6) ≠ 0 := by unfold Spec.groupsOk; decide +kernel

theorem witness_vector_widening_results :
    (Spec.sew (vecS 4 3) = 64 ∧ Spec.gm (vecS 4 12) = 8) ∧
    (Spec.sew (vecS 4 2) ≠ 64 ∧ Spec.gm (vecS 4 2) ≠ 8 ∧ Spec.groupsOk (vecS 4 2) [(2, 2), (4, 1), (5, 1)] ∧
      Spec.groupsOk (vecS 4 2) [(1, 1), (2, 2), (5, 1)] ∧ (2 + 2 ≤ 4) ∧ (1 + 1 ≤ 2)) := by unfold Spec.groupsOk; decide +kernel

theorem witness_vector_float_results :
    Spec.sew (vecS 4 0) = 8 ∧ Spec.sew (vecS 4 1) ≠ 8 ∧ Spec.groupsOk (vecS 4 1) [(1, 1), (2, 1), (3, 1)] := by
  unfold Spec.groupsOk; decide +kernel

/-- The special operands: NaNs, infinities of both signs, zeros, a negative number. -/
theorem witness_float_special_values :
    (0x7FC00001 < 2 ^ fmtF32.width ∧ (fmtF32.unpack 0x7FC00001).isNan = true) ∧
    ((fmtF32.unpack 0x7F800001).isSnan = true) ∧
    (fmtF32.unpack 0x7F800000 = .inf false ∧ fmtF32.unpack 0xFF800000 = .inf true) ∧
    ((fmtF32.unpack 0).isZero = true ∧ (fmtF32.unpack 0x80000000).isZero = true) ∧
    (∃ m e, fmtF32.unpack 0x3F800000 = .fin false m e ∧ m ≠ 0) ∧ (∃ m e, fmtF32.unpack 0xBF800000 = .fin true m e ∧ m ≠ 0) ∧
    (0x7FC1 < 2 ^ fmtBF16.width ∧ (fmtBF16.unpack 0x7FC1).isNan = true) ∧
    (0x7FF8000000000001 < 2 ^ fmtF64.width ∧ (fmtF64.unpack 0x7FF8000000000001).isNan = true) :=
  ⟨by decide +kernel, by decide +kernel, by decide +kernel, by decide +kernel, ⟨_, _, rfl, by decide +kernel⟩,
    ⟨_, _, rfl, by decide +kernel⟩, by decide +kernel, by decide +kernel⟩

theorem witness_vector_convert_results :
    Spec.sew (vecS 4 0) = 8 ∧ Spec.sew (vecS 4 3) = 64 ∧ Spec.gm (vecS 4 13) = 8 ∧
    Spec.groupsOk (vecS 4 2) [(1, 1), (2, 1)] ∧ Spec.groupsOk (vecS 4 2) [(2, 2), (4, 1)] ∧ Spec.groupsOk (vecS 4 2) [(1, 1), (2, 2)] := by
  unfold Spec.groupsOk; decide +kernel

theorem witness_vector_compare_results :
    Spec.groupsOk (vecS 4 6) [(1, 1), (2, 2), (4, 2)] ∧ Spec.maskApart 1 2 2 ∧ Spec.maskApart 1 4 2 ∧ Spec.sew (vecS 4 0) = 8 ∧
    Spec.sew (vecS 4 6) ≠ 8 := by unfold Spec.groupsOk Spec.maskApart; decide +kernel

theorem witness_mask_results : Spec.groupsOk (vecS 4 2) [(1, 1), (2, 1), (3, 1)] ∧ Spec.vl (vecS 0 2) = 0 ∧ Spec.vl (vecS 4 2) ≠ 0 := by
  unfold Spec.groupsOk; decide +kernel

/-- The permutes: groups apart, a block count that divides VL, one that does not, and none. -/
theorem witness_vector_move_results :
    Spec.groupsOk (vecS 4 6) [(2, 2), (4, 2), (6, 2)] ∧ Spec.groupsOk (vecS 4 6) [(2, 2), (4, 2), (1, 1)] ∧
    (2 + 2 ≤ 4) ∧ (1 + 1 ≤ 2) ∧ Spec.vl (vecS 4 6) % (2#5).toNat = 0 ∧ Spec.vl (vecS 4 6) % (3#5).toNat ≠ 0 ∧ (0#5).toNat = 0 := by
  unfold Spec.groupsOk; decide +kernel

theorem witness_vector_reduce_results :
    Spec.groupsOk (vecS 4 6) [(1, 1), (2, 2), (4, 1)] ∧ Spec.sew (vecS 4 6) ≠ 8 ∧ Spec.sew (vecS 4 6) ≠ 64 ∧ Spec.gm (vecS 4 6) ≠ 8 := by
  unfold Spec.groupsOk; decide +kernel

/-- A vector state of two 32-bit elements with a scratchpad pointer in `g2` and a stride in `g3`. -/
def vmemS : State := regs [(2, 0x00FF000000000100), (3, 8)] (vecS 2 2)

theorem witness_vector_load_results :
    Spec.vl vmemS ≠ 0 ∧ Spec.pointerOk vmemS (vmemS.g 2) ∧ Spec.groupsOk vmemS [(1, 1), (3, 1)] ∧
    (let f := Spec.unitAt vmemS (vmemS.g 2)
     Spec.inRange vmemS true f ∧ Spec.permitsAll vmemS (Need.load (ptrCode (vmemS.g 2) ≠ 0)) (Spec.runs vmemS true f) ∧
       ∀ r ∈ Spec.runs vmemS true f, Spec.atHand vmemS r.1 r.2) ∧
    (let f := Spec.strideAt vmemS (vmemS.g 2) 3
     Spec.inRange vmemS true f ∧ Spec.permitsAll vmemS (Need.load (ptrCode (vmemS.g 2) ≠ 0)) (Spec.runs vmemS true f) ∧
       ∀ r ∈ Spec.runs vmemS true f, Spec.atHand vmemS r.1 r.2) ∧
    (let f := Spec.indexAt vmemS (vmemS.g 2) 3
     Spec.inRange vmemS true f ∧ Spec.permitsAll vmemS (Need.load (ptrCode (vmemS.g 2) ≠ 0)) (Spec.runs vmemS true f) ∧
       ∀ r ∈ Spec.runs vmemS true f, Spec.atHand vmemS r.1 r.2) := by
  unfold Spec.groupsOk Spec.inRange Spec.permitsAll Spec.atHand
  refine ⟨by decide +kernel, ⟨by decide +kernel, .inl (by decide +kernel)⟩, by decide +kernel, ?_, ?_, ?_⟩ <;> decide +kernel


/-- As `vmemS`, with an element at the end of page 1 in the L1, and one in page 2, which is not mapped. -/
def pageFaultS : State :=
  mapped ((regs [(2, 0x1FFFC)] vmemS).mapCore (fun c =>
    { c with plb := [{ first := 1, last := 2, rights := 3 }], l1 := [(0x7FFF, { val := 7, dirty := false, poison := false })] }))

theorem witness_first_fault_results :
    (Spec.vl vmemS ≠ 0 ∧ vmemS.ctx.lost = [] ∧ Spec.inRange vmemS true (Spec.unitAt vmemS (vmemS.g 2)) ∧
      vmemS.core.plbMiss (Spec.runs vmemS true (Spec.unitAt vmemS (vmemS.g 2))) = none ∧
      ∀ r ∈ Spec.runs vmemS true (Spec.unitAt vmemS (vmemS.g 2)),
        vmemS.core.refusedByte vmemS.ctx.priv (Need.load (ptrCode (vmemS.g 2) ≠ 0)) r.1 r.2 = none ∧ Spec.atHand vmemS r.1 r.2) ∧
    (let s := regs [(2, 0x00FF00000007FFFC)] vmemS
     let f := Spec.unitAt s (s.g 2)
     1 ∈ Spec.actives s true ∧ 0 ∈ Spec.actives s true ∧ Spec.inRange s true f ∧ s.core.plbMiss (Spec.runs s true f) = none ∧
       (s.core.refusedByte s.ctx.priv (Need.load (ptrCode (s.g 2) ≠ 0)) (f 0).toNat 4 = none ∧ Spec.atHand s (f 0).toNat 4) ∧
       s.core.refusedByte s.ctx.priv (Need.load (ptrCode (s.g 2) ≠ 0)) (f 1).toNat 4 ≠ none) ∧
    (let s := vmemS.mapCore (fun c => { c with spadPoison := [0x41] })
     let f := Spec.unitAt s (s.g 2)
     Spec.atHand s (f 0).toNat 4 ∧ s.pendOf s.focus false (f 1).toNat 4 = none ∧ s.badByte (f 1).toNat 4 ≠ none) ∧
    (let s := pageFaultS
     let f := Spec.unitAt s (s.g 2)
     let ea := (f 1).toNat
     s.core.plbMiss (Spec.runs s true f) = none ∧ Spec.atHand s (f 0).toNat 4 ∧
       (∀ i ∈ [0, 1], s.core.refusedByte s.ctx.priv (Need.load (ptrCode (s.g 2) ≠ 0)) (f i).toNat 4 = none) ∧
       isSpad ea = false ∧ ea % 64 + 4 ≤ 64 ∧ s.missingIn s.focus (bytesAt ea 4) (ea / 64) = [0x8000] ∧
       (match (s.askHome (dieOfCore s.focus) (4 * 0x8000) (s.probeHint s.focus (4 * 0x8000))).1 with
        | .fault _ _ => true
        | _ => false) = true) := by
  unfold Spec.inRange Spec.atHand; decide +kernel

/-- `Spec.roomFor` as a computation. -/
def room : State → List (Nat × List Byte) → Bool
  | _, [] => true
  | s, e :: rest => !s.storeBlocked (bytesAt e.1 e.2.length) && room ((s.storeRun e.1 e.2).placedOne rest) rest

theorem roomFor_of_room : ∀ {l : List (Nat × List Byte)} {s : State}, room s l = true → Spec.roomFor s l
  | [], _, _ => trivial
  | _ :: _, _, h => by
    simp only [room, Bool.and_eq_true, Bool.not_eq_true'] at h
    exact ⟨h.1, roomFor_of_room h.2⟩

theorem witness_vector_store_results :
    (let f := Spec.unitAt vmemS (vmemS.g 2)
     let els := (Spec.actives vmemS true).map (fun i => ((f i).toNat, bytesLE 4 (vmemS.ctx.elem 1 i 32)))
     vmemS.ctx.placed = 0 ∧ Spec.permitsAll vmemS (Need.store (ptrCode (vmemS.g 2) ≠ 0)) (Spec.runs vmemS true f) ∧
       (∀ r ∈ Spec.runs vmemS true f, vmemS.pendOf vmemS.focus true r.1 r.2 = none) ∧ Spec.roomFor vmemS els) := by
  unfold Spec.permitsAll
  refine ⟨by decide +kernel, by decide +kernel, by decide +kernel, ?_⟩
  exact roomFor_of_room (by decide +kernel)

/-! Witnesses: billets and streams. -/

/-- The record of code 1 in the format-record cache: an 8-bit billet family with selector 0 (R98). -/
def billetRec : FmtRecord := { dw0 := 0x1901, dw1 := 0, dw2 := 0, dw3 := 0 }
def withRec (s : State) : State :=
  s.mapCore (fun c => { c with fmtCache := [(32, 0x1901), (40, 0), (48, 0), (56, 0)] })

/-- 16 elements of 32 bits, in `g2` and `ox0` a billet pointer whose storage lies in the scratchpad (R113). -/
def bilS : State :=
  (withRec (regs [(2, 0x08E2AAAAAAAAAC00)] (vecS 16 2))).mapCtx (fun x => x.setOx 0 0x08E2AAAAAAAAAC00)

theorem witness_billet_results :
    (Spec.sew (vecS 16 1) < 32 ∧ Spec.sew (vecS 16 0) = 8 ∧ Spec.sew (vecS 16 3) = 64) ∧
    (Spec.billetAt bilS (bilS.ctx.ox[0]) billetRec .billet8 ∧ 32 ≤ Spec.sew bilS ∧ Spec.vl bilS ≠ 0 ∧
      Spec.levelCodes billetRec ((Spec.actives bilS true).map (Spec.imageIn bilS .billet8 (bilS.ctx.ox[0]) 4)) = []) ∧
    (let p := bilS.g 2
     let base (i : Nat) : Nat := ptrAddr p + i / blenOf (ptrBlc p) * Family.billet8.payload (blenOf (ptrBlc p))
     let rs := (Spec.actives bilS true).flatMap (fun i => [(headerOf 16 (base i), 2), (storeOf 16 (base i + i % 16 * 8 / 8), 1)])
     Spec.billetAt bilS p billetRec .billet8 ∧ ptrAddr p % 16 = 0 ∧ (∀ e ∈ rs, e.1 + e.2 ≤ 2 ^ 56) ∧
       Spec.permitsAll bilS (Need.load true) rs ∧ (∀ e ∈ rs, Spec.atHand bilS e.1 e.2) ∧
       Spec.levelCodes billetRec ((Spec.actives bilS true).map (Spec.billetIn bilS .billet8 p)) = []) ∧
    (let p := bilS.g 2
     let cands := qselCands .mask billetRec
     let billets := (List.range (Spec.vl bilS / 16)).map (fun j =>
       let h := quench .billet8 billetRec [] cands ((List.range 16).map (fun i => qinOfFloat (Spec.format 32) (bilS.ctx.elem 1 (j * 16 + i) 32)))
       (headerOf 16 (ptrAddr p + j * 16), h.1, storeOf 16 (ptrAddr p + j * 16), h.2.1))
     let apart := billets.flatMap (fun x => [(x.1, bytesLE 2 x.2.1), (x.2.2.1, packCodes .billet8 x.2.2.2)])
     let els := billetStores .billet8 billets
     3 ∉ cands ∧ Spec.vl bilS % 16 = 0 ∧ bilS.ctx.placed = 0 ∧ (∀ e ∈ apart, e.1 + e.2.length ≤ 2 ^ 56) ∧
       (∀ l ∈ [apart, els], Spec.permitsAll bilS (Need.store true) (l.map (fun e => (e.1, e.2.length))) ∧
         ∀ e ∈ l, bilS.pendOf bilS.focus true e.1 e.2.length = none) ∧ room bilS els = true) ∧
    (let s := vecS 0 2
     Spec.vl s = 0 ∧ Spec.groupsOk s [(1, Spec.gm s)] ∧ 1 + Spec.gm s ≤ (2#5).toNat ∧ (2#5).toNat + 1 ≤ 31 ∧ s.ctx.cidx = 0 ∧
       (31#5).toNat = 31 ∧ (1#5).toNat < (1#5).toNat + Spec.gm s) := by
  unfold Spec.billetAt Spec.permitsAll Spec.atHand Spec.groupsOk
  refine ⟨?_, ?_, ?_, ?_, ?_⟩ <;> decide +kernel

/-- As `bilS`, with selectors 0 and 3 enabled and a level table at 0x10000 whose entries are all in the format-record cache. -/
def levelRec : FmtRecord := { dw0 := 0x9901, dw1 := 0x10000, dw2 := 0, dw3 := 0 }
def lvlS : State :=
  bilS.mapCore (fun c => { c with
    fmtCache := [(32, 0x9901), (40, 0x10000), (48, 0), (56, 0)] ++ (List.range 256).map (fun k => (2 ^ 56 + 0x10000 + 2 * k, BitVec.ofNat 64 k)) })

/-- A state whose first billet in `v4` has a given header. -/
def headed (h : Nat) (s : State) : State := s.mapCtx (fun x => x.setV 4 (BitVec.ofNat 2048 h))

/-- A level billet with its entries cached, a corrupt header, a quench that may take the level selector and one that may not, and a store
gone on with. -/
theorem witness_billet_levels :
    (let s := headed 0x1B01 lvlS
     let codes := Spec.levelCodes levelRec ((Spec.actives s true).map (Spec.imageIn s .billet8 (s.ctx.ox[0]) 4))
     Spec.billetAt s (s.ctx.ox[0]) levelRec .billet8 ∧ codes.length = 16 ∧ Spec.levelsAt s.core levelRec codes) ∧
    (let s := headed 0x0100 bilS
     corruptHeaders billetRec ((Spec.actives s true).map (fun j => (2 * (j / 16), (Spec.imageIn s .billet8 (s.ctx.ox[0]) 4 j).header))) = [0] ∧
       s.ctx.bcte = false ∧ (s.mapCtx (fun x => { x with stat := x.stat ||| 0x20 })).ctx.bcte = true) ∧
    (3 ∈ qselCands .mask levelRec ∧ levelRec.ltab ≠ 0 ∧ Spec.levelsAt lvlS.core levelRec (quenchCodes .billet8 (qselCands .mask levelRec))) ∧
    (3 ∈ qselCands .forceL billetRec ∧ billetRec.ltab = 0) ∧
    (let s := bilS.mapCtx (fun x => { x with placed := 1, unplaced := [(0x00FF000000000100, [1, 2])] })
     s.ctx.placed ≠ 0 ∧ room s s.ctx.unplaced = true) := by
  unfold Spec.billetAt Spec.levelsAt
  refine ⟨?_, ?_, ?_, ?_, ?_⟩ <;> decide +kernel

/-- The operand-extension registers of a stream of `count` 32-bit integers at a base, with `ctl` in DW4. -/
def streamS (base count ctl : Nat) (s : State) : State :=
  s.mapCtx (fun x => { x with ox := #v[BitVec.ofNat 64 base, BitVec.ofNat 64 (count * 2 ^ 32 + 4), 2 ^ 32, 2 ^ 32, BitVec.ofNat 64 ctl, 0, 0, 0] })

/-- An opening of each kind, empty and not, one that floats, and the first reserved kind. -/
theorem witness_stream_open_results :
    ((Spec.opened (streamS 0x10000 4 0x2C s0) 0 .zero).reservedOk = false) ∧
    ((Spec.opened (streamS 0x10000 4 0x20 s0) 3 .zero).reservedOk = true ∧ 2 < (3#5).toNat) ∧
    (let s := streamS 0x10000 4 0x20 s0
     let st := Spec.opened s 0 .zero
     st.reservedOk = true ∧ (s.core.stream 0).state = .free ∧ Spec.baseRecord s st.base .zero ∧ Spec.descriptorOk s st ∧
       s.core.heldOverlap 0 st = false ∧ st.total ≠ 0) ∧
    (let s := streamS 0x10000 0 0x20 s0
     (Spec.opened s 0 .zero).total = 0 ∧ Spec.descriptorOk s (Spec.opened s 0 .zero)) ∧
    (let s := streamS 0x10000 4 0x120 s0
     let st := Spec.opened s 2 .zero
     Spec.descriptorOk s st ∧ st.total ≠ 0 ∧ st.flt = false) ∧
    (let s := mapped (streamS 0x10000 4 0x1120 s0)
     let st := Spec.opened s 2 .zero
     Spec.descriptorOk s st ∧ st.total ≠ 0 ∧ st.flt = true ∧ st.billets = false ∧ s.footprintReadable s.focus st = true) := by
  unfold Spec.descriptorOk Spec.baseRecord
  refine ⟨?_, ?_, ?_, ?_, ?_, ?_⟩ <;> decide +kernel

/-- Slot 0 of core 0 in a state, over 4 scratchpad integers. -/
def slotS (k : Nat) (st : SlotState) : State :=
  let s := streamS 0x00FF000000000100 4 (if k = 2 then 0x120 else 0x20) (vecS 4 2)
  s.setStream 0 0 { Spec.opened s (BitVec.ofNat 5 k) .zero with state := st }

theorem witness_stream_instruction_results :
    (let s := slotS 0 .locl
     let st := s.core.stream 0
     let rs := (List.range (Spec.streamCount s st)).flatMap (fun i => st.runs i 0)
     st.kind = 0 ∧ st.state = .locl ∧ 8 * st.width = Spec.sew s ∧ Spec.streamCount s st = 4 ∧ st.pat ≠ 1 ∧
       Spec.permitsAll s (Need.load st.tagged) rs ∧ ∀ r ∈ rs, s.pendUnit s.focus r.1 r.2 = none ∧ ∀ a ∈ bytesAt r.1 r.2, s.unitBad a = false) ∧
    (let s := slotS 1 .locl
     let st := s.core.stream 0
     let els := (List.range (Spec.streamCount s st)).map (fun i => ((st.addr i 0).toNat, bytesLE st.width (s.ctx.elem 1 i 32)))
     st.kind = 1 ∧ 8 * st.width = Spec.sew s ∧ s.ctx.placed = 0 ∧ Spec.permitsAll s (Need.store st.tagged) (els.map (fun e => (e.1, e.2.length))) ∧
       (∀ e ∈ els, s.pendOf s.focus true e.1 e.2.length = none) ∧ room s els = true) ∧
    (Spec.streamCount (slotS 1 .sunk) ((slotS 1 .sunk).core.stream 0) = 0 ∧ ((slotS 1 .sunk).core.stream 0).err = 0) ∧
    (s0.core.stream 0).state = .free ∧ ((slotS 2 .locl).core.stream 0).kind = 2 ∧
    ((slotS 0 .recalled).core.stream 0).state = .recalled ∧ (slotS 0 .recalled).core.heldOverlap 0 ((slotS 0 .recalled).core.stream 0) = false ∧
    8 < (9#5).toNat ∧ (8#5).toNat = 8 ∧ (7#5).toNat < 8 := by
  unfold Spec.permitsAll
  refine ⟨?_, ?_, ?_⟩ <;> decide +kernel

/-- Slot 0 of core 0 over a billet in the scratchpad, with its header; the scratchpad's other bytes are 0. -/
def slotB (k h : Nat) (r : FmtRecord) (s : State) : State :=
  let s1 := streamS 0x08E2AAAAAAAAAC00 16 (if k = 2 then 0x660 else 0) s
  (s1.setStream 0 0 { Spec.opened s1 (BitVec.ofNat 5 k) r with state := .locl }).storeSpad 0 (headerOf 16 0xE2AAAAAAAAAC00 % 2 ^ 48) (bytesLE 2 h)

/-- Billet streams: an `sread` of a level billet and of a corrupt one, a `swrite` that may take the level selector, one gone on with. -/
theorem witness_stream_billets :
    (∀ x ∈ [(0x1B01, levelRec, lvlS), (0x0100, billetRec, bilS)],
      let s := slotB 0 x.1 x.2.1 x.2.2
      let st := s.core.stream 0
      let n := Spec.streamCount s st
      let ins := (List.range n).map (fun i => Spec.streamBillet s st i)
      let rs := (List.range n).flatMap (fun i => st.runs i 0)
      n = 16 ∧ st.kind = 0 ∧ st.state = .locl ∧ st.billets = true ∧ Spec.sew s = 32 ∧ st.pat ≠ 1 ∧
        Spec.permitsAll s (Need.load st.tagged) rs ∧ Spec.unitReady s rs ∧ Spec.levelsAt s.core st.fmt (Spec.levelCodes st.fmt ins) ∧
        (Spec.levelCodes st.fmt ins).length = (if x.1 = 0x1B01 then 16 else 0) ∧
        corruptHeaders st.fmt (ins.zipIdx.map (fun e => (((st.runs e.2 0).headD (0, 0)).1, e.1.header))) =
          (if x.1 = 0x1B01 then [] else [headerOf 16 0xE2AAAAAAAAAC00])) ∧
    (let s := slotB 1 0 levelRec lvlS
     let st := s.core.stream 0
     let n := Spec.streamCount s st
     let cands := if st.sel = 0 then maskSels st.fmt.mask else [st.sel - 4]
     let rs := [(headerOf 16 0xE2AAAAAAAAAC00, 2), (storeOf 16 0xE2AAAAAAAAAC00, 16)]
     n = 16 ∧ st.kind = 1 ∧ st.billets = true ∧ Spec.vl s % st.blen = 0 ∧ 3 ∈ cands ∧ st.fmt.ltab ≠ 0 ∧
       Spec.levelsAt s.core st.fmt (quenchCodes st.family cands) ∧ s.ctx.placed = 0 ∧ Spec.permitsAll s (Need.store st.tagged) rs ∧
       (∀ e ∈ rs, s.pendOf s.focus true e.1 e.2 = none) ∧ room s (rs.map (fun e => (e.1, List.replicate e.2 0))) = true) ∧
    (let s := (slotS 1 .locl).mapCtx (fun x => { x with placed := 1, unplaced := [(0x00FF000000000104, [1, 2, 3, 4])] })
     Spec.streamCount s (s.core.stream 0) ≠ 0 ∧ s.ctx.placed ≠ 0 ∧ room s s.ctx.unplaced = true) := by
  unfold Spec.permitsAll Spec.unitReady Spec.levelsAt
  refine ⟨?_, ?_, ?_⟩ <;> decide +kernel

/-- A vector store whose first element two streams cover. -/
theorem witness_blocked_vector_store :
    (let s1 := streamS 0x00FF000000000100 4 0x20 vmemS
     let s := [0, 1].foldl (fun a i => a.setStream 0 i { Spec.opened s1 0 .zero with state := .locl }) s1
     let f := Spec.unitAt s (s.g 2)
     s.ctx.placed = 0 ∧ Spec.permitsAll s (Need.store (ptrCode (s.g 2) ≠ 0)) (Spec.runs s true f) ∧
       (∀ r ∈ Spec.runs s true f, s.pendOf s.focus true r.1 r.2 = none) ∧
       ((Spec.actives s true).map (fun i => ((f i).toNat, bytesLE 4 (s.ctx.elem 1 i 32)))).head? = some (0x00FF000000000100, [0, 0, 0, 0]) ∧
       s.storeBlocked (bytesAt 0x00FF000000000100 4) = true) ∧
    (let s := vmemS.mapCtx (fun x => { x with placed := 1, unplaced := [(0x00FF000000000104, [1, 2, 3, 4])] })
     s.ctx.placed ≠ 0 ∧ room s s.ctx.unplaced = true) := by
  unfold Spec.permitsAll
  decide +kernel

/-- The event of a stream of core 0, slot 0. -/
def evS (addr : Nat) (s : State) : State := { s with ev := streamEv 0 0 addr }

/-- A floated stream over the mapped page, its context in transit or at its site. -/
def floatS (transit : Bool) : State :=
  let s := mapped (streamS 0x10000 4 0x1120 s0)
  evS 0 (s.setStream 0 0 { Spec.opened s 2 .zero with state := .floated, transit := transit, live := { StreamPos.start with site := 0 } })

theorem witness_stream_event_results :
    (let st := (floatS true).streamAt 0 0
     st.state = .floated ∧ st.transit = true ∧ st.kept ≠ some (floatS true).ev.addr) ∧
    (let s := evS 0 (slotS 2 .locl)
     let st := s.streamAt 0 0
     s.ev.aux = 0 ∧ st.kind = 2 ∧ st.state = .locl ∧ st.pos.prog < st.total ∧ st.pat ≠ 1 ∧
       s.readSegments (s.streamAgent 0 0) (st.runs st.pos.prog 0) = s ∧
       (∀ r ∈ st.runs st.pos.prog 0, r.2 ≠ 0 ∧ s.agentRefused (s.streamAgent 0 0) (Need.load st.tagged) r.1 r.2 = none) ∧
       Spec.unitHas s 0 (st.runs st.pos.prog 0)) ∧
    (let s := evS 0 (slotB 2 0x0100 billetRec bilS)
     let st := s.streamAt 0 0
     let e : BilletIn := { i := 0, header := Spec.unitReads s 0 (headerOf 16 0xE2AAAAAAAAAC00, 2), code := 0 }
     st.kind = 2 ∧ st.state = .locl ∧ st.billets = true ∧ st.pos.prog < st.total ∧ st.pat ≠ 1 ∧ headerCorrupt e.header st.fmt = true ∧
       Spec.levelCodes st.fmt [e] = [] ∧ s.readSegments (s.streamAgent 0 0) (st.runs st.pos.prog 0) = s ∧
       (∀ r ∈ st.runs st.pos.prog 0, r.2 ≠ 0 ∧ topByte r.1 = 0xFF ∧ s.agentRefused (s.streamAgent 0 0) (Need.load st.tagged) r.1 r.2 = none) ∧
       s.core.spadPoison = []) ∧
    (let s := evS 0 (slotB 2 0x1B01 levelRec lvlS)
     let st := s.streamAt 0 0
     let e : BilletIn := { i := 0, header := Spec.unitReads s 0 (headerOf 16 0xE2AAAAAAAAAC00, 2), code := 0 }
     Spec.levelCodes st.fmt [e] = [0] ∧ (tabFind (s.coreAt 0).fmtCache (fmtKey (levelAddr st.fmt 0) 2)).isSome = true) ∧
    (let s := floatS false
     let st := s.streamAt 0 0
     st.transit = false ∧ st.pos.prog < st.total ∧ st.live.site = s.ev.addr ∧
       s.wouldFault (siteDie st.live.site) (spanLines ((st.runs 0 0).filter (fun r => topByte r.1 != 0xFF))) = false) ∧
    (let s := evS 5 (floatS false)
     (s.streamAt 0 0).live.site ≠ s.ev.addr) ∧
    (let s := evS 0 (slotS 2 .locl)
     let u := s.setStream 0 0 { s.streamAt 0 0 with known := { (s.streamAt 0 0).known with prog := 4 } }
     let st := u.streamAt 0 0
     u.ev.aux = 0 ∧ st.state = .locl ∧ st.total ≤ st.pos.prog ∧ st.closing = false ∧ st.res = 0 ∧ st.dest = false) := by
  unfold Spec.unitHas
  refine ⟨?_, ?_, ?_, ?_, ?_, ?_, ?_⟩
  · decide +kernel
  · refine ⟨by decide +kernel, by decide +kernel, by decide +kernel, by decide +kernel, by decide +kernel, by decide +kernel,
      by decide +kernel, ?_⟩
    intro r hr
    rw [if_pos (by revert r; decide +kernel)]
    revert r
    decide +kernel
  · decide +kernel
  · decide +kernel
  · decide +kernel
  · decide +kernel
  · decide +kernel

/-! Witnesses: engine operations, on the scratchpad and, for the signal, on the mapped page. -/

/-- The operation registers of an engine instruction: destination and source in `g1`, `g2`, DW0 to DW3 in `ox0` to `ox3`. -/
def engIssue (ox0 ox2 : Nat) : State :=
  (sr [(1, 0x00FF000000001000), (2, 0x00FF000000002000)]).mapCtx
    (fun x => { x with ox := #v[BitVec.ofNat 64 ox0, 0, BitVec.ofNat 64 ox2, 0, 0, 0, 0, 0] })

theorem witness_engine_issue_results :
    (8 ≤ ((engIssue 0 0).mapCore (fun c => { c with ops := List.replicate 8 (Spec.captured s0 .copy 1 2) })).core.ops.length) ∧
    (let s := engIssue (2 ^ 32) 0
     s.core.ops.length < 8 ∧ (Spec.captured s .copy 1 2).reservedOk = false) ∧
    (let o := Spec.captured (regs [(1, 0x08FF000000001000)] (engIssue (2 ^ 46 + 2 ^ 38 + 4) 0)) .reduce 1 2
     o.reservedOk = true ∧ o.lateRm = true) ∧
    (let o := Spec.captured (engIssue 4 0) .copy 1 2
     o.reservedOk = true ∧ o.fieldsOk = false) ∧
    (let s := engIssue (2 ^ 46 + 2 * 2 ^ 34 + 4) 0
     let o := Spec.captured s .copy 1 2
     let o1 := Spec.typed o (.dense 2) (.dense 2)
     o.reservedOk = true ∧ o.fieldsOk = true ∧ Spec.engineSide s o.dst o.etype (.dense 2) ∧ Spec.engineSide s o.src o.etype (.dense 2) ∧
       o1.typesOk (.dense 2) (.dense 2) = true ∧ o1.lateTrap (.dense 2) (.dense 2) = none ∧ o.lateRm = false) := by
  refine ⟨by decide +kernel, by decide +kernel, by decide +kernel, by decide +kernel, by decide +kernel, by decide +kernel, ?_, ?_,
    by decide +kernel, by decide +kernel, by decide +kernel⟩ <;>
  exact ⟨by decide +kernel, fun _ => by decide +kernel, fun h => absurd (by decide +kernel) h⟩

/-- An operation in flight of core 0 from the scratchpad to the scratchpad. -/
def engOp (kind : EngKind) (ox0 ox2 ox3 t : Nat) : EngOp :=
  { id := 0, kind := kind, ctx := 0, dst := 0x00FF000000001000, src := 0x00FF000000002000, svc := false
    ox := #v[BitVec.ofNat 64 ox0, 0, BitVec.ofNat 64 ox2, BitVec.ofNat 64 ox3]
    recD := FmtRecord.zero, recS := FmtRecord.zero, typeD := t, typeS := t, levels := [], done := 0, phase := 0, crc := 0, crcBack := 0
    flags := 0, err := 0, errDw := 0 }

/-- A state that is about one operation. -/
def engS (o : EngOp) : State :=
  { mapped s0 with ev := { Ev.empty with core := 0, unit := 0 } }.mapCore (fun c => { c with ops := [o] })

theorem spad_reads {n d : Nat} {s : State} (rs : List (Nat × Nat)) (h : ∀ r ∈ rs, r.2 ≠ 0 ∧ topByte r.1 = 0xFF ∧
    ∀ w ∈ wordsTouched (r.1 % 2 ^ 48) r.2, w ∉ (s.coreAt n).spadPoison) :
    Spec.runReads n d s rs (rs.map (fun r => (s.coreAt n).getSpad (r.1 % 2 ^ 48) r.2)) s := by
  induction rs with
  | nil => exact ⟨rfl, rfl⟩
  | cons r rs ih =>
    have hr := h r (List.mem_cons.2 (.inl rfl))
    refine ⟨_, s, _, ?_, rfl, ih (fun q hq => h q (List.mem_cons.2 (.inr hq)))⟩
    rw [if_neg hr.1, if_pos hr.2.1]
    exact ⟨rfl, rfl, hr.2.2⟩

theorem spad_writes {ag : Agent} {s : State} {rs : List (Nat × List Byte)} (h : runLines rs = []) : ∃ u, Spec.runWrites ag s rs u :=
  ⟨_, s, by rw [h]; rfl, rfl⟩

/-- The operations that a first unit of each kind is shown for: copy, quench, decode, gather, scatter, reduce, window sum, conversion. -/
def engKinds : List EngOp :=
  [engOp .copy (2 ^ 46 + 4) 0 0 2, engOp .gather (2 ^ 46 + 4) 0xFF000000003000 4 2, engOp .scatter (2 ^ 46 + 4) 0xFF000000003000 4 2,
   engOp .reduce (2 ^ 46 + 4) 0 0 2, engOp .reduce (2 ^ 46 + 4) 3 0 0, engOp .reduce (2 ^ 46 + 4) 0x13 1 0, engOp .conv (2 ^ 46 + 4) 0 0 10]

/-- Every kind of operation is found, has a unit to do, and its agent may read and write the scratchpad. -/
theorem witness_engine_units : ∀ o ∈ engKinds,
    let s := engS o
    s.ev.aux = 0 ∧ (s.coreAt s.ev.core).findOp s.ev.unit = some o ∧ o.err = 0 ∧ o.done < o.units ∧ (s.coreAt s.ev.core).hostWrites = [] ∧
      s.readSegments (s.engAgent s.ev.core o .engineUnit) [(0xFF000000002000, 4), (0xFF000000001000, 4)] = s ∧
      s.agentRefusedAny (s.engAgent s.ev.core o .engineUnit) o.needSrc [(0xFF000000002000, 4)] = none ∧
      s.agentRefusedAny (s.engAgent s.ev.core o .engineUnit) (Need.store false) [(0xFF000000001000, 4)] = none ∧
      (∀ w ∈ wordsTouched 0x2000 4, w ∉ (s.coreAt s.ev.core).spadPoison) := by decide +kernel

/-- The clauses' own conditions: an index entry that keeps the element in the address space, a record without reserved bits. -/
theorem witness_engine_clauses :
    (let o := engOp .gather (2 ^ 46 + 4) 0xFF000000003000 4 2
     let a : Word := BitVec.ofNat 64 (ptrAddr o.src) + BitVec.ofNat 64 (fromBytesLE (((engS o).coreAt 0).getSpad 0x3000 4)) * o.ox[3]
     0 ≤ a.toInt ∧ a.toInt + o.dstBytes ≤ (2 : Int) ^ 56) ∧
    (let o := engOp .reduce (2 ^ 46 + 4) 0x13 1 0
     o.op = 3 ∧ o.srck ≠ 0 ∧ ∀ k, k < o.rpe → fromBytesLE (((((engS o).coreAt 0).getSpad 0x2000 16).drop (16 * k)).take 16 |>.drop 8) / 2 ^ 16 % 2 ^ 47 = 0) ∧
    (let o := { engOp .copy (2 ^ 46 + 2 ^ 45 + 16) 0 0 10 with recS := billetRec, src := 0x08E2AAAAAAAAAC00 }
     o.conv = 2 ∧ usesLevels o.recS 0 = false ∧ headerCorrupt 0 o.recS = false ∧ o.units ≠ 0 ∧ topByte (headerOf o.payload (ptrAddr o.src)) = 0xFF) ∧
    (let o := { engOp .copy (2 ^ 46 + 2 ^ 44 + 16) 0 0 0 with recD := billetRec, dst := 0x08E2AAAAAAAAAC00, typeS := 10 }
     o.conv = 1 ∧ quenchCodes o.fam o.cands = [] ∧ o.units ≠ 0 ∧ topByte (headerOf o.payload (ptrAddr o.dst)) = 0xFF) ∧
    (let o := { engOp .copy (2 ^ 46 + 2 ^ 43 + 4) 0 0 2 with done := 1 }
     o.units ≤ o.done ∧ o.crcOn = true ∧ o.done < 2 * o.units) := by decide +kernel

theorem witness_engine_unit_results :
    (∃ bs t, Spec.runReads 0 0 (engS (engOp .copy (2 ^ 46 + 4) 0 0 2)) [(0xFF000000002000, 4)] bs t) ∧
    (∃ u, Spec.runWrites ((engS (engOp .copy (2 ^ 46 + 4) 0 0 2)).engAgent 0 (engOp .copy (2 ^ 46 + 4) 0 0 2) .engineUnit)
      (engS (engOp .copy (2 ^ 46 + 4) 0 0 2)) [(0xFF000000001000, [0, 0, 0, 0])] u) :=
  ⟨⟨_, _, spad_reads _ (by decide +kernel)⟩, spad_writes (by decide +kernel)⟩

/-- Completions: quiet without a signal; with a signal on the mapped page; with a CRC that agrees and one that does not. -/
theorem witness_engine_completion_results :
    (let o := engOp .copy (2 ^ 46 + 4) 0 0 2
     let s := engS o
     (s.coreAt 0).findOp s.ev.unit = some o ∧ o.phase = 0 ∧ (s.coreAt 0).hostWrites = [] ∧ o.crcOn = false ∧ o.cmode = 1) ∧
    (let o := { engOp .copy (2 ^ 47 + 4) 0 0 2 with ox := #v[2 ^ 47 + 4, 0x10000, 0, 0] }
     let s := engS o
     o.cmode ≠ 1 ∧ s.ev.aux = 0 ∧ s.readSegments (s.engAgent 0 o .engineCompletion) [(o.sig, 8)] = s ∧ s.agentRefused (s.engAgent 0 o .engineCompletion) (Need.both false) o.sig 8 = none ∧
       (match (s.homeLine (s.engAgent 0 o .engineCompletion).die o.sig none).1 with
        | .line _ l _ => !l.poisoned (o.sig % 64) 8
        | _ => false) = true) ∧
    (let o := engOp .copy (2 ^ 46 + 2 ^ 43 + 4) 0 0 2
     ¬ (o.err ≠ 0 ∨ o.crcOn = false ∨ o.count = 0) ∧ o.crc = o.crcBack ∧
       (engS o).readSegments ((engS o).engAgent 0 o .engineCompletion) [(o.crcAddr, 8)] = engS o ∧
       (engS o).agentRefused ((engS o).engAgent 0 o .engineCompletion) (Need.store (ptrCode o.dst ≠ 0)) o.crcAddr 8 = none ∧
       runLines [(o.crcAddr, bytesLE 8 o.crc.toNat)] = []) ∧
    (let o := { engOp .copy (2 ^ 46 + 2 ^ 43 + 4) 0 0 2 with crc := 1 }
     ¬ (o.err ≠ 0 ∨ o.crcOn = false ∨ o.count = 0) ∧ o.crc ≠ o.crcBack) ∧
    (let o := { engOp .copy (2 ^ 46 + 4) 0 0 2 with phase := 2 }
     let s := (engS o).mapCore (fun c => { c with hostWrites := [1] })
     o.phase = 2 ∧ (s.coreAt 0).hostWrites ≠ []) := by decide +kernel

/-! Witnesses: the matrix unit. -/

/-- A command image: code, K, control bits of DW0, and DW1 to DW3. -/
def mxCmd (opc k ctl dw1 dw2 dw3 : Nat) : MxCmd :=
  { image := [BitVec.ofNat 64 (opc * 2 ^ 56 + k * 2 ^ 24 + ctl), BitVec.ofNat 64 dw1, BitVec.ofNat 64 dw2, BitVec.ofNat 64 dw3, 0, 0, 0, 0]
    ctx := 0, rm := 0, svc := false }

/-- Core 0 with commands in its matrix queue, rings 0 and 1 of two tiles of 2048 bytes holding one tile each, and ring 2 with no tile. -/
def mxS (started : Bool) (q : List MxCmd) : State :=
  ({ s0 with ev := { Ev.empty with core := 0 } }.onMx 0 (fun m =>
    ((({ m with queue := q, started := started }).setRing 0 { cap := 2, tsize := 2048, base := 0, head := 0, tail := 1, fill := 1 }).setRing 1
      { cap := 2, tsize := 2048, base := 4096, head := 0, tail := 1, fill := 1 }).setRing 2
      { cap := 2, tsize := 2048, base := 8192, head := 0, tail := 0, fill := 0 })).mapCore (fun c =>
        { c with fmtCache := [(32, 0x1901), (40, 0), (48, 0), (56, 0)] })

theorem witness_matrix_instruction_results :
    (32 ≤ (mxS false (List.replicate 32 (mxCmd 1 0 0 0 0 0))).core.mx.queue.length ∧ (mxS false [mxCmd 1 0 0 0 0 0]).core.mx.queue.length < 32 ∧
      (mxS false []).core.mx.queue = [] ∧ (s0.ctx.cidx = 0 ∨ (7#5).toNat < 8)) ∧
    ((s0.core.mx.ring 0).cap = 0 ∧ (let s := regs [(1, 1)] (mxS false [])
      (s.core.mx.ring 0).cap ≠ 0 ∧ (s.g 1).toNat ≠ 0 ∧ (s.core.mx.ring 0).fill + (s.g 1).toNat ≤ (s.core.mx.ring 0).cap) ∧
      (let s := regs [(1, 2)] (mxS false [])
       (s.core.mx.ring 0).cap < (s.core.mx.ring 0).fill + (s.g 1).toNat) ∧ s0.core.mx.wait ≠ .tile ∧
      (s0.onMx 0 (fun m => { m with wait := .tile })).core.mx.wait = .tile) ∧
    (let v : Word := BitVec.ofNat 64 (2 * 2 ^ 40 + 64 * 2 ^ 24)
     fieldOf v 52 12 = 0 ∧ fieldOf v 19 5 = 0 ∧ fieldOf v 0 19 + fieldOf v 40 12 * fieldOf v 24 16 ≤ 0x80000 ∧ fieldOf v 40 12 ≠ 0 ∧
       fieldOf v 24 16 % 64 = 0 ∧ 64 ≤ fieldOf v 24 16 ∧ fieldOf v 24 16 ≤ 32768 ∧ fieldOf v 0 19 % 64 = 0 ∧
       (mxS false []).core.mx.queue.any (fun h => h.names 0) = false) ∧
    ((mxS false [mxCmd 2 1 0x1000 0 0 0]).core.mx.queue.any (fun h => h.names 0) = true ∧ fieldOf (2 ^ 52 : Word) 52 12 ≠ 0) := by decide +kernel

/-- Each command of one unit at the head of a queue, with the side conditions of its clauses. -/
theorem witness_matrix_command_results :
    (∀ o ∈ [1, 9, 10, 11, 6, 12, 13], Spec.mxCommand (mxS false [mxCmd o 0 (if o = 13 then 1 else 0) 0 0 0]) 0 o (mxCmd o 0 (if o = 13 then 1 else 0) 0 0 0)) ∧
    ((s0.core.mx.accAt 0).spec = false ∧ ((s0.onMx 0 (fun m => m.setAcc 0 { m.accAt 0 with spec := true })).core.mx.accAt 0).spec = true) ∧
    (let h := mxCmd 6 0 0 0 0x100 128
     h.f0 30 2 ≠ 3 ∧ h.f0 27 3 = 0 ∧ ∀ i, i < 32 → Spec.mcvtAt h i % Spec.mcvtSize h = 0 ∧ 0 ≤ Spec.mcvtAt h i ∧
       Spec.mcvtAt h i + 32 * Spec.mcvtSize h ≤ 0x80000) ∧
    ((s0.coreAt 0).hostWrites = [] ∧ (s0.mapCore (fun c => { c with hostWrites := [1] })).core.hostWrites ≠ []) ∧
    (let h := mxCmd 13 0 2 0x10000 1 0
     let s := mapped (mxS false [h])
     let b := (Spec.mxTurn s 0).mxStart 0 FmtRecord.zero FmtRecord.zero 0
     Spec.mxCommand s 0 13 h ∧ 2 ≤ h.f0 0 2 ∧ ptrCode (h.dw 1) = 0 ∧ ptrBlc (h.dw 1) ≤ 3 ∧ (h.dw 1).toNat % 8 = 0 ∧
       topByte (ptrAddr (h.dw 1)) ≠ 0xFF ∧ s.ev.aux = 0 ∧ s.core.mx.sig = 0 ∧
       b.readSegments (b.mxAgent 0 h .msignal 0) [(ptrAddr (h.dw 1), 8)] = b ∧ b.agentRefused (b.mxAgent 0 h .msignal 0) (Need.both false) (ptrAddr (h.dw 1)) 8 = none ∧
       (match (b.homeLine (dieOfCore 0) (ptrAddr (h.dw 1)) none).1 with
        | .line _ l _ => !l.poisoned (ptrAddr (h.dw 1) % 64) 8
        | _ => false) = true) ∧
    (∀ sig ∈ [1, 2], let h := mxCmd 13 0 2 0x10000 1 0
     let s := ((mxS false [h]).onMx 0 (fun m => { m with sig := sig })).mapCore (fun c => { c with hostWrites := if sig = 1 then [1] else [] })
     Spec.mxCommand s 0 13 h ∧ s.core.mx.sig = sig ∧ (sig = 1 → s.core.hostWrites ≠ []) ∧ (sig = 2 → s.core.hostWrites = [])) ∧
    (let s := mxS true [mxCmd 2 1 0x1000 0 0 0]
     let h := mxCmd 2 1 0x1000 0 0 0
     s.core.mx.queue = h :: [] ∧ s.core.mx.started = true ∧ h.opc = 2 ∧ h.ra ≠ h.rb ∧ (s.core.mx.ring h.ra).cap ≠ 0 ∧ (s.core.mx.ring h.rb).cap ≠ 0) ∧
    ((mxCmd 3 1 0 0 0 0).opc = 3 ∧ (mxCmd 3 1 0 0 0 0).f0 21 1 = 0 ∧ (mxCmd 4 1 0 0 0 0).opc = 4 ∧ (mxCmd 1 0 0 0 0 0).opc ∉ [2, 3, 4]) := by
  unfold Spec.mxCommand; decide +kernel

/-- Two dense I8 operands in rings 0 and 1. -/
def mmaCmd : MxCmd := mxCmd 2 1 0x1000 0 0 0

/-- The starts of `mma` and `mmab`. -/
theorem witness_matrix_starts :
    (Spec.mxCommand (mxS false [mmaCmd]) 0 2 mmaCmd ∧ Spec.mxDescribes (mxS false [mmaCmd]).core (fieldOf (mmaCmd.dw 1) 48 16) (.dense 0) ∧
      MxOperand.ok (.dense 0) = true ∧ MxOperand.pairs (.dense 0) (.dense 0) = true ∧ mmaCmd.k ≠ 0 ∧ mmaCmd.ra ≠ mmaCmd.rb ∧
      (mxS false [mmaCmd]).core.busBad (posOfCore 0) mmaCmd = false ∧ Spec.ringFits (mxS false [mmaCmd]).core.mx mmaCmd.ra 2048 mmaCmd.k ∧
      Spec.ringFits (mxS false [mmaCmd]).core.mx mmaCmd.rb 2048 mmaCmd.k) ∧
    (let h := mxCmd 3 1 0 0 0x00FF000000010000 64
     Spec.mxCommand (mxS false [h]) 0 3 h ∧ Spec.mxPoints (mxS false [h]).core (h.dw 2) (fieldOf (h.dw 1) 32 16) (.dense 0) ∧
       MxOperand.memOk (.dense 0) h = true) := by
  refine ⟨⟨by unfold Spec.mxCommand; decide +kernel, ⟨by decide +kernel, fun _ => by decide +kernel, fun h => absurd (by decide +kernel) h⟩,
      by decide +kernel, by decide +kernel, by decide +kernel, by decide +kernel, by decide +kernel, by unfold Spec.ringFits; decide +kernel,
      by unfold Spec.ringFits; decide +kernel⟩,
    by unfold Spec.mxCommand; decide +kernel, ⟨by decide +kernel, by decide +kernel, fun _ => by decide +kernel, fun h => absurd (by decide +kernel) h⟩,
    by decide +kernel⟩

/-- A step of `mma` with both tiles there, and one that waits for a tile. -/
theorem witness_matrix_steps :
    (let s := mxS true [mmaCmd]
     let m := s.core.mx
     m.queue.head? = some mmaCmd ∧ m.started = true ∧ m.kprog = s.ev.unit ∧ m.kprog < mmaCmd.k ∧ mmaCmd.bus = false ∧ mmaCmd.bcast = false ∧
       m.kprog < (m.ring mmaCmd.ra).fill ∧ m.kprog < (m.ring mmaCmd.rb).fill ∧
       Spec.levelsReady s.core (m.opA mmaCmd) (Spec.linesA s.core mmaCmd) ∧
       Spec.levelsReady s.core (m.opB mmaCmd) ((Spec.tileB s.core mmaCmd).lines (m.opB mmaCmd))) ∧
    (let h := mxCmd 2 1 0x21000 0 0 0
     let m := (mxS true [h]).core.mx
     m.queue.head? = some h ∧ m.started = true ∧ (m.ring h.ra).fill ≤ m.kprog) := by
  unfold Spec.levelsReady Spec.levelsAt; decide +kernel

/-- A step over billets: the first of A is a level billet whose entry is cached, or has a corrupt header. -/
theorem witness_matrix_billet_step :
    ∀ x ∈ [(0x1B01, levelRec, [0], (0 : Flags)), (0x0100, billetRec, [], flagBFLT)],
      let cmd := mxCmd 2 1 0x1000 (0x0800 * 2 ^ 48 + 0x0800 * 2 ^ 32) 0 0
      let s := (((mxS true [cmd]).onMx 0 (fun m => { m with recA := x.2.1, recB := x.2.1 })).mapCore (fun c =>
        { c with fmtCache := lvlS.core.fmtCache })).storeSpad 0 0 (bytesLE 2 x.1)
      let m := s.core.mx
      let ta := Spec.linesA s.core cmd
      let tb := (Spec.tileB s.core cmd).lines (m.opB cmd)
      m.opA cmd = .billet x.2.1 .billet8 0 ∧ m.opB cmd = .billet x.2.1 .billet8 0 ∧ m.kprog < (m.ring cmd.ra).fill ∧
        m.kprog < (m.ring cmd.rb).fill ∧ Spec.mxCodes (m.opA cmd) ta = x.2.2.1 ∧ Spec.mxFlags (m.opA cmd) ta = x.2.2.2 ∧
        Spec.levelsReady s.core (m.opA cmd) ta ∧ Spec.levelsReady s.core (m.opB cmd) tb := by
  unfold Spec.levelsReady Spec.levelsAt; decide +kernel

/-- The bus: a group that finds no source ready, and one whose source is this core with its tile there. -/
def busCmd : MxCmd := mxCmd 2 1 (0x1000 + 2 ^ 23) 0 0 0
def bcastCmd : MxCmd := mxCmd 2 1 (0x1000 + 2 ^ 22) 0 0 0

theorem witness_matrix_bus :
    (let s := mxS true [busCmd]
     busCmd.bus = true ∧ s.core.mx.kprog < (s.core.mx.ring busCmd.ra).fill ∧
       ((Spec.mxTurn s 0).onMx 0 (fun m => { m with wait := .tile })).busSource (clusterOfCore 0) = none) ∧
    (let s := (mxS true [bcastCmd]).onMx 0 (fun m => { m with group := 2 ^ 63 + 1 })
     let u := (Spec.mxTurn s 0).onMx 0 (fun m => { m with wait := .tile })
     bcastCmd.bcast = true ∧ u.busSource (clusterOfCore 0) = some 0 ∧ (u.coreAt 0).mx.queue.head? = some bcastCmd ∧
       (∀ p ∈ 0 :: busMembers 0 (u.coreAt 0).mx.group, (u.coreAt p).mx.group = (u.coreAt 0).mx.group) ∧
       (Spec.tileB (u.coreAt 0) bcastCmd).bad = [] ∧
       (∀ p ∈ 0 :: busMembers 0 (u.coreAt 0).mx.group, ∀ hp ∈ (u.coreAt p).mx.queue.head?,
         ((u.coreAt p).mx.opB hp).ts ≤ (Spec.tileB (u.coreAt 0) bcastCmd).size ∧
         Spec.levelsReady (u.coreAt p) ((u.coreAt p).mx.opA hp) (Spec.linesA (u.coreAt p) hp) ∧
         Spec.levelsReady (u.coreAt p) ((u.coreAt p).mx.opB hp) ((Spec.tileB (u.coreAt 0) bcastCmd).lines ((u.coreAt p).mx.opB hp)))) := by
  unfold Spec.levelsReady Spec.levelsAt; decide +kernel

/-- A step of `mmab` whose memory operand lies in the scratchpad. -/
def mmabCmd : MxCmd := mxCmd 3 1 0 0 0x00FF000000010000 64

theorem witness_matrix_memory_step :
    (let s := mxS true [mmabCmd]
     let b := s.core.mx.opB mmabCmd
     let runs := (List.range 32).flatMap (fun i => (List.range b.blocks).flatMap (fun kb => b.memRuns mmabCmd 0 i kb))
     let rs := runs.map (fun r => (r.1.toNat, r.2))
     (∀ r ∈ runs, 0 ≤ r.1 ∧ r.1 + r.2 ≤ (2 : Int) ^ 56) ∧ s.ev.aux = 0 ∧
       (Spec.mxTurn s 0).readSegments (s.mxAgent 0 mmabCmd .mmaStep 0) rs = Spec.mxTurn s 0 ∧
       (Spec.mxTurn s 0).agentRefusedAny (s.mxAgent 0 mmabCmd .mmaStep 0) (Need.load (ptrCode (mmabCmd.dw 2) ≠ 0)) rs = none ∧
       (∀ r ∈ rs, r.2 ≠ 0 ∧ topByte r.1 = 0xFF ∧ ∀ w ∈ wordsTouched (r.1 % 2 ^ 48) r.2, w ∉ ((Spec.mxTurn s 0).coreAt 0).spadPoison)) ∧
    (((Spec.mxTurn (mxS true [mmabCmd]) 0).coreAt 0).spad = (mxS true [mmabCmd]).core.spad) := by decide +kernel

/-- The commands that go row by row: their starts. -/
theorem witness_matrix_memory_starts :
    (let h := mxCmd 4 0 0x20000 0 0x00FF000000010000 64
     let m := (mxS false [h]).core.mx
     Spec.mxCommand (mxS false [h]) 0 4 h ∧ m.started = false ∧ Spec.mxPoints (mxS false [h]).core (h.dw 2) (fieldOf (h.dw 1) 48 16) (.dense 0) ∧
       MxOperand.memOk (.dense 0) h = true ∧ (m.ring h.ra).cap ≠ 0 ∧ 2048 ≤ (m.ring h.ra).tsize ∧ (m.ring h.ra).fill ≠ (m.ring h.ra).cap) ∧
    (let h := mxCmd 5 0 0 0 0x08E2AAAAAAAAAC00 32
     Spec.mxCommand (mxS false [h]) 0 5 h ∧
       Spec.mxNames (mxS false [h]).core (ptrCode (h.dw 2)) (ptrBlc (h.dw 2)) 0 (.billet billetRec .billet8 0) ∧ h.f0 0 3 = 0 ∧
       ptrAddr (h.dw 2) % Family.billet8.payload (blenOf 0) = 0 ∧ h.stride % Family.billet8.payload (blenOf 0) = 0) ∧
    (∀ o ∈ [7, 8], let h := mxCmd o 0 0 0 0x00FF000000078000 0
     Spec.mxCommand (mxS false [h]) 0 o h ∧ ptrCode (h.dw 2) = 0 ∧ ptrBlc (h.dw 2) ≤ 3 ∧ ptrAddr (h.dw 2) % 32 = 0 ∧
       ptrAddr (h.dw 2) % 2 ^ 48 + 32768 ≤ 0x80000) := by
  refine ⟨⟨by unfold Spec.mxCommand; decide +kernel, by decide +kernel,
      ⟨by decide +kernel, by decide +kernel, fun _ => by decide +kernel, fun h => absurd (by decide +kernel) h⟩, by decide +kernel,
      by decide +kernel, by decide +kernel, by decide +kernel⟩,
    ⟨by unfold Spec.mxCommand; decide +kernel, ⟨by decide +kernel, fun h => absurd h (by decide +kernel), fun _ => ⟨rfl, billetRec, .billet8,
      by decide +kernel, by decide +kernel, by decide +kernel⟩⟩, by decide +kernel, by decide +kernel, by decide +kernel⟩,
    by unfold Spec.mxCommand; decide +kernel⟩

/-- The commands that go row by row: a row of each, the memory side in the scratchpad. -/
theorem witness_matrix_rows :
    (∀ o ∈ [4, 5, 7, 8], let h := mxCmd o 0 0x20000 0 0x00FF000000010000 64
     let s := mxS true [h]
     s.core.mx.queue.head? = some h ∧ h.opc = o ∧ s.core.mx.started = true ∧ s.core.mx.kprog = s.ev.unit ∧ s.core.mx.kprog < 32 ∧ s.ev.aux = 0 ∧
       (Spec.mxTurn s 0).readSegments (s.mxAgent 0 h (mxRow o) 0) [(0xFF000000010000, 1024)] = Spec.mxTurn s 0 ∧
       (Spec.mxTurn s 0).agentRefusedAny (s.mxAgent 0 h (mxRow o) 0) (Need.load (ptrCode (h.dw 2) ≠ 0)) [(0xFF000000010000, 1024)] = none ∧
       (Spec.mxTurn s 0).agentRefusedAny (s.mxAgent 0 h (mxRow o) 0) (Need.store (ptrCode (h.dw 2) ≠ 0)) [(0xFF000000010000, 1024)] = none ∧
       ptrAddr (h.dw 2) + 1024 * s.core.mx.kprog + 1024 ≤ 2 ^ 56) ∧
    (∃ bs u, Spec.runReads 0 0 (mxS true [mmabCmd]) [(0xFF000000010000, 1024)] bs u) ∧
    (operandOf 1 0 0 billetRec = .billet billetRec .billet8 0 ∧ 3 ∉ maskSels billetRec.mask ∧ quenchCodes .billet8 (maskSels billetRec.mask) = [] ∧
      ∀ kb, kb < 2 → storeOf 16 (0xE2AAAAAAAAAC00 + kb * 16) + 16 ≤ 2 ^ 56 ∧ topByte (headerOf 16 (0xE2AAAAAAAAAC00 + kb * 16)) = 0xFF) :=
  ⟨by decide +kernel, ⟨_, _, spad_reads _ (by decide +kernel)⟩, by decide +kernel⟩

/-! Witnesses: messages, the event unit and scheduling. -/

/-- A launch record of one cell whose map and done signal lie on the mapped page, with the tuner on context 0 of core 0 (R335, R336). -/
def recS : List Word :=
  [0x10000, 5, 0x100000001, 0x100000001, 0x100000001, 0x100000001, 0x100000001, 0x100000001, 0x10000, 0x10008, 0, 0, 0, 0, 0x400E4000, 0]

def sched0 : Schedule := { order := 0xE4, tile := [1, 1, 1, 1], place := 0 }

def launch0 : Launch :=
  { queue := 0, record := recS, sched := sched0, staged := sched0, gen := 0, cursors := [], nextToken := 1, tokens := [], complete := false
    jobDl := 0, inLaunch := List.range 16, serving := none, held := [], num := 1 }

def task0 : Task := { part := 0, key := 0, tile := none, sent := 0, received := 0, ending := false, handed := false }

/-- The mapped state with partition 0 over cluster 0, endpoint 1 with management rights, and queue 0 of endpoint 1 (R338, R412). -/
def partS : State :=
  (((words [(0x6000, 1), (0x6020, 2 ^ 16), (0x6028, 0xFFFF), (0x6038, 0x100000), (0x7008, 3 * 2 ^ 62), (0x8000, 2 ^ 63 + 2 ^ 48)]
    (mapped s0)).setDieReg 0 0x108 0x6000).setDieReg 0 0x310 0x7000).setDieReg 0 0x318 0x8000

/-- As `partS`, with the launch of partition 0 and its task on core 0. -/
def launchS : State :=
  (partS.mapCore (fun c => { c with task := some task0 })).onPart 0 (fun p => { p with launch := some launch0 })

/-- Receive ring 0 of core 0 configured with 4 slots from scratchpad offset 0x1000 (R245). -/
def withRing (s : State) : State := s.mapCore (fun c => c.putSpad 0x7FF00 (bytesLE 8 (4 * 2 ^ 40 + 0x1000)))

/-- The message of an event: from core 0 to ring 0 of core 0. -/
def msg0 (seq : Nat) : Msg := { key := 0, sender := 0, ctx := 0, part := 0, dest := 0, ring := 0, seq := seq, data := [1] }

theorem witness_send :
    ((sr [(1, 0x8000)]).g 1).getLsbD 15 = true ∧ fieldOf ((sr [(1, 2 ^ 19)]).g 1) 19 45 ≠ 0 ∧
    (let w := (sr [(1, 4031)]).g 1
     w.getLsbD 15 = false ∧ fieldOf w 19 45 = 0 ∧ fieldOf w 0 12 < 4032) ∧
    (s0.core.task = none ∧ launchS.core.task = some task0 ∧ launchS.partHolds 0 (15 / 16) = true ∧ launchS.partHolds 0 (16 / 16) = false ∧
      launchS.core.unaccepted < 8 ∧ launchS.core.retry = []) := by decide +kernel

theorem witness_recv_and_inbox :
    (s0.core.ringCap 0 = 0 ∧ (withRing s0).core.ringCap 0 = 4 ∧ ((withRing s0).core.msgRing 0).fill = 0 ∧
      (let s := (withRing s0).mapCore (fun c => { c with rings := c.rings.set 0 { head := 0, tail := 1, fill := 1 } })
       (s.core.msgRing 0).fill ≠ 0 ∧ ∀ w ∈ wordsTouched (s.core.slotOff 0 0) 72, w ∉ s.core.spadPoison)) ∧
    (s0.core.inbox.find? (fun x => x.ctx == 0) = none ∧
      (let e : InboxEntry := { ctx := 0, agent := 0x12, dw0 := 1, dw1 := 2 }
       (s0.mapCore (fun c => { c with inbox := [e] })).core.inbox.find? (fun x => x.ctx == 0) = some e ∧
       ((s0.mapCore (fun c => { c with inbox := [e] })).mapCtx (fun x => { x with uliStat := 1 })).core.uliDue 0 = true)) ∧
    (s0.ctx.uliStat.getLsbD 1 = false ∧ (s0.mapCtx (fun x => { x with uliStat := 2 })).ctx.uliStat.getLsbD 1 = true) := by decide +kernel

theorem witness_message_events :
    (let s := { withRing launchS with ev := (msg0 0).toEv }
     let m := s.ev.toMsg
     s.reach (dieOfCore m.sender) (dieOfCore m.dest) false = none ∧ (s.partAt m.part).switchedOut = false ∧ (s.partAt m.part).saved = [] ∧
       (s.coreAt m.dest).task = some task0 ∧ task0.part = m.part ∧ m.seq = tabGet 0 (s.coreAt m.dest).expected (m.key * 8 + m.ring) ∧
       ((s.coreAt m.dest).msgRing m.ring).fill < (s.coreAt m.dest).ringCap m.ring ∧ m.ring < 8 ∧
       ((s.coreAt m.dest).msgRing m.ring).tail < (s.coreAt m.dest).ringCap m.ring ∧ m.data.length ≤ 8) ∧
    ((launchS.coreAt 0).ringCap 0 ≤ ((launchS.coreAt 0).msgRing 0).fill) ∧
    ((msg0 1).seq ≠ 0 ∧ (launchS.coreAt 0).reorder.length < 64 ∧
      64 ≤ (launchS.mapCore (fun c => { c with reorder := List.replicate 64 (msg0 2) })).core.reorder.length) ∧
    ({ s0 with ev := { Ev.empty with unit := 7 } }.ev.unit < 8 ∧ Ev.empty.flag = false) ∧
    (let m : TrapMsg := { pos := 0, cause := 7, detail := 0, pc := 0, word := 0, addr := 0 }
     let s := withChain (s0.mapCtx (fun x => { x with fwd := some m, wait := some { why := .trapReply, ir := 0 } }))
     (s.ctxAt 0 0).fwd = some m ∧ (s.ctxAt 0 0).wait = some { why := .trapReply, ir := 0 } ∧ m.pos < 1 ∧
       (s.chainMember (clusterOfCore 0) 1) = some 7) := by decide +kernel

/-- Core 0's control context waits at an event-unit word, with a limit or without. -/
def euS (lim : Option Word) (s : State) : State := { s with ev := { Ev.empty with core := 0 } }.mapCtx (fun x =>
  { x with wait := some { why := .window 8 lim, ir := 0 } })

/-- Barrier 0 of cluster 0 enabled at a level, with core 0 alone in its domain. -/
def barS (arrived : Bool) (s : State) : State :=
  (s.mapCore (fun c => { c with domCl := 1 })).onBarrier 0 0 (fun x => { x with en := true, arrivals := if arrived then [(0, 0)] else [] })

theorem witness_waitt :
    Spec.pointerOk (sr [(2, 0xFF000000200008)]) 0xFF000000200008 ∧ Spec.reaches 0xFF000000200008 0 8 0xFF000000200008 ∧
    windowOf 0 0xFF000000200008 = .unit 8 ∧ euWord 8 = some (.arrive 0) ∧ euWord 0x1E8 = some (.arrive 15) ∧ euWord 0x1F0 = some (.wait 15) ∧
    euWord 0x10F0 = some (.lock 15) ∧ euWord 0x10F8 = some (.try 15) ∧ euWord 0x21F0 = some (.evt 31) ∧ euWord 0x2200 = none ∧
    windowOf 0 0xFF000000110000 = .ring 0 :=
  ⟨⟨by decide +kernel, .inl (by decide +kernel)⟩, ⟨by decide, by decide⟩, by decide, by decide, by decide, by decide, by decide, by decide,
    by decide, by decide, by decide⟩

theorem witness_event_unit :
    ((euS none s0).ctxAt 0 0).euWait = some (8, none) ∧ fieldOf (3 * 2 ^ 59 : Word) 59 3 < 4 ∧
    limitPassed (some 5) 6 = true ∧ limitPassed (some 6) 6 = false ∧ (euS (some 0) s0).euUnderWay .arriveLoad 0 0 = false ∧
    ((euS (some 0) s0).post .arriveLoad (Ev.ofCtx 0 0)).euUnderWay .arriveLoad 0 0 = true ∧
    (let s := euS none (barS false s0)
     let x := (s.clusterAt 0).barrier 0
     (s.coreAt 0).domCl.getLsbD 0 = true ∧ x.en = true ∧ x.brk = false ∧ x.hasArrived 0 0 = false ∧ (s.coreAt 0).masks.holds 0 x.level = true ∧
       (x.own.getD (s.coreAt 0).masks).agree (s.coreAt 0).masks x.level = true ∧
       (s.release 0 (levelScope x.level)).releaseWaits 0 0 (levelScope x.level) = false) ∧
    (((euS none (barS true s0)).clusterAt 0).barrier 0).hasArrived 0 0 = true := by decide +kernel

theorem witness_mutexes_and_events :
    ((s0.clusterAt 0).mutex 0).broken = false ∧ ((s0.clusterAt 0).mutex 0).holder = none ∧
    (let s := euS none (s0.onMutex 0 0 (fun y => { y with holder := some (0, 0) }))
     ((s.clusterAt 0).mutex 0).holder = some (0, 0) ∧ ((s.clusterAt 0).mutex 0).queue = [] ∧ (s.release 0 .cluster).releaseWaits 0 0 .cluster = false) ∧
    (let w : EuWaiter := { pos := 0, ctx := 1, off := 0x1000 }
     let s := (euS none (s0.onMutex 0 0 (fun y => { y with holder := some (0, 0), queue := [w] }))).onCtx 0 1 (fun x =>
       { x with life := .live, wait := some { why := .window 0x1000 none, ir := 0 } })
     ((s.clusterAt 0).mutex 0).queue = [w] ∧ (((s.release 0 .cluster).answer 0 0 none).ctxAt 0 1).euWait = some (0x1000, none)) ∧
    ((s0.onMutex 0 0 (fun y => { y with holder := some (1, 0) })).clusterAt 0 |>.mutex 0).holder ≠ some (0, 0) ∧
    ((s0.clusterAt 0).event 0).broken = false ∧ ((s0.clusterAt 0).event 0).set = false ∧
    ((s0.onEvent 0 0 (fun y => { y with set := true })).clusterAt 0 |>.event 0).set = true := by decide +kernel

theorem witness_barrier_messages :
    (let s := { barS false s0 with ev := barrierMsg 0 1 0 0 { cl := 1, die := 3, pkg := 1, fab := 0 } false }
     s.reachOneWay (dieOfCluster s.ev.core) (dieOfCluster s.ev.addr) false = none ∧ s.ev.flag = false ∧
       (((s.clusterAt 0).barrier 0).own.getD s.ev.masks).agree s.ev.masks ((s.clusterAt 0).barrier 0).level = true) ∧
    (let s := s0.mapCore (fun c => { c with domCl := 1, domDie := 1, domPkg := 1, domFab := 2 * 2 ^ 36 })
     let m := s.core.masks
     s.fabricSaved 0 = none ∧ s.fabricMasks 0 = some m ∧ (1 : Nat) ≠ 0 ∧ 1 < fieldOf m.fab 36 12 ∧ fieldOf m.fab 24 12 = 0 ∧ ((s.clusterAt m.pkgRoot).barrier 0).gen.toNat = 0) ∧
    (let m : DomMasks := { cl := 1, die := 1, pkg := 1, fab := 0 }
     let x := Spec.arrivedAt 0 0 m { (s0.clusterAt 0).barrier 0 with en := true }
     x.own = some m ∧ x.brk = false ∧ x.partDone m 0 = true ∧ m.parent x.level 0 = none ∧ x.level ≠ 3) ∧
    (let m : DomMasks := { cl := 1, die := 3, pkg := 1, fab := 0 }
     m.parent 1 1 = some 0) := by decide +kernel

/-- The launch of core 0 waits at the dispenser. -/
def dispS (v : Word) : State :=
  { launchS with ev := { Ev.empty with val := v, data := [0] } }.mapCtx (fun x => { x with wait := some { why := .dispenser, ir := 0 } })

theorem witness_scheduling_results :
    (s0.core.task = none ∧ launchS.core.task = some task0 ∧ (launchS.partAt task0.part).launch = some launch0) ∧
    ((27#5).toNat ≤ 27 ∧ ¬ (28#5).toNat ≤ 27 ∧ task0.tile = none ∧ launchS.ctx.cidx = 0 ∧ (asHelper 1 launchS).ctx.cidx ≠ 0) ∧
    ((8#12).toNat ≤ 8 ∧ 8 < (9#12).toNat ∧ (7#12).toNat ∈ [0, 1, 2, 7] ∧ (3#12).toNat ∉ [0, 1, 2, 7]) ∧
    ((recCtl recS).getLsbD 30 = true ∧ fieldOf (recCtl recS) 32 12 = launchS.focus ∧ fieldOf (recCtl recS) 44 4 = launchS.ctx.cidx ∧
      launchS.reachOneWay (dieOfCore launchS.focus) (launchS.leadDie 0) false = none) ∧
    Spec.releasedOk launchS .rel .system ∧ Spec.releasedOk launchS .rel .package ∧
    (let s := dispS 0
     (s.ctxAt 0 0).wait = some { why := .dispenser, ir := 0 } ∧ s.ev.data = [(0 : BitVec 32).setWidth 64] ∧ (s.coreAt 0).task = some task0 ∧
       launch0.serving = none ∧ s.reach (dieOfCore 0) (s.leadDie 0) false = none ∧
       s.unpromised 0 (clusterOfCore 0) = 0) ∧
    ({ launch0 with serving := some (.dispenserTnext, 1, 0) }.serving = some (.dispenserTnext, 1, 0) ∧ (1 : Nat) ≠ 0) ∧
    ((∀ k, k < 4 → sched0.tileExt k ≠ 0 ∧ recQuad recS 4 k ∣ sched0.tileExt k) ∧ sched0.place / 16 % 4 ≠ 3 ∧ (dispS 0).partSet 0 (sched0.place % 8) ≠ 0) ∧
    (let v : Saved := { slot := 16, reason := 0, cluster := 0, pos := 0, addr := 0, ready := true, order := 0, image := Core.reset }
     0 < ((dispS 0).onPart 0 (fun p => { p with saved := [v] })).unpromised 0 (clusterOfCore 0)) := by
  unfold Spec.releasedOk
  refine ⟨by decide +kernel, by decide +kernel, by decide +kernel, by decide +kernel, fun _ => by decide +kernel, fun _ => by decide +kernel,
    by decide +kernel, by decide +kernel, by decide +kernel, by decide +kernel⟩

/-- A map read at its home: the reads of `gives_line` for one run of one line. -/
theorem one_line_read {s : State} {d a n off : Nat} (hn : n ≠ 0) (ht : topByte a ≠ 0xFF) (hl : linesOf a n = [(a / 64, off, n)])
    (ha : a / 64 * 64 + off = a) (he : s.ev.aux = 0)
    (h : (match (s.homeLine d a none).1 with
      | .line _ l _ => !l.poisoned off n
      | _ => false) = true) : ∃ bs u, Spec.runReads 0 d s [(a, n)] [bs] u := by
  rcases hr : s.homeLine d a none with ⟨r, t⟩
  rw [hr] at h
  cases r with
  | line slice l leaf =>
    refine ⟨l.bytes off n, t.countAccess slice (a / 64 * 64 + off) d leaf, l.bytes off n, t.countAccess slice (a / 64 * 64 + off) d leaf, [], ?_,
      rfl, rfl, rfl⟩
    rw [if_neg hn, if_neg ht, hl]
    exact ⟨he, slice, l, leaf, t, [], by simpa [ha] using hr, by simpa using h, by simp, rfl, rfl⟩
  | _ => simp at h

/-- A floated indirect stream whose index array lies in the mapped page, with its context at its site. -/
def floatI (hop : Option Nat) : State :=
  let s := floatS false
  let st := s.streamAt 0 0
  s.setStream 0 0 { st with desc := (st.desc.set 2 0x10080).set 4 0x1121, hop := hop }

/-- The index entry of a floated stream is read at its home; the entry's element lies in the same line as the last one, or in another. -/
theorem witness_floated_index :
    (∀ hop ∈ [none, some (0x10000 / 64), some 7],
      let s := floatI hop
      let st := s.streamAt 0 0
      s.ev.aux = 0 ∧ st.kind = 2 ∧ st.state = .floated ∧ st.transit = false ∧ st.pos.prog < st.total ∧ st.pat = 1 ∧
        0 ≤ st.addr st.pos.prog 0 ∧ st.addr st.pos.prog 0 + st.width ≤ (2 : Int) ^ 56 ∧ st.lineOf st.pos.prog 0 = 0x10000 / 64) ∧
    (let s := floatI none
     let free := s.freeWord
     let a := free.2.setStream 0 0 { s.streamAt 0 0 with idxv := fieldOf free.1 0 32 }
     ∃ bs b, Spec.runReads 0 0 a [(0x10080, 4)] [bs] b) ∧
    (let s := floatI none
     (s.streamAt 0 0).idxAddr 0 = 0x10080 ∧
     s.wouldFault 0 (spanLines [(0x10080, 4)]) = false ∧
     (match (s.homeLine 0 0x10080 none).1 with
      | .line _ l _ => fromBytesLE (l.bytes 0 4) == 0
      | _ => false) = true) := by
  exact ⟨by decide +kernel, one_line_read (off := 0) (by decide) (by decide) (by decide) (by decide) rfl (by decide +kernel), by decide +kernel⟩

theorem witness_map_read :
    (let s := Spec.takes (dispS 0) 0 launch0 (.dispenserTnext, 0, 0)
     ∃ bs u, Spec.runReads 0 0 s [(ptrAddr (recW recS 8), mapBytes recS)] [bs] u) ∧
    isTranslated (ptrAddr (recW recS 8)) = true ∧ isTranslated (ptrAddr (recW recS 8) + mapBytes recS - 1) = true ∧
    Spec.openCand launch0 [0] 0 0 0 ∧ launch0.candCount = 1 := by
  refine ⟨one_line_read (off := 0) (by decide +kernel) (by decide +kernel) (by decide +kernel) (by decide +kernel) rfl (by decide +kernel), by decide +kernel,
    by decide +kernel, ?_, by decide +kernel⟩
  unfold Spec.openCand
  exact ⟨by decide +kernel, launch0.cells (launch0.cand 0) |>.headD default, by decide +kernel, by decide +kernel⟩

theorem witness_tile_reports :
    (let s := launchS
     s.ev.flag = false ∧ (s.partAt 0).halted = false ∧ launch0.complete = false ∧ launch0.tokens.filter (fun t => t.1 != 1) = [] ∧ launch0.serving = none ∧
       s.reachOneWay (dieOfCore s.ev.core) (s.leadDie 0) false = none) ∧
    (let s := { launchS with ev := { Ev.empty with flag := true, data := [0x10008] } }
     let va := ptrAddr (s.ev.data.getD 0 0)
     s.ev.aux = 0 ∧ isTranslated va = true ∧ s.readSegments (s.dispatchAgent 0 s.ev.unit .dispenserTdone s.ev) [(va, 8)] = s ∧
       s.agentRefused (s.dispatchAgent 0 s.ev.unit .dispenserTdone s.ev) (Need.both false) va 8 = none ∧
       (match (s.homeLine 0 va none).1 with
        | .line _ l _ => !l.poisoned (va % 64) 8
        | _ => false) = true) := by decide +kernel

/-! Witnesses: launches, tasks and partitions. -/

/-- Queue 0 with the record at its head. -/
def queueS (checked : Bool) (r : List Word) : State :=
  { partS with ev := { Ev.empty with unit := 0 } }.onQueue 0 (fun _ => { Queue.reset with records := [r], checked := checked })

/-- The record without a tuner, with one word replaced. -/
def recWith (i : Nat) (v : Word) : List Word := (recS.set i v)


/-- Records that fail each status first, from 1 to 5; a poisoned one fails with 6 (R337). -/
theorem witness_record_heads :
    ((queueS false recS).queueAt 0).records = [recS] ∧ ((queueS false recS).queueAt 0).checked = false ∧
    ((queueS true recS).queueAt 0).checked = true ∧
    ((queueS false (recWith 2 0)).logHearth 0 0x09 6 0 3).queueBad 0 = false ∧ (∃ x ∈ (queueS true recS).queues, x.1 = 0) ∧ (queueS true recS).headEligible 0 = true ∧
    Spec.recordFails partS (recWith 14 (0x400E4000 + 2 ^ 48)) false 1 ∧ Spec.recordFails partS (recWith 14 (0x400E4000 + 1)) false 2 ∧
    Spec.recordFails partS (recWith 2 0) false 3 ∧ Spec.recordFails partS (recWith 15 1) false 4 ∧
    Spec.recordFails partS (recWith 14 (0x400E4000 + 2 ^ 29)) false 5 ∧ Spec.recordFails partS recS true 6 := by
  refine ⟨by decide +kernel, by decide +kernel, by decide +kernel, by decide +kernel, by decide +kernel, by decide +kernel, .inl (by decide +kernel), .inl (by decide +kernel),
    .inl ⟨0, by decide, .inl (by decide +kernel)⟩, ?_, ?_, rfl⟩
  · show ¬ ((recCtl (recWith 15 1)).getLsbD 27 = true ↔ recW (recWith 15 1) 15 ≠ 0)
    decide +kernel
  · show (recCtl (recWith 14 (0x400E4000 + 2 ^ 29))).getLsbD 29 = true ∧ (partS.partDesc 0 4).getLsbD 17 = false
    decide +kernel

/-- The record of `recS` fails no status. -/
theorem witness_record_passes : ∀ k, ¬ Spec.recordFails partS recS false k := by
  have h3 : ¬ ((∃ d, d < 4 ∧ (recQuad recS 2 d = 0 ∨ recQuad recS 4 d = 0 ∨ recQuad recS 2 d < recQuad recS 4 d ∨ recQuad recS 6 d = 0 ∨
      ¬ recQuad recS 4 d ∣ recQuad recS 6 d)) ∨ (∃ k, k < 4 ∧ ∀ j, j < 4 → fieldOf (recCtl recS) 12 8 / 4 ^ j % 4 ≠ k) ∨ 2 ^ 32 ≤ cellCount recS) := by
    decide +kernel
  intro k hk
  match k with
  | 1 => simp only [Spec.recordFails] at hk; revert hk; decide +kernel
  | 2 => simp only [Spec.recordFails] at hk; revert hk; decide +kernel
  | 3 => exact h3 hk
  | 4 => simp only [Spec.recordFails] at hk; revert hk; decide +kernel
  | 5 => simp only [Spec.recordFails] at hk; revert hk; decide +kernel
  | 6 => simp only [Spec.recordFails] at hk; revert hk; decide
  | 0 => exact hk
  | k + 7 => exact hk

/-- The checked head of queue 0 is the one to dispatch: slot 0 of the cycle offers priority 7, and the record asks priority 0, which slot 7
offers... the cycle's slots before it find no head. -/
theorem witness_dispatch :
    (let s := queueS true recS
     s.ev.val = 0 ∧ (s.queues.map Prod.fst).Pairwise (· < ·) ∧ Spec.headsOf s 0 = [0] ∧ s.leadDie (recPart recS) = 0 ∧
       recW recS 10 = 0 ∧ recW recS 12 = 0) ∧
    Spec.headsOf partS 0 = [] ∧
    Spec.serves (queueS true recS) 0 0 [0] 0 ∧ Spec.slotPrio 35 0 := by
  refine ⟨by decide +kernel, by decide +kernel, ?_, ⟨7, 7, by decide, by decide, by decide, by decide⟩⟩
  refine .inr ⟨fun x hx => ?_, .inr ⟨fun x hx => ?_, ⟨by simp, by decide +kernel⟩, fun x hx => Nat.zero_le x⟩⟩
  · obtain ⟨⟨hx, -⟩, ha⟩ := hx
    simp only [List.mem_singleton] at hx
    subst hx
    exact absurd ha (by decide +kernel)
  · obtain ⟨⟨hx, -⟩, ha⟩ := hx
    simp only [List.mem_singleton] at hx
    subst hx
    exact absurd ha (by decide +kernel)

theorem witness_map_clearing :
    (let s := { launchS with ev := { Ev.empty with val := 1 } }
     (s.partAt s.ev.unit).launch = some launch0 ∧ (s.partAt s.ev.unit).halted = false ∧ (s.ev.data.getD 0 0).toNat < mapBytes launch0.record) ∧
    mapBytes launch0.record ≤ 8 ∧
    (let s := { launchS with ev := { Ev.empty with val := 1 } }
     let a := ptrAddr (recW launch0.record 8)
     isTranslated a = true ∧ (match (s.homeLine 0 (a / 64 * 64) none).1 with
       | .line _ _ _ => true
       | _ => false) = true) ∧
    ({ launchS with ev := { Ev.empty with val := 2 } }.ev.aux = 0) ∧
    (((queueS true recS).queueAt 0).checked = true ∧ (queueS true recS).partFree (recPart recS) = true ∧ launchS.partFree 0 = false) := by
  decide +kernel

/-- A task that ends, alone in its launch and beside others; one whose cluster has a ready swapped task. -/
def endS : State := launchS.mapCore (fun c => { c with task := some { task0 with ending := true } })
def swapped0 : Saved :=
  { slot := 16, reason := 0, cluster := 0, pos := 0, addr := 0, ready := true, order := 0, image := { Core.reset with task := some task0 } }

theorem witness_task_end :
    (let s := endS
     s.ev.flag = false ∧ (s.coreAt 0).task = some { task0 with ending := true } ∧ (s.coreAt 0).mx.queue = [] ∧ (s.coreAt 0).ops = [] ∧
       (s.coreAt 0).hostWrites = [] ∧ launch0.held = [] ∧ s.underWay (Move.ofTdone 0) = false ∧ (s.partAt 0).launch = some launch0 ∧ (s.partAt 0).saved = [] ∧
       launch0.inLaunch.filter (fun m => m != 0) ≠ []) ∧
    (({ launch0 with inLaunch := [0] }.inLaunch.filter (fun m => m != 0)) = []) ∧
    (let s := endS.onPart 0 (fun p => { p with saved := [swapped0] })
     swapped0 ∈ (s.partAt 0).saved ∧ swapped0.reason = 0 ∧ swapped0.ready = true ∧ swapped0.cluster = clusterOfCore 0 ∧
       ∀ w ∈ (s.partAt 0).saved, w = swapped0) := by decide +kernel

/-- A context whose page waits for storage: its request is parked at a home. -/
def parkedS : State :=
  ({ launchS with ev := { Ev.empty with addr := 0x20000 } }.mapCtx (fun x =>
    { x with wait := some { why := .mem 0x20000 false, ir := 0 } })).mapCore (fun c =>
    { c with parked := [{ kind := 0, core := 0, ctx := 0, va := 0x20000, ea := 0x20000, words := [], again := none, stale := false }] })

theorem witness_swap_out :
    (let s := parkedS
     (s.ctxAt 0 0).wait = some { why := .mem 0x20000 false, ir := 0 } ∧ s.stillParked 0 0 0x20000 = true ∧ (s.coreAt 0).task = some task0 ∧
       task0.ending = false ∧ (∀ k, k < 11 → (s.ctxAt 0 k).fwd = none) ∧ groupValid (s.coreAt 0).bcastGrp (posOfCore 0) = false ∧
       s.coreMustWait 0 = false ∧ ((s.partAt 0).freeSwap (clusterOfCore 0)).isSome = true ∧ (s.partAt 0).saved = [] ∧ (s.partAt 0).launch = some launch0) ∧
    (let s := parkedS.mapCore (fun c => { c with bcastGrp := 2 ^ 63 + 1 })
     groupValid (s.coreAt 0).bcastGrp (posOfCore 0) = true) := by decide +kernel

/-- A gated core at its power and residency thresholds (R268, R269). -/
def gatedS : State :=
  (({ launchS with time := 1024, ev := Ev.empty }.mapCtx (fun x => { x with wait := some { why := .ring 0, ir := 0 } })).mapCore (fun c =>
    { c with gatedAt := some 0 })).onCluster 0 (fun c => { c with waitpol := 2 ^ 32 + 1 })

theorem witness_gating :
    fieldOf (gatedS.clusterAt 0).waitpol 0 32 = 1 ∧ gatedS.gatedFor 0 1 = true ∧ fieldOf (gatedS.clusterAt 0).waitpol 32 32 = 1 ∧
    (gatedS.coreAt 0).reported = false ∧ (recCtl launch0.record).getLsbD 27 = false := by decide +kernel

theorem witness_yield :
    (asHelper 2 launchS).ctx.cidx ≠ 0 ∧ s0.core.task = none ∧
    (let s := launchS.mapCore (fun c => { c with yieldDl := 5 })
     s.ctx.cidx = 0 ∧ s.core.task = some task0 ∧ s.core.yieldDl ≠ 0 ∧ s.core.mx.queue = [] ∧ s.core.midStore = false ∧ s.coreMustWait s.focus = false ∧
       (∀ n, n < 16 → n ≠ s.focus → (s.coreAt n).runsTask 0 = false)) ∧
    (mxS false [mmaCmd]).core.mx.queue ≠ [] := by decide +kernel

/-- A management request of a code from endpoint 1, with an argument and a payload. -/
def mgmt (code arg : Nat) (payload : List Word) (s : State) : State :=
  { s with ev := { Ev.empty with die := 1, data := BitVec.ofNat 64 (2 * 2 ^ 56 + 5 * 2 ^ 32 + 8 * payload.length * 2 ^ 16 + code) :: BitVec.ofNat 64 arg :: payload } }

theorem witness_management : ∀ c ∈ [1, 2, 3, 4, 5, 6, 7, 8, 9], Spec.managed (mgmt c 0 [] launchS) c := by unfold Spec.managed; decide +kernel

theorem witness_switch :
    (let s := mgmt 7 0 [] launchS
     s.ev.unit < 64 ∧ (s.partAt s.ev.unit).launch ≠ none ∧ (s.partAt s.ev.unit).halted = false ∧ (s.partAt s.ev.unit).switchedOut = false ∧
       (s.partAt s.ev.unit).armed = none ∧ (partS.partAt 0).launch = none) := by decide +kernel

/-- No stop waits for a state with nothing under way for a map whose listed cores place no store, owe the host no write, end no task and
ask no dispenser. -/
theorem stops_now {s : State} {part : Nat} (hu : s.underWay (Move.clearsMap part) = false)
    (hc : s.cores.all (fun p => !p.2.midStore && p.2.hostWrites.isEmpty &&
      !p.2.task.any (fun t => t.ending || (s.partAt t.part).launch.any (fun l => l.asksFrom p.1))) = true) : s.stopMustWait part = false := by
  unfold State.stopMustWait
  rw [hu, Bool.false_or, List.any_eq_false]
  intro n _
  unfold State.coreMustWait State.coreAt
  cases h : tabFind s.cores n with
  | none =>
    have : (Core.midStore Core.reset) = false ∧ Core.reset.hostWrites = [] ∧ Core.reset.task = none := by decide +kernel
    simp [this]
  | some c =>
    have := List.all_eq_true.1 hc _ (tabFind_mem h)
    cases ht : c.task <;> simp_all

theorem witness_switch_deadline :
    (let s := { launchS with ev := { Ev.empty with val := 5 } }.onPart 0 (fun p => { p with armed := some 5 })
     (s.partAt 0).armed = some s.ev.val ∧ s.time.toNat < s.ev.val.toNat ∧ (5 : Word).toNat ≤ { s with time := 5 }.time.toNat ∧
       (s.coreAt 0).runsTask 0 = true ∧ s.stopMustWait 0 = false) :=
  ⟨by decide +kernel, by decide +kernel, by decide +kernel, by decide +kernel, stops_now (by decide +kernel) (by decide +kernel)⟩

theorem witness_resume :
    (let s := (mgmt 8 0 [] launchS).onPart 0 (fun p => { p with switchedOut := true, saved := [{ swapped0 with slot := 0, reason := 1 }] })
     let back := (s.partAt 0).saved.filter (fun v => decide (v.slot < 16))
     (s.partAt 0).switchedOut = true ∧ back.length = 1 ∧ (s.partAt 0).units = [] ∧ s.heldByReset 0 = false) := by
  refine ⟨by decide +kernel, by decide +kernel, by decide +kernel, ?_⟩
  unfold State.heldByReset
  rw [List.any_eq_false]
  intro c _
  have h : ∀ k : Nat, [0, 0, 0, 0].getD k 0 = 0 := by
    intro k
    match k with
    | 0 | 1 | 2 | 3 => rfl
    | k + 4 => rfl
  show ¬ ([0, 0, 0, 0].getD (dieOfCluster c) 0 != 0) = true
  rw [h]
  decide

theorem witness_resume_waits : { words [(0x6000, 2 ^ 63)] launchS with dstate := #v[0, 3, 0, 0] }.heldByReset 0 = true := by
  unfold State.heldByReset State.partClusters
  rw [List.any_eq_true]
  exact ⟨63, List.mem_filter.2 ⟨by decide, by decide +kernel⟩, by decide +kernel⟩

theorem witness_halt_partition :
    (let s := mgmt 9 0 [] launchS
     s.ev.aux = 0 ∧ s.ev.arg.toNat / 2 ^ 6 = 0 ∧ s.ev.payload = [] ∧ s.partValid 0 = true ∧ s.partValid 1 = false) ∧
    (let s := (mgmt 9 (2 ^ 63) [] launchS).onPart 0 (fun p => { p with halted := true })
     s.ev.arg.toNat / 2 ^ 6 = 2 ^ 57 ∧ s.ev.payload = [] ∧ (s.partAt 0).halted = true) := by decide +kernel

theorem witness_job_deadline :
    (let s := { launchS with ev := Ev.empty, time := 6 }.mapCore (fun c => { c with jobDl := 5 })
     launch0.complete = false ∧ (s.partAt 0).halted = false ∧ (s.partAt 0).switchedOut = false ∧ s.focus ∈ s.partCores 0 ∧ s.core.jobDl = 5 ∧
       (5 : Word) ≠ 0 ∧ (5 : Word).toNat < s.time.toNat ∧ ({ s with time := 5 } : State).time.toNat ≤ (5 : Word).toNat) ∧
    (let s := { launchS with ev := Ev.empty, time := 6 }
     ∀ nc ∈ s.cores, nc.2.jobDl = 0) := by decide +kernel

/-! Witnesses: homes and fault service. -/

/-- The mapped state with page 2 not valid, page 3 malformed, and page 4 without known homing; the control context of core 0 waits for
the home of an address. -/
def homeS (va : Nat) (why : Why) : State :=
  { words [(0x5030, 2 ^ 55), (0x5040, 7 * 2 ^ 54)] (mapped s0) with ev := { Ev.ofCtx 0 0 with addr := va, aux := va } }.mapCtx (fun x =>
    { x with wait := some { why := why, ir := 0 } })

theorem witness_home_miss :
    (∀ va ∈ [0x10040, 0x20040, 0x30040], ((homeS va (.mem va false)).ctxAt 0 0).wait = some { why := .mem va false, ir := 0 }) ∧
    (match ((homeS 0x10040 (.mem 0x10040 false)).askHome 0 0x10040 ((homeS 0x10040 (.mem 0x10040 false)).hint 0 0x10040)).1 with
      | .line _ _ (some _) => true
      | _ => false) = true ∧
    (match ((homeS 0x20040 (.mem 0x20040 false)).askHome 0 0x20040 ((homeS 0x20040 (.mem 0x20040 false)).hint 0 0x20040)).1 with
      | .fault _ _ => true
      | _ => false) = true ∧
    ((homeS 0x30040 (.mem 0x30040 false)).askHome 0 0x30040 ((homeS 0x30040 (.mem 0x30040 false)).hint 0 0x30040)).1 = .refused ∧
    isTranslated 0x10040 = true := by decide +kernel

/-- A later element of a first-fault load at a page that is not valid. -/
theorem witness_probe :
    ((homeS 0x20040 (.probe 0x20040)).ctxAt 0 0).wait = some { why := .probe 0x20040, ir := 0 } ∧
    (match ((homeS 0x20040 (.probe 0x20040)).askHome 0 0x20040 ((homeS 0x20040 (.probe 0x20040)).hint 0 0x20040)).1 with
      | .line _ _ _ => true
      | .remote _ _ => true
      | _ => false) = false := by decide +kernel

theorem witness_home_query :
    (∀ p ∈ [1, 4], ((homeS (p * 65536) (.query p)).ctxAt 0 0).wait = some { why := .query (pageOf (p * 65536)), ir := 0 }) ∧
    (match ((homeS 0x10000 (.query 1)).queryLeaf 0 0x10000).1 with
      | .leaf l => decide (l.hmode ≤ 1)
      | _ => false) = true ∧
    (match ((homeS 0x40000 (.query 4)).queryLeaf 0 0x40000).1 with
      | .leaf l => decide (1 < l.hmode)
      | _ => false) = true := by decide +kernel

theorem witness_plb_and_write_back :
    (let s := homeS 0x10040 (.plb 0x10040)
     (s.coreAt 0).plbRights 1 = none ∧ (s.coreAt 0).plb.length = 0 ∧ (s.ctxAt 0 0).wait = some { why := .plb 0x10040, ir := 0 }) ∧
    (let s := (homeS 0x10040 .busy).mapCore (fun c =>
       { c with l1 := [(0x4010, { val := 7, dirty := true, poison := false })] })
     (s.coreAt 0).dirtyWords 0x401 ≠ [] ∧
       (match (s.lineAt 0 0x10040 (s.hint 0 0x10040) true).1 with
        | .line _ _ _ => true
        | _ => false) = true) := by decide +kernel

/-- Slice 0 holds a request for a page. -/
def parkS (page : Nat) : State :=
  { homeS 0 .busy with ev := { Ev.empty with addr := page } }.mapCore (fun c =>
    { c with parked := [{ kind := 0, core := 0, ctx := 0, va := page * 65536, ea := page * 65536, words := [], again := none, stale := false }]
             pending := [(page, true)] })

/-- A request that the walk serves, and one that it does not; a slice without requests. -/
theorem witness_wakes :
    Spec.parkedAt (homeS 0 .busy) 0 1 = [] ∧
    (∀ p ∈ [1, 2], Spec.parkedAt (parkS p) 0 p ≠ []) ∧
    (match (parkS 1).walk 0 0x10000 with
      | (.leaf l, u) => (Spec.parkedAt (parkS 1) 0 1).all (fun r => u.reqServed 0 l r)
      | _ => false) = true ∧
    (match (parkS 2).walk 0 0x20000 with
      | (.leaf l, u) => (Spec.parkedAt (parkS 2) 0 2).all (fun r => !u.reqServed 0 l r)
      | _ => false) = true := by decide +kernel

/-- A die with one service core, and combining entries. -/
def faultS (entries : List Nat) : State :=
  ((parkS 2).setDieReg 0 0x18 0x8000).onDie 0 (fun x =>
    { x with combine := entries.map (fun p => { router := 0, page := p, ports := [0], last := true }) })

/-- A router that has an entry of the page, one with room, and one that is full; a page that a service core serves, and an engine's. -/
theorem witness_fault_messages :
    (∃ c ∈ ((faultS [2]).dieAt 0).combine.filter (fun c => c.router == 0), c.page = (faultS [2]).ev.addr) ∧
    faultEngine (faultS []).ev.faultLeaf = none ∧ (faultS []).nsvc 0 ≠ 0 ∧
    (∀ c ∈ ((faultS []).dieAt 0).combine.filter (fun c => c.router == 0), c.page ≠ 2) ∧
    32 ≤ (((faultS (List.range 32 |>.map (· + 3))).dieAt 0).combine.filter (fun c => c.router == 0)).length ∧
    (∀ c ∈ ((faultS (List.range 32 |>.map (· + 3))).dieAt 0).combine.filter (fun c => c.router == 0), c.page ≠ 2) ∧
    faultEngine { w0 := 2 ^ 61, w1 := 0, pa := 0, level := 0 } ≠ none := by decide +kernel

/-- Replies that flood reach slice 0; the entry at the router of the page's last stop. -/
theorem witness_replies :
    (tabFind ((faultS [2]).coreAt 0).pending 2).isSome = true ∧ (2 ^ 17 + 2 ^ 59 : Word).getLsbD 59 = true ∧ fieldOf (2 ^ 17 + 2 ^ 59 : Word) 16 40 = 2 ∧
    0 ∈ (faultS [2]).cores.map Prod.fst ∧ dieOfCore 0 = 0 ∧
    (∃ c, (faultS [2]).combineAt (routerOn 0 c.router) 2 = some c ∧ c.page = 2 ∧ c.last = true ∧ c.router < 256) :=
  ⟨by decide +kernel, by decide +kernel, by decide +kernel, by decide +kernel, by decide +kernel,
    { router := 0, page := 2, ports := [0], last := true }, by decide +kernel, rfl, rfl, by decide⟩

/-! Witnesses: registers, power, links, management and resets. -/

/-- A register store of a value to a die. -/
def regS (d off : Nat) (v : Word) : State := { s0 with ev := { Ev.empty with die := d, addr := off, val := v } }

/-- LINKSTAT of die 0 replaced: STATE `st` at both links. -/
def linkS (st attempts : Nat) (flag : Bool) : State :=
  ({ s0 with ev := { Ev.empty with flag := flag, aux := 1 } }.setDieReg 0 0x118 (BitVec.ofNat 64 (st * 2 ^ 62 + st * 2 ^ 30))).onDie 0 (fun x =>
    { x with links := #v[{ attempts := attempts, asked := none }, { attempts := attempts, asked := none }] })

theorem witness_registers :
    (dieZeroOnly 0x140 = true ∧ (regS 1 0x140 0).ev.die ≠ 0 ∧ ((regS 0 0x208 0).setDieReg 0 0x200 (2 ^ 63)).regLocked 0 0x208 = true) ∧
    (dieZeroOnly 0x100 = false ∧ (regS 0 0x100 8).regLocked 0 0x100 = false ∧ regMask 0x100 ≠ 0) ∧
    (2 ^ 63 : Word).getLsbD 63 = true ∧ (0 : Word).getLsbD 63 = false := by decide +kernel

theorem witness_links :
    ((Spec.linkFields (linkS 0 0 false) 0 0).1 ≠ 2 ∧ (Spec.linkFields (linkS 0 0 false) 0 0).1 ≠ 1) ∧
    ((Spec.linkFields (linkS 2 0 false) 0 0).1 = 2 ∧ (linkS 2 0 false).ev.flag = false ∧ (linkS 2 0 true).ev.flag = true ∧
      (Spec.linkFields (linkS 2 0 false) 0 1).1 = 2) ∧
    (Spec.linkFields (linkS 1 0 false) 0 0).1 = 1 ∧ (((linkS 1 0 false).dieAt 0).link 0).attempts = 0 ∧
    (((linkS 1 2 false).dieAt 0).link 0).attempts = 2 := by decide +kernel

/-- A store to PWRCTL of die 0 in a state without a valid partition, and in one whose partition 0 holds cluster 0. -/
theorem witness_power :
    ((5 : Word).toNat % 8 = 5 ∧ fieldOf (s0.dieReg 0 0x128) 0 3 = 2 ∧ s0.dieReg 0 0x128 = 0x102) ∧
    (s0.dieHeld 0 = false ∧ s0.dst 0 = 0 ∧ { s0 with dstate := #v[7, 0, 0, 0] }.dst 0 = 7) ∧
    partS.dieHeld 0 = true ∧ ((s0.setDieReg 0 0x128 2).dieReg 0 0x128).getLsbD 8 = false := by decide +kernel

/-- Management requests in a state in which no partition is valid. -/
def mgmtS (code arg : Nat) (payload : List Word) : State := mgmt code arg payload (words [(0x6000, 0)] partS)

theorem witness_restart :
    (let s := (mgmtS 1 0 [0x1000]).mapCore (fun c => { c with halted := some 0 })
     s.underReset 0 = false ∧ { s with dstate := #v[3, 0, 0, 0] }.underReset 0 = true ∧ Spec.managed s 1 ∧ s.ev.arg.toNat < 4032 ∧ s.ev.payload.length = 1 ∧ (s.ev.payload.getD 0 0).toNat % 2 = 0 ∧ (s.coreAt 0).halted = some 0) ∧
    ((mgmtS 1 0 [0x1000]).coreAt 0).halted = none ∧ Spec.managed (mgmtS 1 4096 []) 1 ∧ 2 ^ 12 ≤ (mgmtS 1 4096 []).ev.arg.toNat := by
  unfold Spec.managed
  decide +kernel

theorem witness_mgmt_power :
    Spec.managed (mgmtS 3 0 []) 3 ∧ (mgmtS 3 0 []).underReset 0 = false ∧ { mgmtS 3 0 [] with dstate := #v[0, 3, 0, 0] }.underReset 1 = true ∧
    (mgmtS 3 0 []).dieHeld 0 = false ∧ (mgmt 3 0 [] partS).dieHeld 0 = true ∧ ((mgmtS 3 0 []).dieAt 0).clockStopped = false ∧
    ((mgmtS 3 0 []).dieReg 0 0x128).getLsbD 62 = false ∧ ((mgmtS 3 0 []).onDie 0 (fun x => { x with clockStopped := true }) |>.dieAt 0).clockStopped = true := by
  unfold Spec.managed
  decide +kernel

theorem witness_gating_and_slices :
    (Spec.managed (mgmtS 4 0 [1, 0, 0, 0]) 4 ∧ (mgmtS 4 0 [1, 0, 0, 0]).ev.payload.length = 4 ∧
      joinChunks 64 ((mgmtS 4 0 [1, 0, 0, 0]).ev.payload.map BitVec.toNat) < 2 ^ 252 ∧
      (∀ c, c < 252 → (1 : Nat).testBit c = true → (mgmtS 4 0 [1, 0, 0, 0]).underReset (dieOfCluster c) = false) ∧ (1 : Nat).testBit 0 = true ∧
      { mgmtS 4 0 [1, 0, 0, 0] with dstate := #v[3, 0, 0, 0] }.underReset (dieOfCluster 0) = true ∧
      2 ^ 252 ≤ joinChunks 64 ((mgmtS 4 0 [0, 0, 0, 2 ^ 60]).ev.payload.map BitVec.toNat)) ∧
    (Spec.managed (mgmtS 5 0 []) 5 ∧ clusterOfCore 0 = clusterOfCore 1 ∧ ((mgmtS 5 0 []).coreAt 0).retired = false ∧
      ((mgmtS 5 0 []).coreAt 1).retired = false ∧ (mgmtS 5 0 []).underReset 0 = false ∧
      (∀ d, d < 4 → ((mgmtS 5 0 []).rmap d 0).getLsbD 63 = false)) := by
  unfold Spec.managed
  decide +kernel

theorem witness_link_and_log_requests :
    (let s := (mgmtS 6 0 []).setDieReg 0 0x118 (3 * 2 ^ 62)
     Spec.managed s 6 ∧ (Spec.linkFields s 0 0).1 = 3 ∧ s.underReset 0 = false ∧ s.underReset (linkPeer 0 0) = false) ∧
    (Spec.managed (mgmtS 10 0 [1, 2, 3, 4]) 10 ∧ (mgmtS 10 0 [1, 2, 3, 4]).ev.payload.length = 4) ∧
    (Spec.managed (mgmtS 11 0 []) 11 ∧ fieldOf ((mgmtS 11 0 []).dieReg 0 0x140) 48 16 = 0 ∧
      fieldOf (((mgmtS 11 0 []).setDieReg 0 0x140 (2 ^ 50)).dieReg 0 0x140) 48 16 = 4 ∧ fieldOf ((mgmtS 11 0 []).dieReg 0 0x148) 32 32 < 4 ∧
      (let s := { (mgmtS 11 0 []).setDieReg 0 0x140 (2 ^ 50) with poison := [0] }
       (s.peekWord 0 0).2 = true)) ∧
    ((regS 0 0x140 (2 ^ 50)).logInternal.length < fieldOf (regS 0 0x140 (2 ^ 50)).ev.val 48 16 ∧ fieldOf (regS 0 0x140 0).ev.val 48 16 < 2) ∧
    s0.dispatched = false ∧ { s0 with dispatched := true }.dispatched = true ∧ s0.ev.flag = false := by
  unfold Spec.managed
  decide +kernel

/-- Step 1 of a warm reset of die 1 is due; step 3 of die 0 is not; a store with a reserved bit is not clean. -/
theorem witness_warm_stores :
    (let s := regS 0 0x130 1
     fieldOf (s.dieReg 0 0x138) 62 2 ≠ 0 ∧ s.ev.val.toNat % 4 = 1 ∧ s.warm = none ∧ s.dst 1 = 0 ∧ s.dieInUse 1 = false ∧ s.dieBusy 1 = false ∧
       fieldOf s.ev.val 48 16 = 0 ∧ fieldOf s.ev.val 11 5 = 0 ∧ fieldOf s.ev.val 2 6 = 0 ∧ fieldOf s.ev.val 16 32 = 0) ∧
    fieldOf (regS 0 0x130 4).ev.val 2 6 ≠ 0 ∧ (regS 1 0x130 1).ev.die ≠ 0 ∧
    (∀ step ∈ [2, 3, 4, 5, 6], ∀ w : Option WarmReset, w = some { die := 1, step := step - 1, asked := none, regs := [] } →
      { regS 0 0x130 1 with warm := w }.stepAccepted 1 (step % 6) = true) := by
  refine ⟨by decide +kernel, by decide +kernel, by decide +kernel, ?_⟩
  intro step hs w hw
  subst hw
  revert step
  decide +kernel

/-- Every step of a warm reset of die 1 in progress; die 1 cool and hot. -/
theorem witness_warm_steps : ∀ k ∈ [0, 1, 2, 3, 4, 5],
    let w : WarmReset := { die := 1, step := k, asked := none, regs := [] }
    let s := { (s0.setDieReg 0 0x138 (BitVec.ofNat 64 (256 * k + 1))) with warm := some w, ev := { Ev.empty with die := 1, unit := k } }
    s.warm = some w ∧ w.die = s.ev.die ∧ w.step = s.ev.unit ∧ fieldOf (s.dieReg 0 0x138) 62 2 = 0 ∧ (s.dieReg 1 0x128).getLsbD 62 = false ∧
      ((s.setDieReg 1 0x128 (2 ^ 62)).dieReg 1 0x128).getLsbD 62 = true := by decide +kernel

theorem witness_reset_requests :
    (let s := { mgmtS 2 0 [] with ev := { (mgmtS 2 0 []).ev with unit := 1 } }
     Spec.managed s 2 ∧ s.stepAccepted 1 1 = true ∧ s.stepAccepted 0 1 = false ∧ { s with dstate := #v[0, 3, 0, 0] }.stepAccepted 1 1 = false) ∧
    s0.boot ≠ .romWaits ∧ { s0 with boot := .romWaits }.boot = .romWaits := by
  unfold Spec.managed
  decide +kernel

/-! Witnesses: storage. -/

/-- SSD 0 of die 0 with EN, STATE, ERRC, the step of its controller, and its outstanding commands; blocks of 4 KiB. -/
def ssdS (en : Bool) (st errc step : Nat) (cmds : List SsdCmd) (e : Ev) : State :=
  (({ words [(0x5020, 2 ^ 61)] (mapped s0) with ev := e }.setDieReg 0 0x200 (BitVec.ofNat 64 ((if en then 2 ^ 63 else 0) + st * 2 ^ 60 + errc * 2 ^ 48))).setDieReg 0 0x210
    (2 ^ 20)).setDieReg 0 0x218 (12 * 2 ^ 56) |>.setDieReg 0 0x208 0x400000 |>.onDie 0 (fun x => { x with ssds := x.ssds.set 0 { step := step, cmds := cmds, nextCid := 9 } })

theorem witness_ssds :
    (∀ st, st < 5 → ∀ en, fieldOf ((ssdS en st 0 0 [] Ev.empty).dieReg 0 0x200) 60 3 = st ∧ ((ssdS en st 0 0 [] Ev.empty).dieReg 0 0x200).getLsbD 63 = en) ∧
    (∀ step, step < 8 → Spec.ssdStands (ssdS true 1 0 step [] Ev.empty) 0 0 true 1 0 step ∧ Spec.ssdStands (ssdS false 4 0 step [] Ev.empty) 0 0 false 4 0 step) ∧
    (let s := ssdS true 2 0 0 [{ cid := 3, page := none, desc := [], due := 5 }] { Ev.empty with flag := true, aux := 3, val := 5 }
     (∃ c ∈ ((s.dieAt 0).ssd 0).cmds, c.cid = s.ev.aux ∧ c.due = s.ev.val) ∧ s.time.toNat < s.ev.val.toNat ∧ s.ev.val.toNat ≤ { s with time := 5 }.time.toNat) ∧
    ((ssdS true 2 0 0 [] Ev.empty).dieAt 0).ssd 0 = { step := 0, cmds := [], nextCid := 9 } ∧
    ((1 : Word).toNat % 2 ^ 16 ≠ 0 ∧ ([5, 12, 0] : List Word).getD 0 0 ≠ 0 ∧ (([5, 12, 0] : List Word).getD 1 0).toNat = 12) := by
  unfold Spec.ssdStands
  decide +kernel

/-- The fault message of page 2, whose leaf stands at PA 0x5020. -/
def sbEv : Ev := { Ev.empty with addr := 2, val := 2 ^ 61, data := [0, 0x5020] }

/-- A frame on the free-frame stack of die 0. -/
def framed (s : State) : State := (words [(0xB000, 0x200000)] s).setDieReg 0 0x280 (2 ^ 52 + 0xB000) |>.setDieReg 0 0x288 1

def pending2 (frame : Option Nat) : SbFault :=
  { page := 2, leaf := { w0 := 2 ^ 61, w1 := 0, pa := 0x5020, level := 0 }, frame := frame, dies := [0], ovf := false, submitted := 1 }

theorem witness_sqe_messages :
    (let s := framed (ssdS true 2 0 0 [] sbEv)
     (s.dieAt 0).sbFault 2 = none ∧ (s.dieAt 0).sbFaults.length < 4096 ∧ 0 < s.ffsTop 0 ∧ (s.peekWord 0 0xB000).2 = false ∧ (s.dieAt 0).sbQueue = [] ∧
     (match s.leafAt 0 s.ev.faultLeaf.pa 0 with
      | some l => !l.v && l.sb && decide (l.ssd / 4 = 0) && decide (l.level = 0) && decide (s.ssdState 0 (l.ssd % 4) = 2) && decide (2 ^ (16 - s.lbads 0 0) ∣ l.next)
          && decide (l.next + 2 ^ (16 - s.lbads 0 0) ≤ s.nsze 0 0) && !((s.dieAt 0).ssd 0).writesOver l.next 16
      | none => false) = true) ∧
    ((ssdS true 3 0 0 [] sbEv).ssdState 0 0 ≠ 2) ∧
    (let s := (ssdS true 2 0 0 [] sbEv).onDie 0 (fun x => { x with sbFaults := [pending2 none] })
     (s.dieAt 0).sbFault 2 = some (pending2 none)) ∧
    (match (words [(0x5020, 2 ^ 63 + 1)] (ssdS true 2 0 0 [] sbEv)).leafAt 0 0x5020 0 with
      | some l => l.v
      | none => false) = true := by decide +kernel

theorem witness_frames :
    (let s := { framed (ssdS true 2 0 0 [] Ev.empty) with ev := { Ev.empty with val := 0x300000 } }
     fieldOf s.ev.val 48 16 = 0 ∧ fieldOf s.ev.val 0 16 = 0 ∧ s.ev.val.toNat / 2 ^ 16 % 2 ^ 32 * 2 ^ 16 < 0x8000000000 ∧
       s.ffsTop 0 ≠ fieldOf (s.dieReg 0 0x280) 48 16) ∧
    fieldOf (1 : Word) 0 16 ≠ 0 ∧ (2 ^ 62 : Word).getLsbD 62 = true ∧ (0 : Word).getLsbD 62 = false ∧ s0.srqCap 0 ≤ fieldOf (0 : Word) 32 32 ∧
    fieldOf (2 ^ 32 : Word) 32 32 < (s0.setDieReg 0 0x2A0 (4 * 2 ^ 48)).srqCap 0 := by decide +kernel

/-- The request ring of die 0 at PA 0xA000 with one descriptor: OPC, the port 0, CMODE 1; one block at block 0, the buffer at PA 0x10000. -/
def ringS (opc blocks buf : Nat) (cmds : List SsdCmd) : State :=
  ((words [(0xA000, opc * 2 ^ 56 + 2 ^ 30), (0xA008, 0), (0xA010, blocks), (0xA018, buf)] (ssdS true 2 0 0 cmds Ev.empty)).setDieReg 0 0x2A0
    (4 * 2 ^ 48 + 0xA000)).setDieReg 0 0x2A8 (2 ^ 32)

theorem witness_requests :
    (let s := ringS 0 0 0 []
     0 < s.srqCap 0 ∧ s.srqCap 0 < 2 ^ 32 ∧ s.srqHead 0 ≠ s.srqTail 0 ∧ (s.srqDesc 0).2 = false ∧ s.requestBad 0 (s.srqDesc 0).1 = false ∧
       reqOpc (s.srqDesc 0).1 ≠ 1 ∧ ((s.dieAt 0).ssd 0).cmds.length < 256) ∧
    (let s := { ringS 1 1 0x800000000000 [] with poison := [0] }
     (s.srqDesc 0).2 = false ∧ s.srqHead 0 ≠ s.srqTail 0 ∧ (paHost (reqBuf (s.srqDesc 0).1) && (s.badRegion 0 (reqBuf (s.srqDesc 0).1)).isSome) = true) ∧
    (∀ q ∈ [ringS 0 0 0 [], ringS 3 0 0 [], ringS 1 1 0x10000 []],
      (paHost (reqBuf (q.srqDesc 0).1) && (q.badRegion 0 (reqBuf (q.srqDesc 0).1)).isSome) = false) ∧
    (let s := ringS 3 0 0 []
     (s.srqDesc 0).2 = false ∧ s.requestBad 0 (s.srqDesc 0).1 = true) ∧
    (let s := ringS 1 1 0x10000 []
     (s.srqDesc 0).2 = false ∧ s.requestBad 0 (s.srqDesc 0).1 = false ∧ reqOpc (s.srqDesc 0).1 = 1 ∧ paHost (reqBuf (s.srqDesc 0).1) = false ∧
       paHbm (reqBuf (s.srqDesc 0).1) = true ∧ s.bufferBad 0 (reqBuf (s.srqDesc 0).1) (reqNlb (s.srqDesc 0).1 * 2 ^ s.lbads 0 0) = false ∧
       { s with poison := [0x4000] }.bufferBad 0 (reqBuf (s.srqDesc 0).1) (reqNlb (s.srqDesc 0).1 * 2 ^ s.lbads 0 0) = true) ∧
    (let s := ringS 1 1 0x800000000000 []
     (s.srqDesc 0).2 = false ∧ s.requestBad 0 (s.srqDesc 0).1 = false ∧ reqOpc (s.srqDesc 0).1 = 1 ∧ paHost (reqBuf (s.srqDesc 0).1) = true ∧
       (s.badRegion 0 (reqBuf (s.srqDesc 0).1)).isSome = false) ∧
    (∀ st ∈ [2, 3], let b : Nat × List Word := (1, [2 ^ 56, 0, 1, 0x800000000000])
     let s := (ssdS true st 0 0 [] { Ev.empty with core := 4032, addr := 0x800000000000 }).onDie 0 (fun x => { x with bufReads := [b] })
     s.ev.core = 4032 + 0 ∧ (s.dieAt 0).bufReads.find? (fun b => reqBuf b.2 == s.ev.addr) = some b ∧ s.ev.aux = 0 ∧ { s.ev with aux := 5 }.aux ≠ 0 ∧
       s.ssdState 0 (reqPort b.2) = st ∧ ((s.dieAt 0).ssd (reqPort b.2)).cmds.length < 256) ∧
    (let s := ringS 2 1 0x10000 (List.replicate 256 { cid := 1, page := none, desc := [], due := 0 })
     (s.srqDesc 0).2 = false ∧ s.requestBad 0 (s.srqDesc 0).1 = false ∧ 256 ≤ ((s.dieAt 0).ssd (reqPort (s.srqDesc 0).1)).cmds.length) := by decide +kernel

/-- A request with CMODE 1, and one with CMODE 2 and a signal. -/
theorem witness_completions :
    (let c : SsdCmd := { cid := 3, page := none, desc := [2 ^ 30], due := 0 }
     Spec.ssdDone (ssdS true 2 0 0 [c] { Ev.empty with aux := 3 }) 0 0 c ∧ reqOpc c.desc ≠ 2) ∧
    (reqMode [2 ^ 30] = 1 ∧ reqBoxOk [2 ^ 30] = true ∧ (s0.dieAt 0).hostWrites = []) ∧
    (let r : List Word := [2 ^ 31, 0, 0, 0, 0, 0x10000]
     let q : List Word := [3 * 2 ^ 30, 0, 0, 0, 0, 0x800000000000]
     (reqMode q = 3 ∧ reqSigOk q = true ∧ reqBoxOk q = true ∧ paHost (reqSig q) = true ∧ s0.badRegion 0 (reqSig q) = none) ∧
     reqMode r = 2 ∧ reqSigOk r = true ∧ paHost (reqSig r) = false ∧
       (match (mapped s0).peek 0 (reqSig r) 8 with
        | .ok (_, bad) => !bad
        | .error _ => false) = true) := by
  unfold Spec.ssdDone
  decide +kernel

/-- The Read of page 2 into the frame at PA 0x200000 is out. -/
def readS (w0 : Nat) : State :=
  (words [(0x5020, w0)] (ssdS true 2 0 0 [{ cid := 3, page := some 2, desc := [], due := 0 }]
    { Ev.empty with aux := 3, data := List.replicate 8192 7 })).onDie 0 (fun x => { x with sbFaults := [pending2 (some 0x200000)] })

/-- The bytes of words that are all alike. -/
theorem length_alike (n : Nat) (w : Word) : ((List.replicate n w).flatMap (fun w : Word => bytesLE 8 w.toNat)).length = 8 * n := by
  simp [List.length_flatMap, List.map_replicate, length_bytesLE, Nat.mul_comm]

theorem page_lines : (linesOf 0x200000 65536).all (fun l => winKey (l.1 * 64 + l.2.1) != winKey 0x5020 && winKey (l.1 * 64 + l.2.1) != winKey 0x5028) =
    true := by
  decide +kernel

theorem page_apart : apart 0x200000 65536 0x5020 = true ∧ apart 0x200000 65536 (0x5020 + 8) = true := by decide +kernel

/-- A frame filled at PA 0x200000 leaves the leaf of page 2 alone. -/
theorem leaf_kept {s : State} (hq : s.quiet = true) (w : Word) (level : Nat) :
    ((s.poke 0 0x200000 ((List.replicate 8192 w).flatMap (fun w : Word => bytesLE 8 w.toNat))).writeThrough 0x200000 65536).leafAt 0 0x5020 level =
      s.leafAt 0 0x5020 level := by
  have h := fun l hl => List.all_eq_true.1 page_lines l hl
  simp only [Bool.and_eq_true] at h
  unfold State.leafAt
  rw [State.peekWord_writeThrough _ _ _ _ _ page_apart.1, State.peekWord_writeThrough _ _ _ _ _ page_apart.2]
  rw [State.peekWord_poke hq 0 0x200000 0x5020 0 _ (by rw [length_alike]; exact List.all_eq_true.2 fun l hl => (h l hl).1),
    State.peekWord_poke hq 0 0x200000 (0x5020 + 8) 0 _ (by rw [length_alike]; exact List.all_eq_true.2 fun l hl => (h l hl).2)]

/-- The Read of page 2 that is out. -/
def readCmd : SsdCmd := { cid := 3, page := some 2, desc := [], due := 0 }

/-- The completion entry is written in the queue memory at PA 0x400000, wherever it lies there: another line is read as before. -/
theorem freed_alike {s : State} {q : Nat} (hq : s.quiet = true) (hb : fieldOf (s.dieReg 0 (ssdOff 0 8)) 0 48 = 0x400000) (h : q / 64 < 0x10000 ∨ 0x410000 ≤ q)
    (c : SsdCmd) : (({ s with freeCtr := s.freeCtr + 2 }).onSsd 0 0 (fun y => { y with cmds := y.cmds.filter (fun z => z.cid != c.cid) })).alikeAt q
      (Spec.ssdFreed s 0 0 c) := by
  refine State.alikeAt_onSsd (State.alikeAt_engineWrite (s := { s with freeCtr := s.freeCtr + 2 }) hq 0 _ ?_ ?_) 0 0 _ <;>
    · have hl : (s.openWords 2).length = 2 := by simp [State.openWords]
      have hp : s.queuePlace 0 0 2 s.freeCtr = 0x400000 + 16 * (Config.queuePlace 2 s.freeCtr % 4096) := by rw [State.queuePlace, hb]; rfl
      have := Nat.mod_lt (Config.queuePlace 2 s.freeCtr) (show 0 < 4096 by decide)
      omega

/-- The state after the completion, in what its dies hold. -/
theorem freed_dies {s : State} (hq : s.quiet = true) (hb : fieldOf (s.dieReg 0 (ssdOff 0 8)) 0 48 = 0x400000) (c : SsdCmd) :
    (Spec.ssdFreed s 0 0 c).dies = (({ s with freeCtr := s.freeCtr + 2 }).onSsd 0 0 (fun y => { y with cmds := y.cmds.filter (fun z => z.cid != c.cid) })).dies
      ∧ (Spec.ssdFreed s 0 0 c).monitors = s.monitors := by
  obtain ⟨cs, m, p, v, h, -⟩ := freed_alike (q := 0) hq hb (.inl (by decide)) c
  rw [h]; exact ⟨rfl, rfl⟩

/-- A leaf read alike. -/
theorem leafAt_alike {s t : State} (h : s.alikeAt 0x5020 t) : t.leafAt 0 0x5020 0 = s.leafAt 0 0x5020 0 := by
  have h8 : s.alikeAt (0x5020 + 8) t := by
    obtain ⟨cs, m, p, v, ht, hl, hr, hm⟩ := h
    exact ⟨cs, m, p, v, ht, hl, hr, hm⟩
  unfold State.leafAt
  rw [State.peekWord_alikeAt h, State.peekWord_alikeAt h8]

theorem leafAt_freeCtr (s : State) (n d pa level : Nat) : { s with freeCtr := n }.leafAt d pa level = s.leafAt d pa level := rfl

/-- The frame at PA 0x200000 filled by the completion of a Read leaves the leaf of page 2 as it was. -/
theorem leaf_filled {s : State} (hq : s.quiet = true) (hb : fieldOf (s.dieReg 0 (ssdOff 0 8)) 0 48 = 0x400000)
    (hd : (({ s with freeCtr := s.freeCtr + 2 }).onSsd 0 0 (fun y => { y with cmds := y.cmds.filter (fun z => z.cid != readCmd.cid) })).quiet = true) (w : Word) :
    (({ Spec.ssdFreed s 0 0 readCmd with freeCtr := (Spec.ssdFreed s 0 0 readCmd).freeCtr + 8192 }.poke 0 0x200000
      ((List.replicate 8192 w).flatMap (fun w : Word => bytesLE 8 w.toNat))).writeThrough 0x200000 65536).leafAt 0 0x5020 0 =
    (({ s with freeCtr := s.freeCtr + 2 }).onSsd 0 0 (fun y => { y with cmds := y.cmds.filter (fun z => z.cid != readCmd.cid) })).leafAt 0 0x5020 0 := by
  have h := freed_dies hq hb readCmd
  have hl := leafAt_alike (freed_alike hq hb (.inl (by decide)) readCmd)
  generalize Spec.ssdFreed s 0 0 readCmd = u at h hl ⊢
  have hu : u.quiet = true := by simp only [State.quiet, h.1, h.2] at hd ⊢; exact hd
  rw [leaf_kept (s := { u with freeCtr := u.freeCtr + 8192 }) hu w 0, leafAt_freeCtr, hl]

/-- A fault Read completes with its leaf as it was, with one that was poisoned meanwhile, and with a frame whose home does not exist. -/
theorem witness_fault_reads :
    (let s := readS (2 ^ 61)
     let u := Spec.ssdFreed s 0 0 readCmd
     Spec.ssdDone s 0 0 readCmd ∧ s.ev.val.toNat % 2 ^ 16 = 0 ∧ s.ev.flag = false ∧ s.ev.data.length = 8192 ∧
       (u.dieAt 0).sbFault 2 = some (pending2 (some 0x200000)) ∧ paHost 0x200000 = false ∧ (∃ y, u.peekLine 0 0x200000 = .ok y) ∧
       ∃ l, (({ u with freeCtr := u.freeCtr + 8192 }.poke 0 0x200000
         (s.ev.data.flatMap (fun w : Word => bytesLE 8 w.toNat))).writeThrough 0x200000 65536).leafAt 0 0x5020 0 = some l ∧ l.v = false ∧ l.sb = true ∧ l.ssd = 0 ∧ l.next = 0) ∧
    (let s := { readS (2 ^ 61) with poison := [0x5020 / 4] }
     let u := Spec.ssdFreed s 0 0 readCmd
     (({ u with freeCtr := u.freeCtr + 8192 }.poke 0 0x200000
       (s.ev.data.flatMap (fun w : Word => bytesLE 8 w.toNat))).writeThrough 0x200000 65536).leafAt 0 0x5020 0 = none) ∧
    (∃ e, (Spec.ssdFreed (readS (2 ^ 61)) 0 0 readCmd).peekLine 0 0x8000000000 = .error e) := by
  refine ⟨⟨by unfold Spec.ssdDone; decide +kernel, by decide +kernel, by decide +kernel, List.length_replicate .., ?_, by decide +kernel, ?_, ?_⟩, ?_, ?_⟩
  · unfold State.dieAt
    rw [(freed_dies (by decide +kernel) (by decide +kernel) readCmd).1]
    decide +kernel
  · rw [State.peekLine_alikeAt (freed_alike (by decide +kernel) (by decide +kernel) (.inl (by decide)) readCmd)]
    exact ⟨_, rfl⟩
  · refine ⟨{ w0 := 2 ^ 61, w1 := 0, pa := 0x5020, level := 0 }, (leaf_filled (by decide +kernel) (by decide +kernel) (by decide +kernel) 7).trans ?_,
      by decide +kernel, by decide +kernel, by decide +kernel, by decide +kernel⟩
    decide +kernel
  · refine (leaf_filled (by decide +kernel) (by decide +kernel) (by decide +kernel) 7).trans ?_
    decide +kernel
  · rw [State.peekLine_alikeAt (freed_alike (by decide +kernel) (by decide +kernel) (.inr (by decide)) readCmd)]
    exact ⟨_, rfl⟩

/-! Witnesses: the fabric and host memory. -/

/-- A message from endpoint 1 (R413). -/
def fab (kind target arg : Nat) (payload : List Word) (s : State) : State :=
  let hdr := kind * 2 ^ 56 + 5 * 2 ^ 32 + 8 * payload.length * 2 ^ 16 + target
  { s with ev := { Ev.empty with die := 1, data := BitVec.ofNat 64 hdr :: BitVec.ofNat 64 arg :: payload } }

theorem witness_enqueues :
    s0.endpointValid 0 = false ∧
    Spec.fromEndpoint (fab 1 0 0 [] partS) 1 ∧ Spec.fromEndpoint (fab 1 0 0 (List.replicate 15 0) partS) 1 ∧
    (let s := fab 1 0 0 recS partS
     Spec.fromEndpoint s 1 ∧ s.ev.payload ≠ [] ∧ s.ev.payload.length % 16 = 0 ∧ s.ev.target = 0 ∧ (s.queueEntry 0 0).getLsbD 63 = true ∧ s.queueOwner 0 = s.ev.die ∧
       ¬ 64 + fieldOf (s.queueEntry 0 1) 0 16 < (s.queueAt 0).records.length + (s.queueAt 0).spilled + s.ev.payload.length / 16 ∧ s.queueBad 0 = false ∧
       (s.queueAt 0).spilled = 0 ∧ (s.queueAt 0).records = []) ∧
    (let s := fab 1 0 0 recS (partS.onQueue 0 (fun _ => { Queue.reset with records := List.replicate 64 [] }))
     64 + fieldOf (s.queueEntry 0 1) 0 16 < (s.queueAt 0).records.length + (s.queueAt 0).spilled + s.ev.payload.length / 16 ∧ s.queueBad 0 = false) ∧
    (let s := fab 1 0 0 recS ((words [(0x8008, 2)] partS).onQueue 0 (fun _ => { Queue.reset with records := List.replicate 64 [] }))
     (s.queueEntry 0 0).getLsbD 63 = true ∧ s.queueOwner 0 = s.ev.die ∧ s.queueBad 0 = false ∧
       ¬ 64 + fieldOf (s.queueEntry 0 1) 0 16 < (s.queueAt 0).records.length + (s.queueAt 0).spilled + s.ev.payload.length / 16) ∧
    (let s := fab 1 0 0 recS { partS with poison := [partS.queuePa 0 / 4] }
     Spec.fromEndpoint s 1 ∧ s.queueBad 0 = true) ∧
    ((fab 1 7 0 recS partS).queueEntry 7 0).getLsbD 63 = false := by
  unfold Spec.fromEndpoint
  decide +kernel

/-- A signal on the mapped page is at its home for a message. -/
theorem signal_at {s : State} {row : Instr} {need : Need}
    (h : s.ev.arg.toNat % 8 = 0 ∧ s.ev.arg.toNat < 2 ^ 56 ∧ isTranslated s.ev.arg.toNat = true ∧ s.ev.aux = 0 ∧
      s.readSegments (s.fabricAgent row) [(s.ev.arg.toNat, 8)] = s ∧ s.agentRefused (s.fabricAgent row) need s.ev.arg.toNat 8 = none ∧
      (match (s.homeLine 0 s.ev.arg.toNat none).1 with
       | .line _ l _ => !l.poisoned (s.ev.arg.toNat % 64) 8
       | _ => false) = true) : ∃ u slice l, Spec.signalAt s row need u slice l := by
  obtain ⟨h1, h2, h3, ha, hs, h4, h5⟩ := h
  rcases hr : s.homeLine 0 s.ev.arg.toNat none with ⟨r, t⟩
  rw [hr] at h5
  cases r with
  | line slice l leaf => exact ⟨_, slice, l, h1, h2, h3, ha, hs, h4, leaf, t, hr, by simpa using h5, rfl⟩
  | _ => simp at h5

theorem witness_message_signals :
    (let s := fab 3 0 0x10008 [1] partS
     Spec.fromEndpoint s 3 ∧ s.ev.payload.length = 1 ∧ ∃ u slice l, Spec.signalAt s .fabricDecrement (Need.both false) u slice l) ∧
    (let s := fab 4 0 0x10008 [0, 9] partS
     Spec.fromEndpoint s 4 ∧ s.ev.payload.length = 2 ∧ ∃ u slice l, Spec.signalAt s .fabricWatch (Need.load false) u slice l) ∧
    (BitVec.ofNat 64 0 : Word).toInt ≤ (0 : Word).toInt ∧ (-1 : Word).toInt < (BitVec.ofNat 64 0 : Word).toInt ∧
    (partS.dieAt 0).hostWatches.length < 4096 := by
  unfold Spec.fromEndpoint
  exact ⟨⟨by decide +kernel, by decide +kernel, signal_at (by decide +kernel)⟩, ⟨by decide +kernel, by decide +kernel, signal_at (by decide +kernel)⟩,
    by decide, by decide, by decide +kernel⟩

/-- Page 2 as a host-owned page of region 0, which is migratable and belongs to endpoint 1 (R412, R417). -/
def remoteS : State := words [(0x5020, 2 ^ 63 + 2 ^ 59 + 2 ^ 31), (0xC000, 2 ^ 63 + 2 ^ 32)] (partS.setDieReg 0 0x320 0xC000)

theorem witness_failed_decrements :
    (∀ k ∈ [4, 5, 7, 8], let r : RemoteDec := { agent := k, core := 0, unit := 0, addr := 0x50, data := [] }
      let s := { fab 0x83 0 0x50 [10] partS with remoteDecs := [r] }
      Spec.fromEndpoint s 0x83 ∧ s.remoteDecs.find? (fun r => BitVec.ofNat 64 r.addr == s.ev.arg) = some r ∧ r.agent = k) ∧
    (partS.coreAt 0).findOp 0 = none ∧
    ((engS (engOp .copy 0 0 0 2)).coreAt 0).findOp 0 = some (engOp .copy 0 0 0 2) ∧
    (let m := ((mxS true [mmaCmd]).coreAt 0).mx
     let m := { m with sig := 1 }
     m.sig = 1 ∧ m.queue = mmaCmd :: [] ∧ mmaCmd.tag = 0) ∧
    (partS.coreAt 0).mx.sig ≠ 1 ∧
    (let w : List Word × Nat := ([2 ^ 31, 0, 0, 0, 0, 0x800000000000], 0)
     let s := { fab 0x83 0 0x50 [10] remoteS with remoteDecs := [] }.onDie 0 (fun x => { x with sigWaits := [w] })
     (s.dieAt 0).sigWaits.find? (fun y => y.1 == w.1 && (s.remoteOf 0 (reqSig y.1)).1 == s.ev.die) = some w ∧
       (s.dieAt 0).sigWaits.find? (fun y => y.1 == [] && (s.remoteOf 0 (reqSig y.1)).1 == s.ev.die) = none) := by
  unfold Spec.fromEndpoint
  decide +kernel

/-- One line that an agent is to write is reached. -/
theorem one_line_write {s : State} {ag : Agent} {rs : List (Nat × List Byte)} {a off n : Nat} (hl : runLines rs = [(a / 64, off, n)])
    (ha : a / 64 * 64 + off = a) (he : s.ev.aux = 0)
    (h : (match (s.homeLine ag.die a none).1 with
      | .line _ _ _ => true
      | _ => false) = true) : ∃ u, Spec.runWrites ag s rs u := by
  rcases hr : s.homeLine ag.die a none with ⟨r, t⟩
  rw [hr] at h
  cases r with
  | line slice l leaf => exact ⟨_, t, by rw [hl]; exact ⟨he, _, t, by simpa [ha] using hr, .inl ⟨_, _, _, rfl⟩, rfl⟩, rfl⟩
  | _ => simp at h

/-- RMA operations of endpoint 1 on the mapped page, and one outside translated memory. -/
def rmaS (va : Nat) (data : List Word) : State := { partS with ev := { Ev.empty with die := 1, unit := 8, val := BitVec.ofNat 64 va, data := data } }

theorem witness_rma :
    (rmaS 0x10000 [8]).endpointValid 1 = true ∧ isTranslated 0xFF000000000000 = false ∧
    (isTranslated 0x10000 = true ∧ isTranslated (0x10000 + 8 - 1) = true) ∧
    (let s := rmaS 0x7F0000000000 [8]
     isTranslated 0x7F0000000000 = true ∧ isTranslated (0x7F0000000000 + 8 - 1) = true ∧
       (s.readSegments (s.fabricAgent .rmaRead) [(0x7F0000000000, 8)]).agentRefused (s.fabricAgent .rmaRead) (Need.load false) 0x7F0000000000 8 =
         some 0x7F0000000000 ∧
       (s.readSegments (s.fabricAgent .rmaWrite) [(0x7F0000000000, 8)]).agentRefused (s.fabricAgent .rmaWrite) (Need.store false) 0x7F0000000000 8 =
         some 0x7F0000000000) ∧
    (let s := rmaS 0x10000 [8]
     let s1 := s.readSegments (s.fabricAgent .rmaRead) [(0x10000, 8)]
     s1.agentRefused (s.fabricAgent .rmaRead) (Need.load false) 0x10000 8 = none ∧ ∃ bs u, Spec.runReads 0 0 s1 [(0x10000, 8)] [bs] u) ∧
    (let s := rmaS 0x10000 [8]
     let bs := (s.ev.data.flatMap (fun w : Word => bytesLE 8 w.toNat)).take s.ev.unit
     let s2 := s.readSegments (s.fabricAgent .rmaWrite) [(0x10000, bs.length)]
     s2.agentRefused (s.fabricAgent .rmaWrite) (Need.store false) 0x10000 bs.length = none ∧
       ∃ u, Spec.runWrites (s.fabricAgent .rmaWrite) s2 [(0x10000, bs)] u) :=
  ⟨by decide +kernel, by decide +kernel, by decide +kernel, by decide +kernel,
    ⟨by decide +kernel, one_line_read (off := 0) (by decide) (by decide) (by decide) (by decide) (by decide +kernel) (by decide +kernel)⟩,
    ⟨by decide +kernel, one_line_write (a := 0x10000) (off := 0) (n := 8) (by decide +kernel) (by decide) (by decide +kernel) (by decide +kernel)⟩⟩

def leaf2 : Leaf := { w0 := 2 ^ 63 + 2 ^ 59 + 2 ^ 31, w1 := 0, pa := 0x5020, level := 0 }

/-- The migration of page 2 in a phase. -/
def mig (phase : Nat) (frame : Option Nat) : Migrate :=
  { page := 2, leaf := leaf2, frame := frame, dies := [], ovf := false, phase := phase, endpoint := 1, reqid := 0, host := 0, granted := 0 }

theorem witness_migration_faults :
    { remoteS with migrations := [mig 1 none] }.migration 2 = some (mig 1 none) ∧ remoteS.migration 2 = none ∧
    remoteS.leafAt 0 0x5020 0 = some leaf2 ∧ leaf2.migratable = true ∧ leaf2.level = 0 ∧ remoteS.badRegion 0 leaf2.frame = none ∧
    (match remoteS.leafAt 0 0x5010 0 with
      | some l => l.migratable
      | none => true) = false := by decide +kernel

theorem witness_grants :
    (let s := { framed (fab 0x87 0 0 [0] remoteS) with migrations := [mig 1 none] }
     Spec.fromEndpoint s 0x87 ∧ s.migrations.find? (fun m => m.phase == 1 && m.endpoint == s.ev.die && (s.remoteOf 0 m.leaf.frame).2 == s.ev.arg) =
       some (mig 1 none) ∧ s.ev.payload.getD 0 2 = 0 ∧ 0 < s.ffsTop 0 ∧ (s.dieAt 0).sbQueue = [] ∧ s.migrations = [mig 1 none] ∧ (s.peekWord 0 0xB000).2 = false) ∧
    (let s := fab 0x87 0 0 [2] remoteS
     Spec.fromEndpoint s 0x87 ∧ s.ev.payload.getD 0 2 ≠ 0) := by
  unfold Spec.fromEndpoint
  decide +kernel

theorem witness_grant_timeouts :
    (let s := { remoteS with migrations := [mig 1 none], ev := { Ev.empty with addr := 2, val := 1 } }
     s.migration s.ev.addr = some (mig 1 none) ∧ s.time.toNat < s.ev.val.toNat ∧ s.ev.val.toNat ≤ { s with time := 1 }.time.toNat) := by decide +kernel

/-- The page read into the frame at PA 0x200000, with the leaf as it was, and with a leaf poisoned meanwhile. -/
theorem witness_fills :
    (let s := { remoteS with migrations := [mig 3 (some 0x200000)], ev := { Ev.empty with addr := 2, data := List.replicate 8192 7 } }
     s.migration s.ev.addr = some (mig 3 (some 0x200000)) ∧ s.ev.aux = 0 ∧ s.ev.data.length = 8192 ∧ 0x200000 < 2 ^ 47 ∧
       ((∃ y, s.peekLine 0 0x200000 = .ok y) ∧ ∃ e, s.peekLine 0 0x8000000000 = .error e) ∧
       (({ s with freeCtr := s.freeCtr + 8192 }.poke 0 0x200000 (s.ev.data.flatMap (fun w : Word => bytesLE 8 w.toNat))).writeThrough
         0x200000 65536).leafAt 0 0x5020 0 = some leaf2) ∧
    (let s := { remoteS with migrations := [mig 3 (some 0x200000)], ev := { Ev.empty with addr := 2, data := List.replicate 8192 7 }, poison := [0x5020 / 4] }
     (({ s with freeCtr := s.freeCtr + 8192 }.poke 0 0x200000 (s.ev.data.flatMap (fun w : Word => bytesLE 8 w.toNat))).writeThrough
         0x200000 65536).leafAt 0 0x5020 0 = none) ∧
    (mig 3 none).phase = 3 ∧ (mig 3 none).granted = remoteS.time ∧ { Ev.empty with addr := 2, aux := 5 }.aux ≠ 0 :=
  ⟨⟨by decide +kernel, by decide +kernel, List.length_replicate .., by decide, ⟨⟨_, rfl⟩, ⟨_, rfl⟩⟩, (leaf_kept (by decide +kernel) 7 0).trans (by decide +kernel)⟩,
    (leaf_kept (by decide +kernel) 7 0).trans (by decide +kernel), rfl, by decide +kernel, by decide⟩

/-- A release of the mapped page to host address 0 of endpoint 1's region; one of a page that is host-owned. -/
theorem witness_releases :
    (let s := fab 8 0 0x10000 [0] remoteS
     Spec.fromEndpoint s 8 ∧ s.ev.payload.length = 1 ∧ isTranslated 0x10000 = true ∧
       s.readSegments (s.fabricAgent .fabricReleaseRequest) [(0x10000, 1)] = s ∧ s.agentRefused (s.fabricAgent .fabricReleaseRequest) (Need.store false) 0x10000 1 = none ∧
       (match s.walk (s.walkSlice 0 0x10000) 0x10000 with
        | (.leaf l, u) => l.v && !l.ho && decide (l.level = 0) && (u.migration 1).isNone && (u.remotePa s.ev.die 0).isSome
        | _ => false) = true) ∧
    (let s := fab 8 0 0x20000 [0] remoteS
     s.agentRefused (s.fabricAgent .fabricReleaseRequest) (Need.store false) 0x20000 1 = none ∧
       (match s.walk (s.walkSlice 0 0x20000) 0x20000 with
        | (.leaf l, _) => l.ho
        | _ => false) = true) ∧
    (let s := { remoteS with migrations := [mig 4 (some 0x200000)], ev := { Ev.empty with addr := 2 } }
     s.migration s.ev.addr = some (mig 4 (some 0x200000)) ∧ s.ev.aux = 0 ∧ { s.ev with aux := 5 }.aux ≠ 0) := by
  unfold Spec.fromEndpoint
  decide +kernel

/-- The state of the release once the translations of the page are dropped. -/
def releasedS (s : State) : State := ((s.purgePage 0 .system 0x10000 false).poke 0 0x5010 (bytesLE 8 1)).tinvalPage 0 .system 0x10000

theorem witness_released_frames : (releasedS (fab 8 0 0x10000 [0] remoteS)).frameBad 0x10000 = none ∧
    (releasedS { fab 8 0 0x10000 [0] remoteS with poison := [0x4000] }).frameBad 0x10000 = some 0x10000 :=
  ⟨State.frameBad_sound (by decide +kernel) (by decide), by decide +kernel⟩

theorem witness_host_memory :
    (let rq : Req := { kind := 0, core := 0, ctx := 0, va := 0x20000, ea := 0x20000, words := [], again := none, stale := false }
     let s := { s0 with ev := { Ev.empty with addr := 0x20000 } }.mapCore (fun c => { c with remoteWaits := [(1, rq)] }) |>.mapCtx (fun x =>
       { x with wait := some { why := .mem 0x20000 false, ir := 0 } })
     (s.coreAt 0).remoteWaits.filter (fun r => r.2.va / 64 == s.ev.addr / 64) = [(1, rq)] ∧ (s.ctxAt 0 0).waitsMem 0x20000 = true ∧ s.ev.aux = 0) ∧
    (let s := { remoteS with migrations := [mig 4 (some 0x200000)], ev := { Ev.empty with die := 1 } }
     s.ev.die < 256 ∧ mig 4 (some 0x200000) ∈ s.migrations ∧ ∀ k ∈ s.migrations, k.endpoint = 1 → k.phase = 4) := by decide +kernel

/-! Words of the encoding (R54, R58 to R69), laid out bit by bit from the rows of the opcode table. -/

theorem test_words_0 :
    decode32 0x0170AC89#32 = .ok (.add 25 10 23) ∧ decode32 0x00B25B89#32 = .ok (.sll 23 5 11) ∧ decode32 0x01552589#32 = .ok (.slt 11 18 21) ∧
    decode32 0x00A79A89#32 = .ok (.sltn 21 25 10) ∧ decode32 0x00597509#32 = .ok (.xor 10 23 5) ∧ decode32 0x012AB289#32 = .ok (.srl 5 11 18) ∧
    decode32 0x019D5909#32 = .ok (.or 18 21 25) ∧ decode32 0x017EAC89#32 = .ok (.and 25 10 23) ∧ decode32 0x02B05B89#32 = .ok (.sub 23 5 11) ∧
    decode32 0x03532589#32 = .ok (.min 11 18 21) ∧ decode32 0x02A59A89#32 = .ok (.max 21 25 10) ∧
    decode32 0x02577509#32 = .ok (.minn 10 23 5) ∧ decode32 0x0328B289#32 = .ok (.maxn 5 11 18) ∧
    decode32 0x039B5909#32 = .ok (.sra 18 21 25) ∧ decode32 0x0570AC89#32 = .ok (.mul 25 10 23) ∧
    decode32 0x04B25B89#32 = .ok (.mulh 23 5 11) ∧ decode32 0x05552589#32 = .ok (.mulhn 11 18 21) ∧
    decode32 0x04A99A89#32 = .ok (.div 21 25 10) ∧ decode32 0x045B7509#32 = .ok (.divn 10 23 5) ∧ decode32 0x052CB289#32 = .ok (.rem 5 11 18) ∧
    decode32 0x059F5909#32 = .ok (.remn 18 21 25) ∧ decode32 0x06017509#32 = .ok (.clz 10 23) ∧ decode32 0x0602B289#32 = .ok (.ctz 5 11) ∧
    decode32 0x06055909#32 = .ok (.cpop 18 21) ∧ decode32 0x80A19A89#32 = .ok (.addW 21 25 10) ∧ decode32 0x80537509#32 = .ok (.sllW 10 23 5) ∧
    decode32 0x8124B289#32 = .ok (.sltW 5 11 18) ∧ decode32 0x81975909#32 = .ok (.sltnW 18 21 25) :=
  ⟨rfl, rfl, rfl, rfl, rfl, rfl, rfl, rfl, rfl, rfl, rfl, rfl, rfl, rfl, rfl, rfl, rfl, rfl, rfl, rfl, rfl, rfl, rfl, rfl, rfl, rfl, rfl, rfl⟩

theorem test_words_1 :
    decode32 0x8178AC89#32 = .ok (.xorW 25 10 23) ∧ decode32 0x80BA5B89#32 = .ok (.srlW 23 5 11) ∧
    decode32 0x815D2589#32 = .ok (.orW 11 18 21) ∧ decode32 0x80AF9A89#32 = .ok (.andW 21 25 10) ∧
    decode32 0x82517509#32 = .ok (.subW 10 23 5) ∧ decode32 0x8322B289#32 = .ok (.minW 5 11 18) ∧
    decode32 0x83955909#32 = .ok (.maxW 18 21 25) ∧ decode32 0x8376AC89#32 = .ok (.minnW 25 10 23) ∧
    decode32 0x82B85B89#32 = .ok (.maxnW 23 5 11) ∧ decode32 0x835B2589#32 = .ok (.sraW 11 18 21) ∧
    decode32 0x84A19A89#32 = .ok (.mulW 21 25 10) ∧ decode32 0x84537509#32 = .ok (.mulhW 10 23 5) ∧
    decode32 0x8524B289#32 = .ok (.mulhnW 5 11 18) ∧ decode32 0x85995909#32 = .ok (.divW 18 21 25) ∧
    decode32 0x857AAC89#32 = .ok (.divnW 25 10 23) ∧ decode32 0x84BC5B89#32 = .ok (.remW 23 5 11) ∧
    decode32 0x855F2589#32 = .ok (.remnW 11 18 21) ∧ decode32 0x8600AC89#32 = .ok (.clzW 25 10) ∧ decode32 0x86025B89#32 = .ok (.ctzW 23 5) ∧
    decode32 0x86052589#32 = .ok (.cpopW 11 18) ∧ decode32 0x25915907#32 = .ok (.addi 18 21 601) ∧
    decode32 0x0172AC87#32 = .ok (.slli 25 10 23) ∧ decode32 0xB2B45B87#32 = .ok (.slti 23 5 2859) ∧
    decode32 0x59572587#32 = .ok (.sltni 11 18 1429) ∧ decode32 0x2CA99A87#32 = .ok (.xori 21 25 714) ∧
    decode32 0x025B7507#32 = .ok (.srli 10 23 37) ∧ decode32 0x432AB287#32 = .ok (.srai 5 11 50) ∧
    decode32 0x259D5907#32 = .ok (.ori 18 21 601) :=
  ⟨rfl, rfl, rfl, rfl, rfl, rfl, rfl, rfl, rfl, rfl, rfl, rfl, rfl, rfl, rfl, rfl, rfl, rfl, rfl, rfl, rfl, rfl, rfl, rfl, rfl, rfl, rfl, rfl⟩

theorem test_words_2 :
    decode32 0x657EAC87#32 = .ok (.andi 25 10 1623) ∧ decode32 0xE4B2B28D#32 = .ok (.ldhi 5 936747) ∧
    decode32 0xF259590F#32 = .ok (.pcadd 18 992661) ∧ decode32 0x2CA19A83#32 = .ok (.ldb 21 25 714) ∧
    decode32 0x96537503#32 = .ok (.ldh 10 23 2405) ∧ decode32 0x4B24B283#32 = .ok (.ldw 5 11 1202) ∧
    decode32 0x25975903#32 = .ok (.ldd 18 21 601) ∧ decode32 0x6578AC83#32 = .ok (.ldbn 25 10 1623) ∧
    decode32 0xB2BA5B83#32 = .ok (.ldhn 23 5 2859) ∧ decode32 0x595D2583#32 = .ok (.ldwn 11 18 1429) ∧
    decode32 0x95915905#32 = .ok (.stb 25 21 2386) ∧ decode32 0xCB72AC85#32 = .ok (.sth 23 10 3257) ∧
    decode32 0x64B45B85#32 = .ok (.stw 11 5 1623) ∧ decode32 0xB3572585#32 = .ok (.std 21 18 2859) ∧
    decode32 0xAEA19A91#32 = .ok (.beq 25 10 2805) ∧ decode32 0x56537511#32 = .ok (.bne 23 5 1386) ∧
    decode32 0x2B28B291#32 = .ok (.blt 11 18 677) ∧ decode32 0x959B5911#32 = .ok (.bge 21 25 2386) ∧
    decode32 0xCB7CAC91#32 = .ok (.bltn 10 23 3257) ∧ decode32 0x64BE5B91#32 = .ok (.bgen 5 11 1623) ∧
    decode32 0x8F259A93#32 = .ok (.jal 21 586329) ∧ decode32 0x6570AC95#32 = .ok (.jalr 25 10 1623) ∧
    decode32 0x00B05B97#32 = .ok (.padd 23 5 11) ∧ decode32 0x59532597#32 = .ok (.paddi 11 18 1429) ∧
    decode32 0x0CA59A97#32 = .ok (.ptag 21 25 202) ∧ decode32 0x00577517#32 = .ok (.pset 10 23 5) ∧
    decode32 0x0128B297#32 = .ok (.pchk 5 11 18) ∧ decode32 0x00019299#32 = .ok (.oxset 5 25) :=
  ⟨rfl, rfl, rfl, rfl, rfl, rfl, rfl, rfl, rfl, rfl, rfl, rfl, rfl, rfl, rfl, rfl, rfl, rfl, rfl, rfl, rfl, rfl, rfl, rfl, rfl, rfl, rfl, rfl⟩

theorem test_words_3 :
    decode32 0x00027519#32 = .ok (.oxget 10 7) ∧ decode32 0xB2B45399#32 = .ok (.oxld 7 5 2859) ∧ decode32 0x5950091B#32 = .ok (.srd 18 1429) ∧
    decode32 0x2CA3901B#32 = .ok (.swr 25 714) ∧ decode32 0x9654001B#32 = .ok (.trap 2405) ∧ decode32 0x0106001B#32 = .ok (.fenceAcq .die) ∧
    decode32 0x0196001B#32 = .ok (.fenceRel .package) ∧ decode32 0x0226001B#32 = .ok (.fenceAr .system) ∧
    decode32 0x0036001B#32 = .ok (.fenceFmt) ∧ decode32 0x0046001B#32 = .ok (.fenceI) ∧ decode32 0x0409901B#32 = .ok (.tinval .die 25) ∧
    decode32 0x1708A01B#32 = .ok (.purge .package true 10) ∧ decode32 0x2808B01B#32 = .ok (.icinv .system 11) ∧
    decode32 0x000A001B#32 = .ok (.eret) ∧ decode32 0x001A001B#32 = .ok (.halt) ∧ decode32 0x002A001B#32 = .ok (.yield) ∧
    decode32 0xC0B5751D#32 = .ok (.amoAdd true .rel .die 10 23 11) ∧ decode32 0x6356B29D#32 = .ok (.amoMin false .ar .package 5 11 21) ∧
    decode32 0x84A9591D#32 = .ok (.amoMax true .none .system 18 21 10) ∧ decode32 0x2650AC9D#32 = .ok (.amoMinn false .acq .core 25 10 5) ∧
    decode32 0xC9225B9D#32 = .ok (.amoMaxn true .rel .cluster 23 5 18) ∧ decode32 0x6B95259D#32 = .ok (.amoAnd false .ar .die 11 18 25) ∧
    decode32 0x8D779A9D#32 = .ok (.amoOr true .none .package 21 25 23) ∧ decode32 0x2EB9751D#32 = .ok (.amoXor false .acq .system 10 23 11) ∧
    decode32 0xD150B29D#32 = .ok (.amoSwap true .rel .core 5 11 21) ∧ decode32 0x72A3591D#32 = .ok (.amoCas false .ar .cluster 18 21 10) ∧
    decode32 0x80BA501D#32 = .ok (.amoupdAdd true 5 11) ∧ decode32 0x035B201D#32 = .ok (.amoupdMin false 18 21) :=
  ⟨rfl, rfl, rfl, rfl, rfl, rfl, rfl, rfl, rfl, rfl, rfl, rfl, rfl, rfl, rfl, rfl, rfl, rfl, rfl, rfl, rfl, rfl, rfl, rfl, rfl, rfl, rfl, rfl⟩

theorem test_words_4 :
    decode32 0x84AB901D#32 = .ok (.amoupdMax true 25 10) ∧ decode32 0x0A5B701D#32 = .ok (.amoupdAnd false 23 5) ∧
    decode32 0x8D2AB01D#32 = .ok (.amoupdOr true 11 18) ∧ decode32 0x0F9B501D#32 = .ok (.amoupdXor false 21 25) ∧
    decode32 0x417CA01D#32 = .ok (.stv .system 10 23) ∧ decode32 0x02BC5B9D#32 = .ok (.ldv .core 23 5 11) ∧
    decode32 0x040D9A9D#32 = .ok (.vers 21 25) ∧ decode32 0x060D701D#32 = .ok (.reclaim 23) ∧ decode32 0x00B05B9F#32 = .ok (.waitt 23 5 11) ∧
    decode32 0x0153259F#32 = .ok (.sigwait 11 18 21) ∧ decode32 0x00A5901F#32 = .ok (.sigdec 25 10) ∧
    decode32 0x00517521#32 = .ok (.hstart 10 23 5) ∧ decode32 0x00032021#32 = .ok (.hexit 18) ∧ decode32 0x25940AA1#32 = .ok (.hjoin 21 601) ∧
    decode32 0x00060BA1#32 = .ok (.tnext 23) ∧ decode32 0x0008B021#32 = .ok (.tdone 11) ∧ decode32 0x595A0921#32 = .ok (.schrd 18 1429) ∧
    decode32 0x2CAD9021#32 = .ok (.schstage 25 714) ∧ decode32 0x000E02A1#32 = .ok (.schcommit 5) ∧
    decode32 0x0120B023#32 = .ok (.send 11 18) ∧ decode32 0x01925923#32 = .ok (.recv 18 5 25) ∧ decode32 0x00057523#32 = .ok (.ipop 10 23) ∧
    decode32 0x0006B2A3#32 = .ok (.ipeek 5 11) ∧ decode32 0x00080023#32 = .ok (.uret) ∧ decode32 0x00A09025#32 = .ok (.sopen 9 10) ∧
    decode32 0x00527525#32 = .ok (.sread 7 5 10) ∧ decode32 0x0124B2A5#32 = .ok (.swrite 11 18 5) ∧
    decode32 0x00069AA5#32 = .ok (.swait 9 21) :=
  ⟨rfl, rfl, rfl, rfl, rfl, rfl, rfl, rfl, rfl, rfl, rfl, rfl, rfl, rfl, rfl, rfl, rfl, rfl, rfl, rfl, rfl, rfl, rfl, rfl, rfl, rfl, rfl, rfl⟩

theorem test_words_5 :
    decode32 0x00087025#32 = .ok (.srecall 7) ∧ decode32 0x00BA5BA5#32 = .ok (.squery 5 23 11) ∧ decode32 0x000C5025#32 = .ok (.sresume 5) ∧
    decode32 0x000EA025#32 = .ok (.sclose 10) ∧ decode32 0x00517027#32 = .ok (.ecopy 23 5) ∧ decode32 0x0122B027#32 = .ok (.egather 11 18) ∧
    decode32 0x01955027#32 = .ok (.escatter 21 25) ∧ decode32 0x0176A027#32 = .ok (.ereduce 10 23) ∧
    decode32 0x00B85027#32 = .ok (.econv 5 11) ∧ decode32 0x000A0AA7#32 = .ok (.estat 21) ∧ decode32 0x00A00029#32 = .ok (.mpush 10) ∧
    decode32 0x000202A9#32 = .ok (.mstat 5) ∧ decode32 0x0024B029#32 = .ok (.rput 11 2) ∧ decode32 0x01915931#32 = .ok (.setvl 18 21 25) ∧
    decode32 0x0172ACB1#32 = .ok (.setvli 25 10 23) ∧ decode32 0x00005BB3#32 = .ok (.vld false 23 5) ∧
    decode32 0x0720B2B3#32 = .ok (.vlds true 5 11 18) ∧ decode32 0x09915933#32 = .ok (.vldx false 18 21 25) ∧
    decode32 0x0E017533#32 = .ok (.vldff true 10 23) ∧ decode32 0x10005BB3#32 = .ok (.vldb false .frm 23 5) ∧
    decode32 0x02015935#32 = .ok (.vst true 18 21) ∧ decode32 0x04A19AB5#32 = .ok (.vsts false 21 25 10) ∧
    decode32 0x0A517535#32 = .ok (.vstx true 10 23 5) ∧ decode32 0x0E4125B5#32 = .ok (.vqst .forceI 11 18) ∧
    decode32 0x039525B7#32 = .ok (.vadd true .vi 11 18 25) ∧ decode32 0x05719AB7#32 = .ok (.vsub false .vv 21 25 23) ∧
    decode32 0x0AB37537#32 = .ok (.vand true .vx 10 23 11) ∧ decode32 0x0D54B2B7#32 = .ok (.vor false .vi 5 11 21) :=
  ⟨rfl, rfl, rfl, rfl, rfl, rfl, rfl, rfl, rfl, rfl, rfl, rfl, rfl, rfl, rfl, rfl, rfl, rfl, rfl, rfl, rfl, rfl, rfl, rfl, rfl, rfl, rfl, rfl⟩

theorem test_words_6 :
    decode32 0x12A15937#32 = .ok (.vxor true .vv 18 21 10) ∧ decode32 0x1452ACB7#32 = .ok (.vsll false .vx 25 10 5) ∧
    decode32 0x1B245BB7#32 = .ok (.vsrl true .vi 23 5 18) ∧ decode32 0x1D9125B7#32 = .ok (.vsra false .vv 11 18 25) ∧
    decode32 0x23739AB7#32 = .ok (.vmin true .vx 21 25 23) ∧ decode32 0x24B57537#32 = .ok (.vmax false .vi 10 23 11) ∧
    decode32 0x2B50B2B7#32 = .ok (.vminn true .vv 5 11 21) ∧ decode32 0x2CA35937#32 = .ok (.vmaxn false .vx 18 21 10) ∧
    decode32 0x3252ACB7#32 = .ok (.vmul true .vx 25 10 5) ∧ decode32 0x35205BB7#32 = .ok (.vmulh false .vv 23 5 18) ∧
    decode32 0x3B9325B7#32 = .ok (.vmulhn true .vx 11 18 25) ∧ decode32 0x3D719AB7#32 = .ok (.vmacc false .vv 21 25 23) ∧
    decode32 0x42B17537#32 = .ok (.vsadd true .vv 10 23 11) ∧ decode32 0x4552B2B7#32 = .ok (.vsaddn false .vx 5 11 21) ∧
    decode32 0x4AA55937#32 = .ok (.vssub true .vi 18 21 10) ∧ decode32 0x4C50ACB7#32 = .ok (.vssubn false .vv 25 10 5) ∧
    decode32 0x53225BB7#32 = .ok (.vwadd true .vx 23 5 18) ∧ decode32 0x559125B7#32 = .ok (.vwmul false .vv 11 18 25) ∧
    decode32 0x5B739AB7#32 = .ok (.vwmacc true .vx 21 25 23) ∧ decode32 0x5CB37537#32 = .ok (.vnclip false .vx 10 23 11) ∧
    decode32 0x0352B2B9#32 = .ok (.vfadd true .vx 5 11 21) ∧ decode32 0x04A15939#32 = .ok (.vfsub false .vv 18 21 10) ∧
    decode32 0x0A52ACB9#32 = .ok (.vfmul true .vx 25 10 5) ∧ decode32 0x0D205BB9#32 = .ok (.vfdiv false .vv 23 5 18) ∧
    decode32 0x139325B9#32 = .ok (.vfmin true .vx 11 18 25) ∧ decode32 0x15719AB9#32 = .ok (.vfmax false .vv 21 25 23) ∧
    decode32 0x1AB37539#32 = .ok (.vfmacc true .vx 10 23 11) ∧ decode32 0x1D50B2B9#32 = .ok (.vfnmacc false .vv 5 11 21) :=
  ⟨rfl, rfl, rfl, rfl, rfl, rfl, rfl, rfl, rfl, rfl, rfl, rfl, rfl, rfl, rfl, rfl, rfl, rfl, rfl, rfl, rfl, rfl, rfl, rfl, rfl, rfl, rfl, rfl⟩

theorem test_words_7 :
    decode32 0x2200ACB9#32 = .ok (.vfsqrt true 25 10) ∧ decode32 0x2450ACB9#32 = .ok (.vfsgnj false .vv 25 10 5) ∧
    decode32 0x2B225BB9#32 = .ok (.vfsgnjn true .vx 23 5 18) ∧ decode32 0x2C019AB9#32 = .ok (.vfclass false 21 25) ∧
    decode32 0x03759ABB#32 = .ok (.vmseq true .vi 21 25 23) ∧ decode32 0x04B1753B#32 = .ok (.vmsne false .vv 10 23 11) ∧
    decode32 0x0B52B2BB#32 = .ok (.vmslt true .vx 5 11 21) ∧ decode32 0x0CA5593B#32 = .ok (.vmsle false .vi 18 21 10) ∧
    decode32 0x1250ACBB#32 = .ok (.vmsltn true .vv 25 10 5) ∧ decode32 0x15225BBB#32 = .ok (.vmslen false .vx 23 5 18) ∧
    decode32 0x1B9325BB#32 = .ok (.vmfeq true .vx 11 18 25) ∧ decode32 0x1D719ABB#32 = .ok (.vmflt false .vv 21 25 23) ∧
    decode32 0x22B3753B#32 = .ok (.vmfle true .vx 10 23 11) ∧ decode32 0x2791593B#32 = .ok (.vmand 18 21 25) ∧
    decode32 0x2B70ACBB#32 = .ok (.vmor 25 10 23) ∧ decode32 0x2EB05BBB#32 = .ok (.vmxor 23 5 11) ∧
    decode32 0x335125BB#32 = .ok (.vmandn 11 18 21) ∧ decode32 0x34019ABB#32 = .ok (.vmpop false 21 25) ∧
    decode32 0x43720ABB#32 = .ok (.vmv true .vx 21 0 23) ∧ decode32 0x44B3753B#32 = .ok (.vslideup false .vx 10 23 11) ∧
    decode32 0x4B54B2BB#32 = .ok (.vslidedn true .vi 5 11 21) ∧ decode32 0x4CA3593B#32 = .ok (.vgather false .vx 18 21 10) ∧
    decode32 0x52B05BBB#32 = .ok (.vcompress 23 5 11) ∧ decode32 0x55225BBB#32 = .ok (.vtrn false .vx 23 5 18) ∧
    decode32 0x5AA3593B#32 = .ok (.vxtract .vx 18 21 10) ∧ decode32 0x5E54ACBB#32 = .ok (.vinsert .vi 25 10 5) ∧
    decode32 0x61205BBB#32 = .ok (.vmerge .vv 23 5 18) ∧ decode32 0x015125BD#32 = .ok (.vredsum false 11 18 21) :=
  ⟨rfl, rfl, rfl, rfl, rfl, rfl, rfl, rfl, rfl, rfl, rfl, rfl, rfl, rfl, rfl, rfl, rfl, rfl, rfl, rfl, rfl, rfl, rfl, rfl, rfl, rfl, rfl, rfl⟩

theorem test_words_8 :
    decode32 0x06A19ABD#32 = .ok (.vredmin true 21 25 10) ∧ decode32 0x0851753D#32 = .ok (.vredmax false 10 23 5) ∧
    decode32 0x0F20B2BD#32 = .ok (.vredminn true 5 11 18) ∧ decode32 0x1191593D#32 = .ok (.vredmaxn false 18 21 25) ∧
    decode32 0x1770ACBD#32 = .ok (.vredand true 25 10 23) ∧ decode32 0x18B05BBD#32 = .ok (.vredor false 23 5 11) ∧
    decode32 0x1F5125BD#32 = .ok (.vredxor true 11 18 21) ∧ decode32 0x20A19ABD#32 = .ok (.vfredsum false 21 25 10) ∧
    decode32 0x2651753D#32 = .ok (.vwredsum true 10 23 5) ∧ decode32 0x0070B2BF#32 = .ok (.vcvtfi false .rup 5 11) ∧
    decode32 0x0601593F#32 = .ok (.vcvtfn true .frm 18 21) ∧ decode32 0x0840ACBF#32 = .ok (.vcvtif false .rne 25 10) ∧
    decode32 0x0E505BBF#32 = .ok (.vcvtnf true .rtz 23 5) ∧ decode32 0x106125BF#32 = .ok (.vcvtfw false .rdn 11 18) ∧
    decode32 0x16719ABF#32 = .ok (.vcvtfs true .rup 21 25) ∧ decode32 0x1801753F#32 = .ok (.vbdec false .frm 10 23) :=
  ⟨rfl, rfl, rfl, rfl, rfl, rfl, rfl, rfl, rfl, rfl, rfl, rfl, rfl, rfl, rfl, rfl⟩

theorem test_halfwords_0 :
    decode16 0xAC80#16 = .ok (.addiShort 18 21) ∧ decode16 0x5642#16 = .ok (.addShort 25 10) ∧ decode16 0x2DC4#16 = .ok (.subShort 23 5) ∧
    decode16 0x92C6#16 = .ok (.andShort 11 18) ∧ decode16 0xCD48#16 = .ok (.orShort 21 25) ∧ decode16 0xBA8A#16 = .ok (.xorShort 10 23) ∧
    decode16 0x594C#16 = .ok (.sllShort 5 11) ∧ decode16 0xAC8E#16 = .ok (.srlShort 18 21) ∧ decode16 0x5650#16 = .ok (.sraShort 25 10) ∧
    decode16 0x2DD2#16 = .ok (.sltShort 23 5) ∧ decode16 0x92D4#16 = .ok (.sltnShort 11 18) ∧ decode16 0xCD56#16 = .ok (.minShort 21 25) ∧
    decode16 0xBA98#16 = .ok (.maxShort 10 23) ∧ decode16 0x595A#16 = .ok (.minnShort 5 11) ∧ decode16 0xAC9C#16 = .ok (.maxnShort 18 21) ∧
    decode16 0x565E#16 = .ok (.mulShort 25 10) ∧ decode16 0x2DE0#16 = .ok (.addWShort 23 5) ∧ decode16 0x92E2#16 = .ok (.subWShort 11 18) ∧
    decode16 0xCD64#16 = .ok (.slliShort 21 25) ∧ decode16 0xBAA6#16 = .ok (.srliShort 10 23) ∧ decode16 0x5968#16 = .ok (.sraiShort 5 11) ∧
    decode16 0xACAA#16 = .ok (.andiShort 18 21) ∧ decode16 0x566C#16 = .ok (.oriShort 25 10) ∧ decode16 0x2DEE#16 = .ok (.xoriShort 23 5) ∧
    decode16 0x92F0#16 = .ok (.sltiShort 11 18) ∧ decode16 0xCD72#16 = .ok (.sltniShort 21 25) ∧ decode16 0xBAB4#16 = .ok (.paddiShort 10 23) ∧
    decode16 0x5976#16 = .ok (.beqShort 5 11) :=
  ⟨rfl, rfl, rfl, rfl, rfl, rfl, rfl, rfl, rfl, rfl, rfl, rfl, rfl, rfl, rfl, rfl, rfl, rfl, rfl, rfl, rfl, rfl, rfl, rfl, rfl, rfl, rfl, rfl⟩

theorem test_halfwords_1 :
    decode16 0xACB8#16 = .ok (.bneShort 18 21) ∧ decode16 0x567A#16 = .ok (.bltShort 25 10) ∧ decode16 0x2DFC#16 = .ok (.bgeShort 23 5) ∧
    decode16 0x92FE#16 = .ok (.jalShort 587) :=
  ⟨rfl, rfl, rfl, rfl⟩

/-! Single steps on small states, with results worked out from the manual; the worked examples of the manual. -/

/-- Does an outcome answer a next state with a property? -/
def next (o : Out) (p : State → Bool) : Bool :=
  match o with
  | .next t => p t
  | _ => false

/-- R71: 2^64 − 1 + 1 wraps to 0; the destination is also a source. -/
theorem test_add_wraps : next (exec (.add 1 1 2) (sr [(1, 2 ^ 64 - 1), (2, 1)])) (fun t => t.g 1 == 0 && t.ctx.pc == 0x1004) = true := by decide +kernel

/-- R71: `g0` discards what is written. -/
theorem test_add_g0 : next (exec (.add 0 1 2) (sr [(1, 5), (2, 1)])) (fun t => t.g 0 == 0) = true := by decide +kernel

/-- R71: −2 − 3 = −5 at width 32, sign-extended; the upper halves do not count. -/
theorem test_subW : next (exec (.subW 1 2 3) (sr [(2, 0x7FFFFFFFE), (3, 0x500000003)])) (fun t => t.g 1 == -5) = true := by decide +kernel

/-- R71: the arithmetic shift takes the low six bits of the count: 65 shifts by 1. -/
theorem test_sra : next (exec (.sra 1 2 3) (sr [(2, 2 ^ 64 - 6), (3, 65)])) (fun t => t.g 1 == -3) = true := by decide +kernel

/-- R71: floor of −2^63·3 / 2^64 is −2. -/
theorem test_mulh : next (exec (.mulh 1 2 3) (sr [(2, 2 ^ 63), (3, 3)])) (fun t => t.g 1 == -2) = true := by decide +kernel

/-- R72: a divisor 0, and the quotient that has no place. -/
theorem test_div_corners : next (exec (.div 1 2 3) (sr [(2, 7), (3, 0)])) (fun t => t.g 1 == -1) = true ∧
    next (exec (.rem 1 2 3) (sr [(2, 2 ^ 63), (3, 2 ^ 64 - 1)])) (fun t => t.g 1 == 0) = true := by decide +kernel

/-- R71: −7 / 2 rounds toward zero, and the remainder has the dividend's sign. -/
theorem test_div_rounding : next (exec (.div 1 2 3) (sr [(2, 2 ^ 64 - 7), (3, 2)])) (fun t => t.g 1 == -3) = true ∧
    next (exec (.rem 1 2 3) (sr [(2, 2 ^ 64 - 7), (3, 2)])) (fun t => t.g 1 == -1) = true := by decide +kernel

/-- R73: the immediate of `sltni` is sign-extended, then compared unsigned. -/
theorem test_sltni : next (exec (.sltni 1 2 0xFFF) (sr [(2, 5)])) (fun t => t.g 1 == 1) = true := by decide +kernel

/-- R79, R80: a taken branch lands at the PC plus twice its offset; `jalr` links and clears bit 0. -/
theorem test_branches : next (exec (.blt 1 2 0xFFE) (sr [(1, 2 ^ 64 - 1), (2, 0)])) (fun t => t.ctx.pc == 0xFFC) = true ∧
    next (exec (.jalr 1 2 1) (sr [(2, 0x4000)])) (fun t => t.g 1 == 0x1004 && t.ctx.pc == 0x4000) = true := by decide +kernel

/-- R75: a byte 0xF0 loads as −16 signed and 240 natural, from the scratchpad. -/
theorem test_ldb : next (exec (.ldb 1 2 0) (spadS.mapCore (fun c => c.putSpad 0x100 [0xF0]))) (fun t => t.g 1 == -16) = true ∧
    next (exec (.ldbn 1 2 0) (spadS.mapCore (fun c => c.putSpad 0x100 [0xF0]))) (fun t => t.g 1 == 240) = true := by decide +kernel

/-- R75: `stw` writes the low four bytes, little-endian, and nothing beside them. -/
theorem test_stw : next (exec (.stw 3 2 4) spadS) (fun t => t.core.getSpad 0x104 5 == [0x88, 0x77, 0x66, 0x55, 0] && t.core.getSpad 0x103 1 == [0]) = true := by
  decide +kernel

/-- R45, R44: a misaligned atomic traps with CAUSE and DETAIL, the PC and PRIV saved, and the handler entered at supervisor level. -/
theorem test_trap_entry : next (exec (.amoAdd false .none .system 1 2 3) ((withVec spadS).setG 2 0x00FF000000000101))
    (fun t => t.ctx.pc == 0x8000 && t.ctx.trapPc == 0x1000 && t.ctx.priv == 1 && t.ctx.inh && t.g 1 == 0) = true := by decide +kernel

/-- R237: `amo.add` answers the old value and stores the sum, in the scratchpad. -/
theorem test_amo_add : next (exec (.amoAdd false .none .system 1 2 3) ((spadS.mapCore (fun c => c.putSpad 0x100 (bytesLE 8 40))).setG 3 2))
    (fun t => t.g 1 == 40 && t.core.getSpad 0x100 1 == [42]) = true := by decide +kernel

/-- R123: 1000 F32 elements at GM 4 are 256 at first, and 232 at the end. -/
theorem test_setvli : next (exec (.setvli 5 6 0xA) (sr [(6, 1000)])) (fun t => t.g 5 == 256 && t.ctx.vl == 256) = true ∧
    next (exec (.setvli 5 6 0xA) (sr [(6, 232)])) (fun t => t.g 5 == 232 && t.ctx.vcfg == 0xA) = true := by decide +kernel

/-- R135: lanes of 8 bits wrap on their own, and the tail beyond VL is kept. -/
theorem test_vadd : next (exec (.vadd true .vv 1 2 3) ((vecS 2 0).mapCtx (fun x => { x with v := (x.v.set 1 0xAA0000#2048).set 2 0x01FF#2048 |>.set 3 0x0502#2048 })))
    (fun t => t.ctx.v[1] == 0xAA0601#2048) = true := by decide +kernel

/-- The example of R113: logical byte 5000 of billets of 32 bytes. -/
theorem test_billet_address : storeOf 32 5000 = 5320 ∧ headerOf 32 5000 = 4408 := by decide

/-- The examples of R105 and R109: a flipped check bit is no codeword; three M8 codes. -/
theorem test_billet_codes : headerSel 0x0D7F = some 1 ∧ headerSel 0x097F = none ∧ m8Mag 0x40 = 2048 ∧ m8Mag 0x50 = 3072 ∧ m8Mag 0x60 = 4096 := by decide

/-- The examples of R304: two lines of group 2. -/
theorem test_hashed_homes : hashHome 15 0x1234567840 = 12 ∧ hashHome 15 0x1234567880 = 60 := by decide +kernel

/-- The example of R413: the first doubleword of an enqueue. -/
theorem test_message_header : let e := { Ev.empty with data := [0x0100004201002008] }
    e.kind = 1 ∧ e.reqid = 0x42 ∧ e.len = 0x100 ∧ e.target = 8200 := by decide

/-- Ill-formed terms, one for each check: kinds that an instruction does not accept, fields that must be zero, and the short form without
an encoding. -/
theorem test_ill_formed : ∀ i ∈ ([.addiShort 0 3, .vmul true .vi 1 2 3, .vwadd true .vi 1 2 3, .vfadd true .vi 1 2 3, .vfmin true .vi 1 2 3,
    .vfsgnj true .vi 1 2 3, .vmfeq true .vi 1 2 3, .vmv true .vv 1 2 3, .vmv true .vx 1 2 3, .vslideup true .vv 1 2 3, .vxtract .vv 1 2 3] : List Instr),
    i.wf = false := by decide

/-- Words of no instruction are refused with their detail (R61): an unassigned f7, an unassigned major, an immediate of `setvli` with a reserved bit and the empty halfword, and
`vmul` with an immediate. -/
theorem test_refused_words :
    (∃ r, decode32 0x42308089#32 = .error r ∧ r.detail = 0) ∧ (∃ r, decode32 0x0000007F#32 = .error r ∧ r.detail = 0) ∧
    (∃ r, decode32 0x04A262B1#32 = .error r ∧ r.detail = 1) ∧ (∃ r, decode16 0#16 = .error r ∧ r.detail = 0) ∧ (∃ r, decode32 0x323420B7#32 = .error r) :=
  ⟨⟨_, rfl, rfl⟩, ⟨_, rfl, rfl⟩, ⟨_, rfl, rfl⟩, ⟨_, rfl, rfl⟩, ⟨_, rfl⟩⟩

/-! Witnesses: a step as a whole. -/

/-- The small state with `add g1, g8, g3` (R54, R59) where the next step fetches. -/
def addS : State := (sr [(8, 5), (3, 7)]).withFetchWord 32 0x00308089

/-- What fetching gives, as a condition that can be evaluated. -/
def halfIs (x : Half) (h : BitVec 16) : Bool :=
  match x with
  | .bits b => b == h
  | _ => false

theorem halfIs_eq {x : Half} {h : BitVec 16} (e : halfIs x h = true) : x = .bits h := by
  cases x <;> simp_all [halfIs]

theorem witness_step_runs_decoded :
    (let u := addS.tick
     addS.agenda = [] ∧ u.turn = 0 ∧ u.runs 0 = true ∧ (u.coreAt 0).next = some 0 ∧ (u.coreAt 0).uliDue 0 = false ∧
       (Spec.issuing u 0 0).ctx.bkptHere = false ∧ Spec.fetches (Spec.issuing u 0 0) [0x89, 0x80, 0x30, 0x00]) ∧
    decode [0x89, 0x80, 0x30, 0x00] = (.ok (.add 1 8 3), 4) := by
  refine ⟨⟨by decide +kernel, by decide +kernel, by decide +kernel, by decide +kernel, by decide +kernel, by decide +kernel,
    0x8089, halfIs_eq (by decide +kernel), .inr ⟨by decide, 0x0030, halfIs_eq (by decide +kernel), by decide⟩⟩, rfl⟩

/-- A halfword instruction alone, and an event at the head of the agenda. -/
theorem witness_step_of_a_halfword_and_an_event :
    (let s := (sr [(8, 5)]).withFetchWord 16 0x0042
     let u := s.tick
     ∃ h, (Spec.issuing u 0 0).fetchHalf (Spec.issuing u 0 0).ctx.pc.toNat = .bits h ∧ h.getLsbD 0 = false ∧ ∃ i, decode (halfBytes h) = (.ok i, 2)) ∧
    { s0 with agenda := [.event .coldBoot Ev.empty] }.agenda = .event .coldBoot Ev.empty :: [] :=
  ⟨⟨0x0042, halfIs_eq (by decide +kernel), by decide, _, rfl⟩, rfl⟩

/-- The engine of a die whose clock is stopped waits, the dispenser does not (R383); a store that has placed elements keeps its bits
(R166); and a turn of core 0 at the head of the agenda. -/
theorem witness_held_clock_and_resumed_store :
    (let s := s0.onDie 0 (fun x => { x with clockStopped := true })
     s.clockHeld .engineUnit Ev.empty = true ∧ s0.clockHeld .engineUnit Ev.empty = false) ∧
    (let s := s0.mapCtx (fun x => { x with placed := 1, hand := 0x00308089 })
     s.ctx.placed ≠ 0 ∧ bytesLE (irLen s.ctx.hand) s.ctx.hand.toNat = [0x89, 0x80, 0x30, 0x00]) ∧
    { addS with agenda := [.turn 0] }.agenda = .turn 0 :: [] ∧ (s0.ctxAt 0 0).stalled = false := by decide +kernel

/-- A message of an ordered connection waits behind one that comes again; one without order does not (R423). -/
theorem witness_messages_in_order :
    (let f : Ev := { Ev.empty with die := 1, ctx := 2, core := 1 }
     let s := { s0 with agenda := [.event .rmaWrite f] }
     Move.event .rmaWrite f ∈ s.agenda ∧ s.mustWait (.event .fabricDecrement { f with core := 0 }) = true ∧ s.connWaits (1, 3) = false ∧
       s.mustWait (.event .fabricDecrement { f with core := 0, ctx := 0 }) = false) := by decide +kernel

theorem witness_encodings :
    ((Instr.add 1 8 3).wf = true ∧ (Instr.add 1 8 3).hasWord = true ∧ (Instr.addShort 1 2).wf = true ∧ (Instr.addShort 1 2).hasWord = true) ∧
    (0x0042 : BitVec 16).getLsbD 0 = false ∧ ¬ ((0x0042 : BitVec 16).extractLsb' 1 5 = 0 ∧ (0x0042 : BitVec 16).extractLsb' 6 5 = 0) ∧
    ((0x1000 : BitVec 16).extractLsb' 1 5 = 0 ∧ (0x1000 : BitVec 16).extractLsb' 6 5 = 0) := by decide

theorem witness_step_invariant : Sys2Proof.Inv addS ∧ ∃ t, step addS = .next t := by
  refine ⟨inv_of_listed (by decide +kernel) (by decide +kernel) (by decide +kernel), ?_⟩
  have h : (match step addS with
    | .next _ => true
    | _ => false) = true := by decide +kernel
  revert h
  cases step addS with
  | next t => exact fun _ => ⟨t, rfl⟩
  | _ => exact fun h => by simp at h

/-- R249: a scratchpad word is poisoned; R274: a mutex breaks; both are logged as uncorrectable (R434). -/
theorem test_flaw_scratchpad_and_mutex :
    (let t := s0.flawed (.spadWord 5 3)
     (t.coreAt 5).spadPoison = [3] ∧ t.logInternal.map (fun e => fieldOf e.dw1 56 8) = [2]) ∧
    (let t := s0.flawed (.mutex 0 2)
     ((t.clusterAt 0).mutex 2).broken = true ∧ ((t.clusterAt 0).mutex 1).broken = false) := by decide +kernel

/-- R374: the packet of a context's access is lost, and the access raises the data-poison trap at the address it named. -/
theorem test_flaw_header :
    (let s := (s0.mapCore (fun c => { c with trapVec := 0x2001 })).wait (.mem 0x5000 false)
     let t := { s with agenda := [.event .memoryResponse { Ev.ofCtx 0 0 with addr := 0x5000, aux := 0x5004 }] }.flawed (.header 0)
     t.agenda = [] ∧ t.ctx.wait = none ∧ t.ctx.trapCause = 5 ∧ t.ctx.trapAddr = 0x5004 ∧ t.ctx.pc = 0x2000) := by decide +kernel

/-- R249: a dirty word of an L1 keeps its value and is poisoned. -/
theorem test_flaw_dirty_word :
    (let s := s0.mapCore (fun c => c.putWord 7 { val := 9, dirty := true, poison := false })
     (s.flawed (.l1Word 0 7)).l1Word 0 7 = some { val := 9, dirty := true, poison := true }) := by decide +kernel

end Sys2Proof.Tests
end

section
/-!
PROOFS. Taking a trap and returning from one (R45), and the helpers of a core (R40, R41).
-/

namespace Sys2Proof.Machine

open Sys2Proof

/-! Fields of registers. -/

theorem fieldOf_lt {w : Nat} (x : BitVec w) (lo n : Nat) : fieldOf x lo n < 2 ^ n := bitsOf_lt _ _ _

theorem fieldOf_eq_div_mod {w : Nat} (x : BitVec w) (lo n : Nat) : fieldOf x lo n = x.toNat / 2 ^ lo % 2 ^ n := by
  rw [fieldOf, bitsOf, Nat.shiftRight_eq_div_pow]

theorem getLsbD_eq_div_mod {w : Nat} (x : BitVec w) (i : Nat) : x.getLsbD i = decide (x.toNat / 2 ^ i % 2 = 1) := by
  rw [BitVec.getLsbD.eq_1, Nat.testBit_eq_decide_div_mod_eq]

/-- A code address named by bits [55:1] of a register fits the PC (R34). -/
theorem toNat_codeAddr {w : Nat} (x : BitVec w) : (BitVec.ofNat 56 (fieldOf x 1 55 * 2)).toNat = fieldOf x 1 55 * 2 := by
  have := fieldOf_lt x 1 55
  rw [BitVec.toNat_ofNat, Nat.mod_eq_of_lt (by omega)]

theorem Ctx.priv_lt (x : Ctx) : x.priv < 4 := fieldOf_lt _ _ _
theorem Ctx.ppriv_lt (x : Ctx) : x.ppriv < 4 := fieldOf_lt _ _ _

/-! Traps that are not logged are raised and nothing else. -/

theorem State.trapped_eq_raise (s : State) (t : Trap) (h4 : t.cause ≠ 4) (h5 : t.cause ≠ 5) : s.trapped t = .next (s.raise t) := by
  simp [State.trapped, State.logTrap, h4, h5]

theorem State.trapped_illegal (s : State) (detail : Nat) : s.trapped (Trap.illegal detail) = Spec.illegal s detail :=
  s.trapped_eq_raise _ (by decide : (1 : Nat) ≠ 4) (by decide : (1 : Nat) ≠ 5)

/-! Trap entry. -/

/-- A field of `CTX.STAT` apart from BSKIP is kept where the breakpoint is passed (R49). -/
theorem Ctx.fieldOf_stat_unskip (x : Ctx) (lo n : Nat) (h : lo + n ≤ 11 ∨ 12 ≤ lo) : fieldOf x.unskip.stat lo n = fieldOf x.stat lo n := by
  unfold Ctx.unskip
  split_ifs
  · exact fieldOf_setField_ne _ _ _ _ _ _ h
  · rfl

theorem Ctx.unskip_eq (x : Ctx) : x.unskip = { x with stat := x.unskip.stat } := by
  unfold Ctx.unskip
  split_ifs <;> rfl

@[simp] theorem Ctx.priv_unskip (x : Ctx) : x.unskip.priv = x.priv := x.fieldOf_stat_unskip 0 2 (.inl (by decide))
@[simp] theorem Ctx.ppriv_unskip (x : Ctx) : x.unskip.ppriv = x.ppriv := x.fieldOf_stat_unskip 8 2 (.inl (by decide))

/-- `CTX.STAT` after trap entry (R45): PPRIV and INH, and PRIV where user level is left. -/
theorem Ctx.stat_enterTrap (x : Ctx) (vec : Word) (word : BitVec 32) (t : Trap) :
    (x.enterTrap vec word t).stat =
      if x.priv = 0 then setField (setField (setField x.unskip.stat 8 2 x.priv) 10 1 1) 0 2 1
      else setField (setField x.unskip.stat 8 2 x.priv) 10 1 1 := by
  simp only [Ctx.enterTrap, Ctx.priv_unskip]
  split_ifs <;> rfl

@[simp] theorem Ctx.ppriv_enterTrap (x : Ctx) (vec : Word) (word : BitVec 32) (t : Trap) : (x.enterTrap vec word t).ppriv = x.priv := by
  have saved : fieldOf (setField (setField x.unskip.stat 8 2 x.priv) 10 1 1) 8 2 = x.priv := by
    rw [fieldOf_setField_ne _ _ _ _ _ _ (by decide), fieldOf_setField_self _ _ _ _ (by decide)]
    exact Nat.mod_eq_of_lt x.priv_lt
  rw [Ctx.ppriv, Ctx.stat_enterTrap]
  split_ifs
  · rw [fieldOf_setField_ne _ _ _ _ _ _ (by decide), saved]
  · exact saved

@[simp] theorem Ctx.priv_enterTrap (x : Ctx) (vec : Word) (word : BitVec 32) (t : Trap) :
    (x.enterTrap vec word t).priv = if x.priv = 0 then 1 else x.priv := by
  rw [Ctx.priv, Ctx.stat_enterTrap]
  split_ifs
  · exact fieldOf_setField_self _ _ _ _ (by decide)
  · rw [fieldOf_setField_ne _ _ _ _ _ _ (by decide), fieldOf_setField_ne _ _ _ _ _ _ (by decide)]
    exact x.priv_unskip

/-- Trap entry changes no bit of `CTX.STAT` outside PRIV, PPRIV and INH but BSKIP (R49). -/
theorem Ctx.getLsbD_stat_enterTrap (x : Ctx) (vec : Word) (word : BitVec 32) (t : Trap) {i : Nat}
    (hi : 2 ≤ i ∧ (i < 8 ∨ 11 ≤ i)) :
    (x.enterTrap vec word t).stat.getLsbD i = x.unskip.stat.getLsbD i := by
  rw [Ctx.stat_enterTrap]
  split_ifs
  · rw [getLsbD_setField, if_neg (by omega), getLsbD_setField, if_neg (by omega), getLsbD_setField, if_neg (by omega)]
  · rw [getLsbD_setField, if_neg (by omega), getLsbD_setField, if_neg (by omega)]

@[simp] theorem Ctx.inh_enterTrap (x : Ctx) (vec : Word) (word : BitVec 32) (t : Trap) : (x.enterTrap vec word t).inh = true := by
  rw [Ctx.inh, Ctx.stat_enterTrap]
  split_ifs
  · rw [getLsbD_setField, if_neg (by decide), getLsbD_setField, if_pos (by decide)]; rfl
  · rw [getLsbD_setField, if_pos (by decide)]; rfl

/-- What trap entry writes of a context (R45). -/
theorem Ctx.enterTrap_eq (x : Ctx) (vec : Word) (word : BitVec 32) (t : Trap) :
    x.enterTrap vec word t =
      { x with
        wait := none, got := [], lost := []
        pc := BitVec.ofNat 56 (fieldOf vec 1 55 * 2)
        stat := (x.enterTrap vec word t).stat
        trapPc := x.pc.setWidth 64
        trapWord := word.setWidth 64
        trapCause := BitVec.ofNat 64 (t.detail * 256 + t.cause)
        trapAddr := t.addr } := by
  have hy := x.unskip_eq
  generalize x.unskip.stat = w at hy
  simp only [Ctx.enterTrap, hy, Ctx.setStat]
  split_ifs <;> rfl

/-- With INH clear and a handler set a trap is entered at once (R45). -/
theorem State.raise_eq_enterTrap (s : State) (t : Trap) (hinh : s.ctx.inh = false) (hvec : s.core.trapVec.getLsbD 0 = true) :
    s.raise t = s.mapCtx (fun x => x.enterTrap s.core.trapVec s.ir t) := by
  have h : (!s.ctx.inh && s.core.trapVec.getLsbD 0) = true := by rw [hinh, hvec]; rfl
  exact if_pos h

/-- The fields of `TRAP.CAUSE` as trap entry writes it (R45). -/
theorem fieldOf_trapCause (t : Trap) (hc : t.cause < 256) (hd : t.detail < 256) :
    fieldOf (BitVec.ofNat 64 (t.detail * 256 + t.cause)) 0 8 = t.cause
    ∧ fieldOf (BitVec.ofNat 64 (t.detail * 256 + t.cause)) 8 8 = t.detail
    ∧ fieldOf (BitVec.ofNat 64 (t.detail * 256 + t.cause)) 16 48 = 0 := by
  simp only [fieldOf_eq_div_mod, BitVec.toNat_ofNat]
  omega

/-! Return from a trap. -/

@[simp] theorem Ctx.priv_eret (x : Ctx) : x.eret.priv = x.ppriv := by
  show fieldOf (setField (setField x.unskip.stat 0 2 x.unskip.ppriv) 10 1 0) 0 2 = x.ppriv
  rw [fieldOf_setField_ne _ _ _ _ _ _ (by decide), fieldOf_setField_self _ _ _ _ (by decide), Ctx.ppriv_unskip]
  exact Nat.mod_eq_of_lt x.ppriv_lt

@[simp] theorem Ctx.inh_eret (x : Ctx) : x.eret.inh = false := by
  show (setField (setField x.unskip.stat 0 2 x.unskip.ppriv) 10 1 0).getLsbD 10 = false
  rw [getLsbD_setField, if_pos (by decide)]
  rfl

/-- The return changes no bit of `CTX.STAT` outside PRIV and INH but BSKIP (R49). -/
theorem Ctx.getLsbD_stat_eret (x : Ctx) {i : Nat} (hi : 2 ≤ i ∧ i ≠ 10) : x.eret.stat.getLsbD i = x.unskip.stat.getLsbD i := by
  show (setField (setField x.unskip.stat 0 2 x.unskip.ppriv) 10 1 0).getLsbD i = _
  rw [getLsbD_setField, if_neg (by omega), getLsbD_setField, if_neg (by omega)]

/-- What the return writes of a context (R45). -/
theorem Ctx.eret_eq (x : Ctx) : x.eret = { x with pc := BitVec.ofNat 56 (fieldOf x.trapPc 1 55 * 2), stat := x.eret.stat } := by
  have hy := x.unskip_eq
  generalize x.unskip.stat = w at hy
  simp only [Ctx.eret, hy, Ctx.setStat]

/-! The instructions `trap` and `eret`. -/

theorem exec_trap (i : BitVec 12) (s : State) : exec (.trap i) s = .next (s.raise { cause := 7, detail := 0, addr := i.setWidth 64 }) := by
  have haddr : i.setWidth 64 = BitVec.ofNat 64 i.toNat := by rw [BitVec.ofNat_toNat]
  rw [haddr]
  exact s.trapped_eq_raise (Trap.software i.toNat) (by decide : (7 : Nat) ≠ 4) (by decide : (7 : Nat) ≠ 5)

theorem exec_eret_user (s : State) (h : s.ctx.priv = 0) : exec .eret s = Spec.illegal s 3 := by
  rw [← s.trapped_illegal]
  exact if_pos h

theorem exec_eret (s : State) (h : s.ctx.priv ≠ 0) : exec .eret s = .next (s.mapCtx Ctx.eret) := if_neg h

/-- Settles O9, from what trap entry and the return write of a context. -/
theorem trapEntryAndReturn : Obligations.trap_entry_and_return := by
  refine ⟨fun s hinh hvec => ⟨fun i => exec_trap i s, fun t hc hd => ?enters⟩, fun s => ⟨exec_eret_user s, fun h => ?returns⟩⟩
  case enters =>
    have hraise := s.raise_eq_enterTrap t hinh hvec
    have hctx : (s.raise t).ctx = s.ctx.enterTrap s.core.trapVec s.ir t := by rw [hraise, State.ctx_mapCtx]
    obtain ⟨hcause, hdetail, hrest⟩ := fieldOf_trapCause t hc hd
    have hframe := s.ctx.enterTrap_eq s.core.trapVec s.ir t
    dsimp only
    rw [hctx]
    refine ⟨congrArg Ctx.trapPc hframe, congrArg Ctx.trapWord hframe, hcause, hdetail, hrest, congrArg Ctx.trapAddr hframe,
      s.ctx.ppriv_enterTrap _ _ _, s.ctx.priv_enterTrap _ _ _, s.ctx.inh_enterTrap _ _ _, toNat_codeAddr s.core.trapVec,
      fun i hi => ?bits, ?bskip, hframe, hraise⟩
    case bits =>
      simp only [List.mem_cons, List.not_mem_nil, or_false, not_or] at hi
      rw [s.ctx.getLsbD_stat_enterTrap _ _ _ (by omega), Ctx.getLsbD_stat_unskip, if_neg (by omega)]
    case bskip => rw [s.ctx.getLsbD_stat_enterTrap _ _ _ (by decide), Ctx.getLsbD_stat_unskip, if_pos rfl]
  case returns =>
    refine ⟨s.ctx.eret, exec_eret s h, toNat_codeAddr s.ctx.trapPc, s.ctx.priv_eret, s.ctx.inh_eret, fun i hi => ?bits, ?bskip,
      s.ctx.eret_eq⟩
    case bits =>
      simp only [List.mem_cons, List.not_mem_nil, or_false, not_or] at hi
      rw [s.ctx.getLsbD_stat_eret (by omega), Ctx.getLsbD_stat_unskip, if_neg (by omega)]
    case bskip => rw [s.ctx.getLsbD_stat_eret (by decide), Ctx.getLsbD_stat_unskip, if_pos rfl]

/-! The helper that `hstart` makes (R40). -/

theorem getG_helperStart (x : Ctx) (n : Nat) (entry : VAddr) (arg : Word) (r : Reg) :
    (helperStart x n entry arg).getG r = if r = 1 then arg else 0 := by
  unfold Ctx.getG helperStart
  by_cases h0 : r = 0
  · rw [if_pos h0, if_neg (by rw [h0]; decide)]
  · rw [if_neg h0, Vector.getElem_set, Vector.getElem_replicate]
    by_cases h1 : r = 1
    · rw [if_pos h1, if_pos (by rw [h1]; rfl)]
    · rw [if_neg h1, if_neg (fun h => h1 (BitVec.eq_of_toNat_eq h.symm))]

theorem getOx_helperStart (x : Ctx) (n : Nat) (entry : VAddr) (arg : Word) (r : OxReg) : (helperStart x n entry arg).getOx r = 0 :=
  Vector.getElem_replicate _

theorem getV_helperStart (x : Ctx) (n : Nat) (entry : VAddr) (arg : Word) (r : Nat) : (helperStart x n entry arg).getV r = 0 := by
  unfold Ctx.getV
  split_ifs
  · exact Vector.getElem_replicate _
  · rfl

section
variable (x : Ctx) {n : Nat} (entry : VAddr) (arg : Word) (hn : n ≤ 10)
include hn

/-- `CTX.STAT` of a new helper is its number, BCTE and PRIV, and nothing else (R40). -/
theorem toNat_stat_helperStart : (helperStart x n entry arg).stat.toNat = n * 4096 + (if x.bcte then 32 else 0) + x.priv := by
  have := x.priv_lt
  refine (BitVec.toNat_ofNat _ _).trans (Nat.mod_eq_of_lt ?_)
  split_ifs <;> omega

theorem priv_helperStart : (helperStart x n entry arg).priv = x.priv := by
  have := x.priv_lt
  rw [Ctx.priv, fieldOf_eq_div_mod, toNat_stat_helperStart x entry arg hn]
  split_ifs <;> omega

theorem ppriv_helperStart : (helperStart x n entry arg).ppriv = 0 := by
  have := x.priv_lt
  rw [Ctx.ppriv, fieldOf_eq_div_mod, toNat_stat_helperStart x entry arg hn]
  split_ifs <;> omega

theorem cidx_helperStart : (helperStart x n entry arg).cidx = n := by
  have := x.priv_lt
  rw [Ctx.cidx, fieldOf_eq_div_mod, toNat_stat_helperStart x entry arg hn]
  split_ifs <;> omega

theorem bcte_helperStart : (helperStart x n entry arg).bcte = x.bcte := by
  have := x.priv_lt
  rw [Ctx.bcte, getLsbD_eq_div_mod, toNat_stat_helperStart x entry arg hn]
  by_cases hb : x.bcte = true
  · rw [if_pos hb, hb]; exact decide_eq_true (by omega)
  · rw [if_neg hb, Bool.eq_false_of_not_eq_true hb]; exact decide_eq_false (by omega)

theorem inh_helperStart : (helperStart x n entry arg).inh = false := by
  have := x.priv_lt
  rw [Ctx.inh, getLsbD_eq_div_mod, toNat_stat_helperStart x entry arg hn, decide_eq_false_iff_not]
  split_ifs <;> omega

theorem bskip_helperStart : (helperStart x n entry arg).bskip = false := by
  have := x.priv_lt
  rw [Ctx.bskip, getLsbD_eq_div_mod, toNat_stat_helperStart x entry arg hn, decide_eq_false_iff_not]
  split_ifs <;> omega

end

/-! The slot that `hstart` takes (R40). -/

theorem Core.freeHelper_eq (c : Core) :
    c.freeHelper = ((List.range 10).find? (fun i => (c.ctx (i + 1)).life == .free)).map (fun i => i + 1) := List.find?_map

theorem Core.freeHelper_eq_none (c : Core) (h : ∀ i, 1 ≤ i → i ≤ 10 → (c.ctx i).life ≠ .free) : c.freeHelper = none := by
  rw [Core.freeHelper_eq, Option.map_eq_none_iff, List.find?_range_eq_none]
  intro i hi
  simpa using h (i + 1) (by omega) (by omega)

theorem Core.freeHelper_eq_some (c : Core) {k : Nat} (h1 : 1 ≤ k) (h10 : k ≤ 10) (hfree : (c.ctx k).life = .free)
    (hlow : ∀ i, 1 ≤ i → i < k → (c.ctx i).life ≠ .free) : c.freeHelper = some k := by
  have hfind : (List.range 10).find? (fun i => (c.ctx (i + 1)).life == .free) = some (k - 1) := by
    rw [List.find?_range_eq_some]
    refine ⟨?_, List.mem_range.2 (by omega), fun i hi => ?_⟩
    · rw [Nat.sub_add_cancel h1, hfree]; rfl
    · simpa using hlow (i + 1) (by omega) (by omega)
  rw [Core.freeHelper_eq, hfind, Option.map_some, Nat.sub_add_cancel h1]

/-! The instructions `hstart`, `hjoin` and `hexit`. -/

theorem exec_hstart_helper (s : State) (d a b : Reg) (h : s.ctx.cidx ≠ 0) : exec (.hstart d a b) s = Spec.illegal s 2 := by
  rw [← s.trapped_illegal]
  exact if_pos h

theorem exec_hstart_full (s : State) (d a b : Reg) (h : s.ctx.cidx = 0) (hf : s.core.freeHelper = none) :
    exec (.hstart d a b) s = .next ((s.setG d 0).finish 4) := by
  show execHstart d a b s = _
  rw [execHstart, if_neg (not_not.2 h), hf]

theorem exec_hstart (s : State) (d a b : Reg) {k : Nat} (h : s.ctx.cidx = 0) (hf : s.core.freeHelper = some k) :
    exec (.hstart d a b) s =
      .next (((s.setCtxAt s.focus k (helperStart s.ctx k (BitVec.ofNat 56 (fieldOf (s.g a) 1 55 * 2)) (s.g b))).setG d
        (BitVec.ofNat 64 k)).finish 4) := by
  show execHstart d a b s = _
  rw [execHstart, if_neg (not_not.2 h), hf]

theorem exec_hjoin_illegal (s : State) (d : Reg) (n : BitVec 12) (h : s.ctx.cidx ≠ 0 ∨ n.toNat = 0 ∨ 10 < n.toNat) :
    exec (.hjoin d n) s = Spec.illegal s 2 := by
  rw [← s.trapped_illegal]
  exact if_pos h

/-- `hjoin` of a helper slot by the life of the slot (R41). -/
theorem exec_hjoin (s : State) (d : Reg) (n : BitVec 12) (h : s.ctx.cidx = 0) (h1 : 1 ≤ n.toNat) (h10 : n.toNat ≤ 10) :
    exec (.hjoin d n) s =
      match (s.ctxAt s.focus n.toNat).life with
      | .free => .next ((s.setG d 0).finish 4)
      | .live => .next (s.wait (.helper n.toNat))
      | .exited v => .next (((s.setCtxAt s.focus n.toNat (Ctx.reset n.toNat)).setG d v).finish 4) :=
  if_neg (by omega)

theorem exec_hexit_control (s : State) (a : Reg) (h : s.ctx.cidx = 0) : exec (.hexit a) s = Spec.illegal s 2 := by
  rw [← s.trapped_illegal]
  exact if_pos h

/-- A helper that has exited with a value (R41). -/
def Ctx.exitWith (x : Ctx) (v : Word) : Ctx := { x with life := .exited v, wait := none }

/-- `hexit` wakes the control context where it waits for this helper (R41). -/
theorem exec_hexit (s : State) (a : Reg) (h : s.ctx.cidx ≠ 0) (hcur : s.curCtx ≠ 0) :
    exec (.hexit a) s = .next
      (if (s.ctxAt s.focus 0).waitsHelper s.curCtx then (s.mapCtx (fun x => x.exitWith (s.g a))).ready s.focus 0
       else s.mapCtx (fun x => x.exitWith (s.g a))) := by
  have hne : ¬ (s.focus = s.focus ∧ 0 = (s.curCtx : Nat)) := fun e => hcur (Fin.ext e.2.symm)
  rw [← s.ctxAt_mapCtx_ne (fun x => x.exitWith (s.g a)) hne]
  exact if_neg h

theorem State.ctxAt_ready (s : State) (n m j : Nat) {i : Nat} (hi : i < 11) :
    (s.ready n i).ctxAt m j = if m = n ∧ j = i then { s.ctxAt n i with wait := none } else s.ctxAt m j :=
  s.ctxAt_setCtxAt _ _ _ _ _ hi

/-- Settles O12: the cases of the three instructions, and the helper that `hstart` makes, field by field. -/
theorem helperResults : Obligations.helper_results := by
  intro s d a b n
  refine ⟨fun h => ⟨exec_hstart_helper s d a b h, exec_hjoin_illegal s d n (.inl h)⟩, fun h => exec_hjoin_illegal s d n (.inr h),
    exec_hexit_control s a, fun h hfull => exec_hstart_full s d a b h (s.core.freeHelper_eq_none hfull),
    fun k h h1 h10 hfree hlow => ?starts, fun v h h1 h10 => ?joins, fun h hcur => ?exits⟩
  case starts =>
    refine ⟨_, exec_hstart s d a b h (s.core.freeHelper_eq_some h1 h10 hfree hlow), rfl, rfl, toNat_codeAddr (s.g a), ?arg,
      fun r hr => ?regs, getOx_helperStart _ _ _ _, fun r _ => getV_helperStart _ _ _ _ r, rfl, rfl, rfl, rfl, rfl, rfl,
      priv_helperStart _ _ _ h10, bcte_helperStart _ _ _ h10, inh_helperStart _ _ _ h10, ppriv_helperStart _ _ _ h10,
      bskip_helperStart _ _ _ h10, cidx_helperStart _ _ _ h10, rfl, rfl, rfl, rfl, rfl⟩
    case arg => rw [getG_helperStart, if_pos rfl]
    case regs => rw [getG_helperStart, if_neg hr]
  case joins =>
    have hjoin := exec_hjoin s d n h h1 h10
    refine ⟨fun hl => ⟨Ctx.reset n.toNat, rfl, ?_⟩, fun hl => ?_, fun hl => ?_⟩
    all_goals rw [hjoin, hl]
  case exits =>
    have hself : (s.mapCtx (fun x => x.exitWith (s.g a))).ctxAt s.focus s.curCtx = s.ctx.exitWith (s.g a) := State.ctx_mapCtx _ _
    refine ⟨_, exec_hexit s a h hcur, ?life, fun hw => ?woken⟩
    case life =>
      have hne : ¬ (s.focus = s.focus ∧ (s.curCtx : Nat) = 0) := fun e => hcur (Fin.ext e.2)
      split_ifs
      · rw [State.ctxAt_ready _ _ _ _ (by decide), if_neg hne, hself]; rfl
      · rw [hself]; rfl
    case woken => rw [if_pos hw, State.ctxAt_ready _ _ _ _ (by decide), if_pos ⟨rfl, rfl⟩]

end Sys2Proof.Machine
end

section
/-!
PROOFS. The 16-bit forms (R52, R58, R59): how a halfword is framed and cut into its fields, and which of the short forms is illegal.
-/

namespace Sys2Proof

/-! Framing and fields of a halfword. -/

/-- Two bytes are put together to the halfword they came from, and its length bit 0 makes it an instruction of two bytes (R52). -/
theorem decode_halfBytes_append {h : BitVec 16} (rest : List Byte) (h0 : h.getLsbD 0 = false) :
    decode (halfBytes h ++ rest) = (decode16 h, 2) := by
  have hjoin : h.extractLsb' 8 8 ++ h.extractLsb' 0 8 = h := BitVec.extractLsb'_append_extractLsb'
  have hlen : ¬ (h.extractLsb' 0 8).getLsbD 0 = true := by simpa using h0
  calc decode (halfBytes h ++ rest)
      = (decode16 (h.extractLsb' 8 8 ++ h.extractLsb' 0 8), 2) := if_neg hlen
    _ = (decode16 h, 2) := by rw [hjoin]

/-- No bit of a halfword lies outside its short fields but the length bit (R58). -/
theorem word_shortFieldsOf {h : BitVec 16} (h0 : h.getLsbD 0 = false) : (shortFieldsOf h).word = h := by
  have hbit : (0#1 : BitVec 1) = h.extractLsb' 0 1 := by
    apply BitVec.eq_of_getLsbD_eq
    intro i hi
    obtain rfl : i = 0 := by omega
    simpa using h0.symm
  calc h.extractLsb' 11 5 ++ h.extractLsb' 6 5 ++ h.extractLsb' 1 5 ++ 0#1
      = h.extractLsb' 11 5 ++ h.extractLsb' 6 5 ++ h.extractLsb' 1 5 ++ h.extractLsb' 0 1 := by rw [hbit]
    _ = h.extractLsb' 0 16 := by
      rw [BitVec.extractLsb'_append_extractLsb'_eq_extractLsb' (show 11 = 6 + 5 from rfl),
        BitVec.extractLsb'_append_extractLsb'_eq_extractLsb' (show 6 = 1 + 5 from rfl),
        BitVec.extractLsb'_append_extractLsb'_eq_extractLsb' (show 1 = 0 + 1 from rfl)]
    _ = h := BitVec.extractLsb'_eq_self

/-! The op of the short forms. -/

theorem decodeShortFields_illegal {f : ShortFields} (hop : f.op = 0) (hd : f.d = 0) : decodeShortFields f = .error .unassigned := by
  rw [decodeShortFields, hop]
  exact if_pos hd

theorem short_eq_of_op {f : ShortFields} {k : BitVec 5} (h : f.op.toNat = k.toNat) : Encoding.short ⟨k, f.d, f.u⟩ = .short f := by
  rw [← BitVec.eq_of_toNat_eq h]

theorem encodeFields_jalShort (d u : BitVec 5) : encodeFields (.jalShort (u ++ d)) = .short ⟨31, d, u⟩ := by
  show Encoding.short ⟨31, (u ++ d).extractLsb' 0 5, (u ++ d).extractLsb' 5 5⟩ = _
  rw [BitVec.extractLsb'_append_eq_right, BitVec.extractLsb'_append_eq_left]

/-- Every op but 0 with d = 0 is one of the short forms, and the encoder gives its fields back (R58, R59). -/
theorem decodeShortFields_legal {f : ShortFields} (hf : ¬ (f.op = 0 ∧ f.d = 0)) :
    ∃ i, decodeShortFields f = .ok i ∧ encodeFields i = .short f := by
  unfold decodeShortFields
  split
  case h_1 hop =>
    have hd : f.d ≠ 0 := fun hd => hf ⟨BitVec.eq_of_toNat_eq hop, hd⟩
    exact ⟨_, if_neg hd, short_eq_of_op hop⟩
  case h_32 =>
    have hop : f.op.toNat = 31 := by
      have := f.op.isLt
      simp only [imp_false] at *
      omega
    exact ⟨_, rfl, (encodeFields_jalShort f.d f.u).trans (short_eq_of_op hop)⟩
  all_goals
    rename_i hop
    exact ⟨_, rfl, short_eq_of_op hop⟩

/-! Halfwords. -/

theorem decode16_illegal {h : BitVec 16} (hop : h.extractLsb' 1 5 = 0) (hd : h.extractLsb' 6 5 = 0) : decode16 h = .error .unassigned :=
  decodeShortFields_illegal hop hd

theorem decode16_legal {h : BitVec 16} (h0 : h.getLsbD 0 = false) (hf : ¬ (h.extractLsb' 1 5 = 0 ∧ h.extractLsb' 6 5 = 0)) :
    ∃ i, decode16 h = .ok i ∧ encode i = halfBytes h := by
  obtain ⟨i, hi, henc⟩ := decodeShortFields_legal (f := shortFieldsOf h) hf
  refine ⟨i, hi, ?_⟩
  rw [encode, henc]
  exact congrArg halfBytes (word_shortFieldsOf h0)

/-- Settles O56: the nine words evaluate, and a halfword is framed, then read by its short fields. -/
theorem decodedWords : Obligations.decoded_words := by
  refine ⟨rfl, rfl, rfl, rfl, rfl, rfl, rfl, rfl, rfl, fun h rest h0 => ?halfword⟩
  case halfword =>
    rw [decode_halfBytes_append rest h0]
    split_ifs with hf
    · obtain ⟨hop, hd⟩ := hf
      exact ⟨by rw [decode16_illegal hop hd], rfl⟩
    · obtain ⟨i, hi, henc⟩ := decode16_legal h0 hf
      exact ⟨i, by rw [hi], henc⟩

end Sys2Proof
end

section
/-!
PROOFS. The immediate instructions (R73, R74) and the branches and jumps (R79, R80): the words they compute are the wrapped integers
of the manual.
-/

namespace Sys2Proof.Machine

open Sys2Proof

/-! Words as wrapped integers. -/

theorem ofInt_toNat {n : Nat} (x : BitVec n) : BitVec.ofInt n x.toNat = x := by
  rw [BitVec.ofInt_natCast, BitVec.ofNat_toNat, BitVec.setWidth_eq]

/-- Sums (R71). -/
theorem add_eq_ofInt {n : Nat} (x y : BitVec n) : x + y = BitVec.ofInt n (x.toInt + y.toInt) := by
  rw [BitVec.ofInt_add, BitVec.ofInt_toInt, BitVec.ofInt_toInt]

theorem and_eq_ofInt {n : Nat} (x y : BitVec n) : x &&& y = BitVec.ofInt n ((x.toNat &&& y.toNat : Nat)) :=
  (ofInt_toNat (x &&& y)).symm

theorem or_eq_ofInt {n : Nat} (x y : BitVec n) : x ||| y = BitVec.ofInt n ((x.toNat ||| y.toNat : Nat)) :=
  (ofInt_toNat (x ||| y)).symm

theorem xor_eq_ofInt {n : Nat} (x y : BitVec n) : x ^^^ y = BitVec.ofInt n ((x.toNat ^^^ y.toNat : Nat)) :=
  (ofInt_toNat (x ^^^ y)).symm

theorem setLess_eq_ofInt (x y : Word) : setLess x y = BitVec.ofInt 64 (Spec.flagInt (x.toInt < y.toInt)) := by
  simp only [setLess, Spec.flagInt, BitVec.slt_iff_toInt_lt]
  split_ifs <;> rfl

theorem setLessN_eq_ofInt (x y : Word) : setLessN x y = BitVec.ofInt 64 (Spec.flagInt (x.toNat < y.toNat)) := by
  simp only [setLessN, Spec.flagInt, BitVec.ult_iff_toNat_lt]
  split_ifs <;> rfl

/-- Left shifts multiply by a power of two (R71). -/
theorem shiftL_eq_ofInt {n : Nat} (x y : BitVec n) : shiftL x y = BitVec.ofInt n ((x.toNat : Int) * 2 ^ (y.toNat % n)) := by
  have h : BitVec.ofNat n (x.toNat * 2 ^ (y.toNat % n)) = shiftL x y :=
    BitVec.eq_of_toNat_eq (by rw [shiftL, BitVec.toNat_ofNat, BitVec.toNat_shiftLeft, Nat.shiftLeft_eq])
  rw [← h, ← BitVec.ofInt_natCast]
  norm_cast

/-- Logical right shifts divide the unsigned value by a power of two, rounding down (R71). -/
theorem shiftR_eq_ofInt {n : Nat} (x y : BitVec n) : shiftR x y = BitVec.ofInt n ((x.toNat : Int) / 2 ^ (y.toNat % n)) := by
  have hdiv : (shiftR x y).toNat = x.toNat / 2 ^ (y.toNat % n) := by
    rw [shiftR, BitVec.toNat_ushiftRight, Nat.shiftRight_eq_div_pow]
  have h := (ofInt_toNat (shiftR x y)).symm
  rw [hdiv] at h
  exact_mod_cast h

/-- Arithmetic right shifts divide the signed value by a power of two, rounding down (R71). -/
theorem shiftA_eq_ofInt {n : Nat} (x y : BitVec n) : shiftA x y = BitVec.ofInt n (x.toInt / 2 ^ (y.toNat % n)) := by
  have h : (shiftA x y).toInt = x.toInt / 2 ^ (y.toNat % n) := by
    rw [shiftA, BitVec.toInt_sshiftRight, Int.shiftRight_eq_div_pow]
    norm_cast
  rw [← h, BitVec.ofInt_toInt]

/-! Immediates, counts and offsets. -/

theorem toInt_immWord (i : BitVec 12) : (immWord i).toInt = i.toInt := BitVec.toInt_signExtend_of_le (by decide)

/-- A count of six bits is its own residue modulo 64 (R73). -/
theorem toNat_count_mod (c : BitVec 6) : (c.setWidth 64).toNat % 64 = c.toNat := by
  have hc := c.isLt
  rw [BitVec.toNat_setWidth_of_le (by decide), Nat.mod_eq_of_lt hc]

/-- Twelve zero bits below an immediate multiply it by 2^12 (R74). -/
theorem toInt_append_zeros (i : BitVec 20) : (i ++ 0#12).toInt = i.toInt * 2 ^ 12 := by
  have hn : (i ++ 0#12).toNat = i.toNat * 2 ^ 12 := by
    rw [BitVec.toNat_append, Nat.shiftLeft_eq]
    exact Nat.or_zero _
  rw [BitVec.toInt_eq_toNat_cond, BitVec.toInt_eq_toNat_cond, hn]
  split_ifs <;> omega

/-- An offset counts units of two bytes (R55). -/
theorem offBytes_eq_ofInt {n : Nat} (o : BitVec n) : offBytes o = BitVec.ofInt 56 (2 * o.toInt) := by
  rw [offBytes, BitVec.shiftLeft_eq_mul_twoPow, BitVec.ofInt_mul, BitVec.mul_comm]
  rfl

theorem pc_add_offBytes {n : Nat} (pc : VAddr) (o : BitVec n) : pc + offBytes o = BitVec.ofInt 56 (pc.toNat + 2 * o.toInt) := by
  rw [offBytes_eq_ofInt, BitVec.ofInt_add, ofInt_toNat]

/-- The address of `jalr` before bit 0 is cleared: only the low 56 bits of the base count (R80). -/
theorem base_add_imm {n : Nat} (x : Word) (i : BitVec n) :
    x.setWidth 56 + i.signExtend 56 = BitVec.ofInt 56 (x.toNat + i.toInt) := by
  rw [BitVec.ofInt_add, BitVec.ofInt_natCast]
  rfl

/-- An address wrapped to 56 bits, as a plain pointer in a register (R74, R80). -/
theorem setWidth_ofInt_addr (q : Int) : (BitVec.ofInt 56 q).setWidth 64 = BitVec.ofInt 64 (q % 2 ^ 56) := by
  have hq : (((q % 2 ^ 56).toNat : Nat) : Int) = q % 2 ^ 56 := Int.toNat_of_nonneg (Int.emod_nonneg q (by decide))
  have hnat : (BitVec.ofInt 56 q).toNat = (q % 2 ^ 56).toNat := BitVec.toNat_ofInt q
  rw [← BitVec.ofNat_toNat, hnat, ← BitVec.ofInt_natCast, hq]

/-- The link (R80). -/
theorem setWidth_link (pc : VAddr) : (pc + 4).setWidth 64 = BitVec.ofNat 64 ((pc.toNat + 4) % 2 ^ 56) := by
  rw [← BitVec.ofNat_toNat, BitVec.toNat_add]
  rfl

/-- Clearing bit 0 rounds an address down to an even one, also where it wraps (R80). -/
theorem clear_bit0_ofInt (q : Int) : BitVec.ofInt 56 q &&& ~~~1#56 = BitVec.ofInt 56 (q / 2 * 2) := by
  have hbit (x : VAddr) : x &&& ~~~1#56 = x >>> 1 <<< 1 := by
    apply BitVec.eq_of_getLsbD_eq
    intro i hi
    rw [BitVec.getLsbD_and, BitVec.getLsbD_not, BitVec.getLsbD_one, BitVec.getLsbD_shiftLeft, BitVec.getLsbD_ushiftRight]
    cases i with
    | zero => simp
    | succ i => simp [hi, Nat.add_comm 1 i]
  apply BitVec.eq_of_toNat_eq
  rw [hbit, BitVec.toNat_shiftLeft, BitVec.toNat_ushiftRight, Nat.shiftLeft_eq, Nat.shiftRight_eq_div_pow,
    BitVec.toNat_ofInt, BitVec.toNat_ofInt]
  omega

/-! What the shared operations answer. -/

theorem State.aluImm_eq_wrote {s : State} {len : Nat} {d a : Reg} {y : Word} {f : Word → Word → Word} {r : Int}
    (h : f (s.g a) y = BitVec.ofInt 64 r) : s.aluImm len d a y f = .next (Spec.wrote s len d r) := by
  rw [State.aluImm, h, Spec.wrote]

/-- A branch jumps when its condition holds and moves past itself when it does not (R79). -/
theorem State.branch_cases {s : State} {len : Nat} {taken : Bool} {p : Prop} {n : Nat} {o : BitVec n} (h : taken = true ↔ p) :
    (p → s.branch len taken (offBytes o) = .next (s.jump (BitVec.ofInt 56 (s.ctx.pc.toNat + 2 * o.toInt)))) ∧
      (¬ p → s.branch len taken (offBytes o) = .next (s.finish len)) := by
  rw [State.branch, pc_add_offBytes]
  exact ⟨fun hp => by rw [if_pos (h.mpr hp)], fun hp => by rw [if_neg (mt h.mp hp)]⟩

/-! The conditions of the branches. -/

theorem beq_iff_toNat_eq {n : Nat} (x y : BitVec n) : (x == y) = true ↔ x.toNat = y.toNat :=
  beq_iff_eq.trans BitVec.toNat_inj.symm

theorem bne_iff_toNat_ne {n : Nat} (x y : BitVec n) : (x != y) = true ↔ x.toNat ≠ y.toNat :=
  bne_iff_ne.trans (not_congr BitVec.toNat_inj.symm)

theorem not_slt_iff_toInt_le {n : Nat} (x y : BitVec n) : (!x.slt y) = true ↔ y.toInt ≤ x.toInt := by
  rw [← BitVec.sle_eq_not_slt, BitVec.sle_iff_toInt_le]

theorem not_ult_iff_toNat_le {n : Nat} (x y : BitVec n) : (!x.ult y) = true ↔ y.toNat ≤ x.toNat := by
  rw [← BitVec.ule_eq_not_ult, BitVec.ule_iff_toNat_le]

/-! The instructions that take neither operation. -/

theorem exec_ldhi (s : State) (d : Reg) (i : BitVec 20) : exec (.ldhi d i) s = .next (Spec.wrote s 4 d (i.toInt * 2 ^ 12)) := by
  rw [← toInt_append_zeros]
  rfl

theorem exec_pcadd (s : State) (d : Reg) (i : BitVec 20) :
    exec (.pcadd d i) s = .next (Spec.wrote s 4 d ((s.ctx.pc.toNat + i.toInt * 2 ^ 12) % 2 ^ 56)) := by
  have hsum : s.ctx.pc + (i ++ 0#12).signExtend 56 = BitVec.ofInt 56 (s.ctx.pc.toNat + i.toInt * 2 ^ 12) := by
    rw [BitVec.ofInt_add, ofInt_toNat, ← toInt_append_zeros]
    rfl
  rw [Spec.wrote, ← setWidth_ofInt_addr, ← hsum]
  rfl

theorem exec_jal (s : State) (d : Reg) (o : BitVec 20) :
    exec (.jal d o) s = .next ((s.setG d (BitVec.ofNat 64 ((s.ctx.pc.toNat + 4) % 2 ^ 56))).jump
      (BitVec.ofInt 56 (s.ctx.pc.toNat + 2 * o.toInt))) := by
  rw [← setWidth_link, ← pc_add_offBytes]
  rfl

/-- The base is the register of the state before the link is written, so `d = a` makes no difference (R80). -/
theorem exec_jalr (s : State) (d a : Reg) (i : BitVec 12) :
    exec (.jalr d a i) s = .next ((s.setG d (BitVec.ofNat 64 ((s.ctx.pc.toNat + 4) % 2 ^ 56))).jump
      (BitVec.ofInt 56 (((s.g a).toNat + i.toInt) / 2 * 2))) := by
  rw [← setWidth_link, ← clear_bit0_ofInt, ← base_add_imm]
  rfl

/-- Settles O2: each result word is the wrapped integer of the manual. -/
theorem immediateResults : Obligations.immediate_results := by
  refine ⟨fun s d a i => ?imm, fun s d a c => ?count, fun s d i => ?upper⟩
  case imm =>
    refine ⟨?addi, ?slti, ?sltni, ?xori, ?ori, ?andi⟩
    case addi => exact State.aluImm_eq_wrote ((add_eq_ofInt _ _).trans (by rw [toInt_immWord]))
    case slti => exact State.aluImm_eq_wrote ((setLess_eq_ofInt _ _).trans (by rw [toInt_immWord]))
    case sltni => exact State.aluImm_eq_wrote (setLessN_eq_ofInt _ _)
    case xori => exact State.aluImm_eq_wrote (xor_eq_ofInt _ _)
    case ori => exact State.aluImm_eq_wrote (or_eq_ofInt _ _)
    case andi => exact State.aluImm_eq_wrote (and_eq_ofInt _ _)
  case count =>
    refine ⟨?slli, ?srli, ?srai⟩
    case slli => exact State.aluImm_eq_wrote ((shiftL_eq_ofInt _ _).trans (by rw [toNat_count_mod]))
    case srli => exact State.aluImm_eq_wrote ((shiftR_eq_ofInt _ _).trans (by rw [toNat_count_mod]))
    case srai => exact State.aluImm_eq_wrote ((shiftA_eq_ofInt _ _).trans (by rw [toNat_count_mod]))
  case upper => exact ⟨exec_ldhi s d i, exec_pcadd s d i⟩

/-- Settles O3, by the conditions of the branches and the wrapped targets. -/
theorem branchResults : Obligations.branch_results := by
  refine ⟨fun s a b o => ?branches, exec_jal, exec_jalr⟩
  case branches =>
    refine ⟨?beq, ?bne, ?blt, ?bge, ?bltn, ?bgen⟩
    case beq => exact State.branch_cases (beq_iff_toNat_eq _ _)
    case bne => exact State.branch_cases (bne_iff_toNat_ne _ _)
    case blt => exact State.branch_cases BitVec.slt_iff_toInt_lt
    case bge => exact State.branch_cases (not_slt_iff_toInt_le _ _)
    case bltn => exact State.branch_cases BitVec.ult_iff_toNat_lt
    case bgen => exact State.branch_cases (not_ult_iff_toNat_le _ _)

end Sys2Proof.Machine
end
